-- ==== Sys2Proof/Word.lean ====
section
/-!
DEFINITION. The word types of the device (R9: registers are 32 bits wide; R293 and R395: buffers and
RAM are byte memories of 32-bit words).
-/

namespace Sys2Proof

/-- A 32-bit register or message word (R9). -/
abbrev Word := BitVec 32

/-- One byte of an addressed RAM. -/
abbrev Byte := BitVec 8

/-- A table from numbers to records, kept as pairs with strictly rising keys and no entry equal to
the default that an unlisted key reads as. -/
abbrev Tbl (α : Type) := List (Nat × α)

end Sys2Proof
end

