-- ==== Sys2Proof/Syntax.lean ====
section
/-!
DEFINITION. The commands of the block: one constructor of `Instr` for each row of
spec/opcode_table.json, in the table's order, with the operands its rule gives it. The operand types
stand before it. Indices of a fixed number of like things are `Fin`; words of a message are `Word`.
-/

namespace Sys2Proof

/-- The masters of R396. -/
inductive Master where
  | pcie0 | pcie1 | qspi | mgmt | island | partner | referee
  deriving DecidableEq, Repr

/-- The two parts of R1. -/
inductive Part where
  | t9256 | t9128
  deriving DecidableEq, Repr

/-- Roles of the straps PLY_ROLE[1:0] (R213). -/
inductive Role where
  | single | memberA | memberB | referee
  deriving DecidableEq, Repr

/-- The two members of a ply as the referee sees them (R231). -/
inductive Member where
  | a | b
  deriving DecidableEq, Repr

/-- One Iapin request block as the firmware picks it up (R410): the channel it arrived on, bits
[31:16] of word 0, word 1 (TAG and SEQ) and the argument words 2 to 15. The opcode of word 0 is the
constructor. `write` is the direction of a record access REC, which R412 has but gives no bit. -/
structure Req where
  chan  : Fin 32
  flags : BitVec 16 := 0
  w1    : Word := 0
  args  : List Word := []
  write : Bool := true
  deriving DecidableEq, Repr

/-- The strand supply domains of R155. -/
inductive StrandSupply where
  | vsda | vsdb
  deriving DecidableEq, Repr

/-- The domains of R435. -/
inductive Domain where
  | vaon | vsafe | vcore | vspin | vmem | vpll | vana | vsda | vsdb | vnet | vhost | vio18 | vio33 | vdrv
  deriving DecidableEq, Repr

/-- What the board shows at a release of reset (R440): the PLY_ROLE straps, the domains that have come back into range, and
whether RESET_N and PFAIL_N are high, all of it for the last 10 ms. -/
structure ReleaseIn where
  role : Role
  back : List Domain := []
  resetHigh : Bool := true
  pfailHigh : Bool := true
  deriving DecidableEq, Repr

/-- Causes of a collapse (R308). -/
inductive CollapseCause where
  | pfail | vcoreUv | thermal
  deriving DecidableEq, Repr

/-- The two register spaces a host port reaches, and any other code in the address bits [31:28] of a QSPI transaction
(R393, R394). -/
inductive Space where
  | bar0 | bar2
  | other (code : BitVec 4)
  deriving DecidableEq, Repr

/-- The bytes of a word that a read addresses (R9): the first of them, 0 being the least significant, and how many. -/
structure ReadBytes where
  first : Fin 4 := 0
  count : Fin 5 := 4
  deriving DecidableEq, Repr

/-- A read of a register word: who reads, and which bytes of it (R9). -/
structure WordRead where
  master : Master
  bytes  : ReadBytes := {}
  deriving DecidableEq, Repr

/-- The generator whose pending mask meets its event, and whether the command path raises both of its commands then
(R148, R203). -/
structure MaskEvent where
  gen    : Fin 32
  bothOn : Bool := false
  deriving DecidableEq, Repr

/-- The voltage on DIDT[n] of one channel, in mV (R204). -/
structure Trip where
  chan : Fin 32
  didt : BitVec 16
  deriving DecidableEq, Repr

/-- The two PLLs (R327). -/
inductive PllId where
  | a | b
  deriving DecidableEq, Repr

/-! ### Records that a transfer image carries whole (R237) -/

namespace Machine

/-- Per-lane state of a block instance (R73), with the outputs it wrote last and holds (R75). -/
structure Lane where
  x : Int := 0
  d : Int := 0
  ePrev : Int := 0
  s1 : Int := 0
  s2 : Int := 0
  y : Int := 0
  theta : Int := 0
  lockRun : Nat := 0
  unlockRun : Nat := 0
  locked : Bool := false
  last : List Int := []
  held : List Int := []
  deriving DecidableEq, Repr

/-- A recipe slot (R86). -/
structure Slot where
  valid : Bool := false
  words : List Word := []
  deriving DecidableEq, Repr

/-- A channel's calibration, limits and ratings (R93, R424). -/
structure ChanCal where
  eta : Nat := 0
  v0 : Nat := 0
  rd : Nat := 0
  iMax : Nat := 0
  maxSlew : Int := 2147483647
  priority : Nat := 15
  iRated : Nat := 0
  pRated : Nat := 0
  deriving DecidableEq, Repr

/-- A channel's Efaraelle state, target record and reference (R91 to R100), with its allocator
report (R118). -/
structure Channel where
  cal : ChanCal := {}
  /-- The calibration that the targets follow: `cal` as the last delivered step found it (R93). -/
  stepCal : ChanCal := {}
  staged : Option ChanCal := none
  scDl : Nat := 0x8000
  scDr : Nat := 0x8000
  drEnd : Nat := 0
  /-- Time of the last SC_DL write, in core cycles and plus 1; 0 when none awaits its timeout. -/
  dlTick : Nat := 0
  derate : Nat := 0x8000
  fluxRecipe : Nat := 0
  fluxTarget : Nat := 0
  iTarget : Int := 0
  clamped : Bool := false
  cutFlag : Bool := false
  dlExpired : Bool := false
  stepMissed : Bool := false
  ref : Int := 0
  /-- The reference before this tick's boundary moved it. -/
  refWas : Int := 0
  /-- The point of the ramp that DEMAND stands for (R116), and that of the last allocation run; none before any. -/
  asked : Int := 0
  grantRef : Option Int := none
  rampFrom : Int := 0
  rampTo : Int := 0
  rampTick : Nat := 0
  demand : Int := 0
  grant : Int := 0
  ratio : Nat := 0x7FFFFFFF
  minRatio : Nat := 0x7FFFFFFF
  prioUsed : Nat := 15
  cutTie : Bool := false
  cutHeadroom : Bool := false
  cutLimit : Bool := false
  cutOwn : Bool := false
  deriving DecidableEq, Repr

/-- Allocator parameters and status of a section (R116, R119, R485). DESIGN CHOICE (note 168): K_INJ before any map is in force is
the value for star and double star. -/
structure Section where
  arrange : Nat := 15
  mMax : Int := 0x7999999A
  kInj : Int := 0x6ED9EBA1
  uMargin : Int := 0x028F5C29
  zsBalMax : Int := 0x06666666
  tieRatio : Int := 0x2CCCCCCD
  pSecLim : Int := 0x7FFFFFFF
  runTick : Nat := 0
  uStarMax : Int := 0
  cutLevel : Nat := 0
  armShort : Nat := 0
  shareShort : Bool := false
  mapFallback : Bool := false
  cfgErr : Bool := false
  saturated : Bool := false
  feasible : Bool := false
  deriving DecidableEq, Repr

/-- One warp table entry (R40), with its fields decoded. -/
structure Entry where
  cls : Nat
  unit : Nat
  budget : Nat
  notBefore : Nat
  period : Nat
  offset : Nat
  count : Nat
  src : Nat
  arg : Nat
  dst : Nat
  deriving DecidableEq, Repr

/-- A warp table bank (R52): entries up to the END entry and placed instance lists. -/
structure Bank where
  valid : Bool := false
  span : Nat := 0
  entries : List Entry := []
  listBase : Nat := 0
  lists : List Word := []
  deriving DecidableEq, Repr

/-- One entry of a coefficient set (R420). -/
structure CoefEntry where
  inst : Nat
  preload : Bool
  words : List Word
  deriving DecidableEq, Repr

/-- Staged trim set (R424 TRIM_STAGE). -/
structure TrimSet where
  owner : Bool
  period : Nat
  duty : Nat
  tickAlign : Bool
  en : Bool
  deriving DecidableEq, Repr

/-- Driver settings, words 0 and 1 of R210. -/
structure DrvSet where
  vgsTh : Nat := 4
  srcStr : Nat := 7
  snkStr : Nat := 7
  dtMin : Nat := 25
  blank : Nat := 12
  didtTh : Nat := 10
  didtThBl : Nat := 20
  preN : Nat := 16
  preW : Nat := 20
  deriving DecidableEq, Repr

/-- A write waiting for its tick boundary (R16). -/
inductive Landing where
  | severity (src sev : Nat)
  | stopTh (v : Nat)
  | thermal (row : Nat) (v : Int)
  | port (p : Nat) (first : Nat) (words : List Word)
  | auxOut (skein bits : Nat)
  | strandFields (k : Nat) (w : Word)
  | returnCell (k : Nat)
  | bulkRing (k : Nat) (up : Bool) (off len : Nat)
  | trimEnAlign (n : Nat) (w : Word)
  | lockoutClear (n : Nat)
  | openClose (inst : Nat) (close : Bool)
  | hold (inst : Nat) (sel : Bool) (manual : Word)
  | snapReq
  | meterParam (kind index : Nat) (v : Word)
  | pulseIn (i : Nat) (w3 w4 w5 : Word)
  | pulseOut (j : Nat) (w3 w4 : Word)
  | adc (c : Nat) (first : Nat) (words : List Word)
  | tbSet (n : Nat) (sec ns : Nat)
  | tbStep (n : Nat) (off : Int)
  | tbSlew (n : Nat) (v : Int)
  | tbRate (n : Nat) (v : Int)
  | tbState (n : Nat) (code : Nat)
  | tbHoldLimit (n : Nat) (v : Nat)
  | tb2Lane (inst lane : Nat)
  | ptp (w : Word)
  | testMode (on : Bool)
  | loopback (key mode : Nat)
  | inject (key action n rate : Nat)
  | capture (ticks mask : Nat)
  | telemetry (mask : Word) (period : Nat)
  | deepRest (k : Nat)
  | wake (k : Nat)
  deriving DecidableEq, Repr

/-- A piece of the transfer image that the active has still to send (R237): which weft block, bank, staged content, record or
mirrored field. -/
inductive XferKey where
  | weft (off : Nat)
  | bank (b : Nat)
  | runBank
  | map (staged : Bool)
  | inst (n : Nat)
  | acc (q : Nat)
  | fields
  | commit
  | enc (k : Nat)
  | trim (n : Nat)
  | flags (k : Nat)
  | pulse (j : Nat)
  | start
  | channel (n : Nat)
  | slot (n : Nat)
  | recipes
  | sec (s : Nat)
  | derate (k : Nat)
  | meter
  | coefs
  | allocs
  | trimStaged (n : Nat)
  | severity (src : Nat)
  | stopTh
  | thermal (row : Nat)
  | strand (k : Nat)
  | meterParam (kind i : Nat)
  | pulseIn (i : Nat)
  | pulseOut (j : Nat)
  | adc (c : Nat)
  deriving DecidableEq, Repr

end Machine

/-- What a HELLO unit carries (R218). -/
structure Hello where
  ucrcOk      : Bool
  part        : Part
  stepping    : BitVec 8
  firmware    : Word
  pstate      : Nat
  fit         : Bool
  sync        : Bool
  diverge     : Bool
  resyncReq   : Bool
  xferReq     : Bool
  claim       : Word
  claimLast   : Word
  claimMax    : Word
  tick        : BitVec 48
  tickSteps   : Nat
  guardLen    : Nat
  alignSrc    : Fin 4
  alignOrigin : Nat
  syncDelay   : Nat
  commitGuard : Nat
  deriving DecidableEq, Repr

/-- Strand flags of SEAL units 1 to 8: FRESH, LOST and the commands that are pending (R219). -/
structure SealFlags where
  strand     : Fin 256
  fresh      : Bool
  lost       : Bool
  bypass     : Bool := false
  deepRest   : Bool := false
  wake       : Bool := false
  returnCell : Bool := false
  deriving DecidableEq, Repr

/-- One write-log entry: an opcode with its request, and the words of the image for an image load (R219). -/
structure LogEntry where
  op    : Nat
  req   : Req
  image : List Word := []
  deriving DecidableEq, Repr

/-- The contents of the SEAL section of one tick (R219), with the start state and its two outputs, which R449 and R450
have mirrored (note 28). -/
structure SealImage where
  tick         : BitVec 48
  claim        : Word
  appliedEpoch : Word
  appliedTick  : BitVec 48
  commitState  : Fin 3
  epoch        : Word
  target       : BitVec 48
  set          : BitVec 16
  campus       : Bool
  units        : Nat
  unitsCrc     : Word
  releases     : List (BitVec 16)
  flags        : List SealFlags
  log          : List LogEntry
  start        : Fin 8 := 0
  reason       : Fin 8 := 0
  preCmd       : Bool := false
  mainCmd      : Bool := false
  /-- Core cycles for which that state has stood. -/
  stateTime    : Nat := 0
  /-- BANK0_VALID and BANK1_VALID, which are mirrored (R15, R60). -/
  valid0       : Bool := true
  valid1       : Bool := true
  deriving DecidableEq, Repr

/-- One accumulator as a TRAILER carries it (R219, R292). -/
structure AccImage where
  value : Nat
  frac  : Nat
  wrap  : Nat
  deriving DecidableEq, Repr

/-- Encoder state of one strand as TRAILER units 48 to 111 carry it (R134, R137, R139, R219). -/
structure EncImage where
  strand  : Fin 256
  swallow : Nat
  omitted : Nat
  swMin   : Nat
  edgeMax : Nat
  levelA  : Option Bool
  levelB  : Option Bool
  edgeLimit : Bool
  blocked   : Bool
  lastA     : Int := -16777216
  lastB     : Int := -16777216
  mPrev     : Int := 0
  blockPrev : Bool := false
  everSent  : Bool := false
  built     : Bool := false
  deriving DecidableEq, Repr

/-- Trim generator and mask record of one channel, with the mask that is staged and its event, and the driver settings, as
TRAILER units 112 to 127 carry them (R219). -/
structure TrimImage where
  chan     : Fin 32
  words    : List Word
  drv      : List Word
  pendMask : Fin 4
  pendEvt  : Fin 4
  deriving DecidableEq, Repr

/-- A pulse output as a TRAILER carries it (R219, R305). -/
structure PulseImage where
  residual : Nat
  backlog  : Nat
  owing    : Bool
  deriving DecidableEq, Repr

/-- The contents of the TRAILER section of one tick (R219): of the pulse inputs the counts of the window that runs (R303),
and the active's HELLO last. -/
structure TrailerImage where
  accs     : List AccImage
  totals   : List Nat
  pulses   : List PulseImage
  pulseIns : List Nat
  digests  : List (BitVec 16)
  encs     : List EncImage
  trims    : List TrimImage
  hello    : Hello
  deriving DecidableEq, Repr

/-- A unit of the tick's image as it arrives over the ply link (R217, R219). The byte layout of SEAL and TRAILER data is not
the manual's; a TABLE unit's 64 bytes come with their UCRC. -/
inductive PlyUnit where
  | fill
  | table (offset : BitVec 23) (data : List Byte) (ucrc : BitVec 16)
  | seal (img : SealImage)
  | trailer (img : TrailerImage)
  deriving DecidableEq, Repr

/-- One received unit with the low 16 bits of its tick and, for data whose layout the manual does not give, the result of its
UCRC check. -/
structure PlyRx where
  unit   : PlyUnit
  tick   : BitVec 16
  ucrcOk : Bool
  deriving DecidableEq, Repr

/-- One piece of the transfer image of R237: a weft block, a warp bank, a staged content, the coefficient record and
state of one spindle instance (R220), or fields marked Mirrored: of a channel with its targets and report, of a recipe slot,
of a section, of a cell's derating, encoder record and LOST flag, of a trim channel, of a pulse output, of metering, of the mode
commit, of the start sequence. `param` carries a parameter or a field as the write that
lands it (note 28). -/
inductive XferUnit where
  | weft (offset : BitVec 23) (data : List Byte)
  | bank (b : Fin 2) (k : Machine.Bank)
  | runBank (b : Fin 2)
  | map (staged : Bool) (words : List Word)
  | inst (id : Fin 2048) (record : List Word) (lanes : List Machine.Lane) (preload : Bool)
  | acc (q : Fin 136) (a : AccImage)
  | fields (appliedEpoch : Word) (appliedTick : BitVec 48) (commitGuard : Nat)
  | commit (state : Fin 3) (epoch : Word) (target : BitVec 48) (set : BitVec 16) (campus : Bool) (armed : Option (Fin 16))
  | enc (e : EncImage)
  | trim (x : TrimImage)
  | flags (f : SealFlags)
  | pulse (j : Fin 8) (p : PulseImage)
  | param (l : Machine.Landing)
  | coefs (es : Option (List Machine.CoefEntry))
  | allocs (ws : List (Nat × Option Word))
  | trimStaged (n : Fin 32) (set : Option Machine.TrimSet) (drv : Option Machine.DrvSet)
  | start (state reason : Fin 8) (preCmd mainCmd : Bool) (stateTime : Nat)
  | channel (n : Fin 32) (c : Machine.Channel) (dlAge : Nat)
  | slot (n : Fin 16) (s : Machine.Slot)
  | recipes (inForce : Fin 16) (staged : Option (Fin 16)) (localOffset : Int) (dlTimeout : Nat)
  | sec (s : Fin 6) (x : Machine.Section)
  | derate (k : Fin 256) (h : BitVec 16)
  | meter (qrefLost : Bool) (calSeq : BitVec 16)
  deriving DecidableEq, Repr

/-- An XFER unit as it arrives: whether its UCRC fits, and what it carries (R217, R237). -/
structure XferMsg where
  ucrcOk : Bool
  unit   : XferUnit
  deriving DecidableEq, Repr

/-- XFER_END as it arrives: whether its UCRC fits, and whether the CRC-32 it carries is that of the image received (R217,
R226, R237). -/
structure XferClose where
  ucrcOk : Bool
  crcOk  : Bool
  deriving DecidableEq, Repr

/-- The result of one boundary's sampled inputs: the pins GPIO[15:0] (R445), the words each skein's
sideband scan shifts in (R157), and the pulses the board holds on PLY_TRIM_OWN_IN (R209). -/
structure BoundaryIn where
  gpio      : BitVec 16 := 0
  sideband  : List Word := []
  ownIn     : Bool := false
  deriving DecidableEq, Repr

/-- What the guard window's fixed work finds (R39): whether the delay-line calibration spans one core
cycle, the first failing probe step of each rail (0 when the probe passes) and whether a real source
aborted the probe, and the SRAM error the scrub step meets. -/
structure GuardIn where
  calOk    : Bool := true
  railA    : Fin 6 := 0
  railB    : Fin 6 := 0
  abortA   : Bool := false
  abortB   : Bool := false
  eccFixed : Option Word := none
  eccBad   : Option Word := none
  deriving DecidableEq, Repr

/-- An uplink tick frame as it arrives on the line (R167, R168, R172, R173): header and control words, the control CRC as
received, whether the control segment is complete, the measured round trip in units of 12.5 ps, and a bulk segment if one
follows (header word, data words, CRC as received). A code-group error within the frame shows as a CRC that does not fit
(R160). -/
structure UplinkLine where
  header   : List Word
  control  : List Word
  crc      : Word
  complete : Bool
  rtt      : Nat
  bulk     : Option (Word × List Word × Word)
  deriving DecidableEq, Repr

/-- The capability frame of an endpoint as it arrives (R162): its four words and its CRC. -/
structure CapsFrame where
  w0  : Word
  w1  : Word
  w2  : Word
  w3  : Word
  crc : Word
  deriving DecidableEq, Repr

/-- The end of an endpoint's capability frame: its CRC (R168), and the round trip measured with it, in units of 12.5 ps
(R163). -/
structure CapsEnd where
  crc : Word
  rtt : BitVec 24
  deriving DecidableEq, Repr

/-- An uplink in the receive buffer of a strand, its control CRC judged. -/
structure Uplink where
  header   : List Word
  control  : List Word
  crcOk    : Bool
  complete : Bool
  deriving DecidableEq, Repr

/-- A received Ethernet frame (R349, R351): its bytes from the destination address to the last before the FCS, whether the FCS
is good, and the core cycles from the first bit after the start-of-frame delimiter to its end. -/
structure EthFrame where
  fcsOk : Bool
  body  : List Byte
  age   : Nat := 0
  deriving DecidableEq, Repr

/-- A coordination frame (R362): its words from VERSION to the two TAG words, the MAC addresses it goes to and came from, the
tag control information of its C-tag, and its duration in core cycles. -/
structure CoordFrame where
  words : List Word
  dstMac : BitVec 48
  srcMac : BitVec 48
  tci : Option (BitVec 16) := none
  age : Nat := 0
  deriving DecidableEq, Repr

/-- A CAN frame on the bus (R373): `res` is set where the res bit of an FD frame is recessive (R370), and `age` counts the core
cycles from the sample point of its SOF bit to the event (R381). -/
structure CanFrame where
  id    : BitVec 29
  xtd   : Bool
  rmt   : Bool
  fd    : Bool
  fast  : Bool
  epass : Bool
  dlc   : BitVec 4
  data  : List Byte
  res   : Bool := false
  age   : Nat := 0
  deriving DecidableEq, Repr

/-- Error kinds of LAST_ERR (R387). -/
inductive CanErr where
  | stuff | form | ack | bit1 | bit0 | crc
  deriving DecidableEq, Repr

/-- How ISO 11898-1 counts an error of a transmitter in TEC (R384): an error flag, with the further counts of 8 that its flag
brings (bit errors in it, and dominant bits too long after it); the acknowledgement error of an error-passive node that sees no
dominant bit while it sends its passive error flag (R385); and the stuff error in arbitration on a recessive stuff bit read as
dominant, which has further counts only. -/
inductive TecCase where
  | flagged (more : Nat)
  | passiveAck
  | arbStuff (more : Nat)
  deriving DecidableEq, Repr

/-- How a transmit attempt ends (R383). `age` of a success counts the core cycles since the sample point of its SOF bit (R381). -/
inductive Attempt where
  | success (age : Nat)
  | lostArb
  | error (e : CanErr) (dataPhase : Bool) (w : TecCase)
  deriving DecidableEq, Repr

/-- An error that a receiver detects (R384): its kind; the core cycles since the sample point of the frame's SOF bit; whether
it counts one in REC, as every error but a bit error in the receiver's own error or overload flag does; and the further counts
of 8 that ISO 11898-1 gives for its flags. -/
structure CanRxErr where
  kind  : CanErr
  age   : Nat := 0
  first : Bool := true
  more  : Nat := 0
  deriving DecidableEq, Repr

/-- What a channel of an input pair shows of one test pulse (R270): the time in µs from the source's falling edge until it reads
low, and from the rising edge until it reads high, where it does. -/
structure PulseSeen where
  fall : Option (BitVec 16) := none
  rise : Option (BitVec 16) := none
  deriving DecidableEq, Repr

/-- What the channels A and B of the eight input pairs show of one test pulse (R270). -/
structure PulseLevels where
  a : List PulseSeen
  b : List PulseSeen
  deriving DecidableEq, Repr

/-- What one island cycle samples (R258, R260): the levels of the input pairs (A, B), the sense inputs, the output readbacks and
overloads, the cross-check clock and the oscillator check, the core comparison and the memory check, SAFE_VSUP in 0.1 V, and
the reference check of one sense converter. -/
structure IslandIn where
  inA        : BitVec 8 := 0xFF
  inB        : BitVec 8 := 0xFF
  /-- The samples of each sense input since the cycle before, in µV: eight, or seven for the channel at its reference. -/
  sense      : List (List Int) := []
  readback   : BitVec 8 := 0
  overload   : BitVec 8 := 0
  xclock     : Bool := true
  oscOk      : Bool := true
  coresAgree : Bool := true
  memOk      : Bool := true
  vsup       : Nat := 240
  /-- The channel whose converter is at the internal reference in this cycle, and its deviation in 0.01 %. -/
  refChan    : Fin 32 := 0
  refDev     : Int := 0
  deriving DecidableEq, Repr

/-- Lane classes of LOOPBACK (R457). -/
inductive LaneClass where
  | strand | ply | eth | pcie
  deriving DecidableEq, Repr

/-- Causes of an epoch report (R365). -/
inductive ReportCause where
  | apply | discard | periodic | query
  deriving DecidableEq, Repr

/-- The commands: one constructor per row of spec/opcode_table.json. -/
inductive Instr where
  | nop (r : Req)
  | info (r : Req)
  | query (r : Req)
  | severity (r : Req)
  | stopTh (r : Req)
  | thermal (r : Req)
  | cutMatrix (r : Req)
  | cutGroup (r : Req)
  | cut (r : Req)
  | cutRelease (r : Req)
  | port (r : Req)
  | deviceReset (r : Req)
  | mapLoad (r : Req)
  | mapRead (r : Req)
  | sectionStatus (r : Req)
  | encoder (r : Req)
  | strand (r : Req)
  | auxOut (r : Req)
  | returnCell (r : Req)
  | deepRest (r : Req)
  | wake (r : Req)
  | endpointCmd (r : Req)
  | bulkRing (r : Req)
  | recipeLoad (r : Req)
  | chanStage (r : Req)
  | localOffset (r : Req)
  | scale (r : Req)
  | dlTimeout (r : Req)
  | target (r : Req)
  | report (r : Req)
  | trim (r : Req)
  | trimPair (r : Req)
  | trimStage (r : Req)
  | trimDriver (r : Req)
  | lockoutClear (r : Req)
  | coefWrite (r : Req)
  | coefRead (r : Req)
  | openClose (r : Req)
  | hold (r : Req)
  | flagClear (r : Req)
  | coefStage (r : Req)
  | allocStage (r : Req)
  | plyStart (r : Req)
  | claimStart (r : Req)
  | refereeTick (r : Req)
  | refereeStart (r : Req)
  | meterParam (r : Req)
  | pulseIn (r : Req)
  | pulseOut (r : Req)
  | meterClear (r : Req)
  | adc (r : Req)
  | adcUrgent (r : Req)
  | adcCal (r : Req)
  | adcCoef (r : Req)
  | safetyLoad (r : Req)
  | safetyConfirm (r : Req)
  | zoneRequest (r : Req)
  | resetArm (r : Req)
  | safetyStatus (r : Req)
  | arm (r : Req)
  | abort (r : Req)
  | tickConfig (r : Req)
  | warpLoad (r : Req)
  | seqStart (r : Req)
  | unstage (r : Req)
  | tbSet (r : Req)
  | tbStep (r : Req)
  | tbSlew (r : Req)
  | tbRate (r : Req)
  | tbState (r : Req)
  | tbHoldLimit (r : Req)
  | tb2Lane (r : Req)
  | ptp (r : Req)
  | frameSend (r : Req)
  | testMode (r : Req)
  | loopback (r : Req)
  | inject (r : Req)
  | capture (r : Req)
  | telemetry (r : Req)
  | fwStage (r : Req)
  | fwActivate (r : Req)
  | longRunningComplete (slot : Fin 8)
  | tickLoRead (m : WordRead)
  | cutFire (m : Master) (v : Word)
  | statusClear (m : Master) (w : Fin 16) (v : Word)
  | hankAck (m : Master) (v : Word)
  | feValidClear (m : Master) (v : Word)
  | snapReq (m : Master) (v : Word)
  | tbSnapReq (m : Master) (v : Word)
  | tbRecordRead (m : WordRead) (n : Fin 4)
  | entry0Read (m : WordRead) (p : Fin 2)
  | entry3Read (m : WordRead) (p : Fin 2)
  | bufferLockRead (m : WordRead) (c : Fin 4) (n : Fin 64)
  | bufferReleaseRead (m : WordRead) (c : Fin 4) (n : Fin 64) (word : Fin 19)
  | lockedForceRelease (m : Master) (c : Fin 4) (half : Fin 2) (v : Word)
  | rxqRelease (m : Master) (c : Fin 4) (f : Fin 2) (v : Word)
  | txPush (m : Master) (c : Fin 4) (v : Word)
  | txFlush (m : Master) (c : Fin 4) (v : Word)
  | configSet (m : Master) (c : Fin 4) (v : Word)
  | configClear (m : Master) (c : Fin 4) (v : Word)
  | busIntegration (c : Fin 4)
  | goPost (m : Master) (ch : Fin 32)
  | goWithdraw (m : Master) (ch : Fin 32)
  | pick (m : Master) (ch : Fin 32)
  | land (m : Master) (ch : Fin 32)
  | doneSet (m : Master) (ch : Fin 32)
  | bindLock (m : Master)
  | fwdDataPush (m : Master) (ch : Fin 32) (v : Word)
  | fwdDataPop (m : WordRead) (ch : Fin 32)
  | backDataPush (m : Master) (ch : Fin 32) (v : Word)
  | backDataPop (m : WordRead) (ch : Fin 32)
  | intCauseClear (m : Master) (v : Word)
  | qspiStatus
  | registerWrite (m : Master) (space : Space) (off : BitVec 28) (first : Byte) (rest : List Byte)
  | vaonPowerOn
  | vsafePowerOn
  | islandSelfTest (pass : Bool)
  | supplyOutOfRange (dom : Domain)
  | supplyDomainOn (dom : StrandSupply)
  | supplyDomainOff (dom : StrandSupply)
  | resetN
  | resetRelease (role : ReleaseIn) (recoveryLow : Bool) (vmemHeld : Bool)
  | collapse (cause : CollapseCause)
  | firmwareWatchdogReset
  | perstN
  | functionLevelReset (f : Fin 2)
  | pcieLinkDown
  | firmwareStart
  | cutIn
  | plyCutIn
  | cutSymbols (k : Fin 256)
  | strandSourceEnd (k : Fin 256)
  | shortTrip (first : Trip) (others : List Trip)
  | stuck (n : Fin 32) (highWaiting : Bool)
  | bstUv (n : Fin 32)
  | bstUvRelease (n : Fin 32)
  | prechargeEnd (n : Fin 32)
  | maskApply (e : MaskEvent)
  | trimEvt (pin : Fin 4) (falling : Bool)
  | grant
  | resync
  | claim
  | yieldClaim
  | trimOwnershipTake
  | ownershipWait
  | plyJoin
  | xferEnd (crcOk : XferClose)
  | xferTimeout
  | xferUnit (left : Nat) (u : XferMsg)
  | comparedTicksDone
  | plyLinkLock
  | plyLinkAlign
  | plyLinkError
  | plyLinkRestart
  | hello (h : Hello)
  | helloTimer
  | helloAbsent
  | plyUnit (u : PlyRx)
  | imageDeadline
  | aliveEdge (mem : Member)
  | healthReportReceived (mem : Member) (w0 w1 w2 w3 : Word)
  | aliveOkLost (mem : Member)
  | reportOkLost (mem : Member)
  | tickSyncIn (fine : Fin 64)
  | refLost
  | refValid (errA errB : Int)
  | pllLocked (p : PllId)
  | lockClear (p : PllId)
  | acquireTimeout (p : PllId)
  | holdLimitExpiry (n : Fin 2)
  | receiverDetection (k : Fin 256) (seen : Bool)
  | bitLock (k : Fin 256)
  | trainTimeout (k : Fin 256)
  | symbolLock (k : Fin 256)
  | lockTimeout (k : Fin 256)
  | capabilityFrame (k : Fin 256) (w0 w1 w2 w3 : Word) (e : CapsEnd)
  | capsTimeout (k : Fin 256)
  | symbolLockLost (k : Fin 256)
  | deepSymbols (k : Fin 256)
  | clusterPllUnlock (s : Fin 16)
  | clusterPllLock (s : Fin 16)
  | uplinkFrame (k : Fin 256) (f : UplinkLine)
  | restEntry (k : Fin 256)
  | restExit (k : Fin 256)
  | ethLinkUp (p : Fin 2)
  | ethLinkDown (p : Fin 2)
  | frameReceive (p : Fin 2) (f : EthFrame)
  | coordinationFrame (p : Fin 2) (f : CoordFrame)
  | ptpServoHoldover (n : Fin 2)
  | launch (p : Fin 2)
  | lpiEntry (p : Fin 2)
  | epochReport (cause : ReportCause)
  | canFrameReceived (c : Fin 4) (f : CanFrame)
  | attemptEnd (c : Fin 4) (a : Attempt)
  | busOffRecovery (c : Fin 4)
  | tickBoundary (b : BoundaryIn)
  | tickPeriodEnd
  | firstBoundary (b : BoundaryIn)
  | fbTimeExpiry
  | preTimeout
  | syncTimeout
  | feedbackDisagree
  | guardWindow (g : GuardIn)
  | intakeEntry (i : Fin 4096)
  | spinEntry (i : Fin 4096) (fault : Option (Fin 2048 × Fin 32))
  | allocEntry (i : Fin 4096)
  | meterEntry (i : Fin 4096)
  | deliverEntry (i : Fin 4096)
  | copyEntry (i : Fin 4096)
  | xdieEntry (i : Fin 4096)
  | captureEntry (i : Fin 4096)
  | mirrorEntry (i : Fin 4096)
  | tickOverrun (i : Fin 4096)
  | recipeStep (delivered : Bool)
  | thermalStepTick
  | sensorSample (readings : List Int)
  | islandCycle (i : IslandIn)
  | soloExpired
  | testPulse (tp : Fin 4) (x : PulseLevels)
  | outputTest (n : Fin 8) (lowSide : Bool) (pass : Bool)
  | pendingDrop
  | armedExpiry (z : Fin 8)
  | meterImageLatch
  | imageWriteDone (ok : Bool)
  | pulseInputChange (i : Fin 16) (active : Bool)
  | pulseInputStuck (i : Fin 16)
  | overRateWindow
  | pulseOutputStart (j : Fin 8)
  | conversionEnd (c : Fin 8) (raw : Int)
  | hankEntry
  | cutInDeassert
  | plyCutInDeassert
  | trimPeriodEnd (n : Fin 32)
  | trimDutyEnd (n : Fin 32)
  | oppositeGateFall (n : Fin 32) (high : Bool)
  | returnSlewEnd (p : PllId)
  | pulseOutputEnd (j : Fin 8)
  | oddConversionStart (pair : Fin 4)
  | canReceiveError (c : Fin 4) (e : CanRxErr) (dataPhase : Bool)
  | telemetrySend
  | watchdogExpiry
  | lockstepMismatch (pc : Word)
  | closeRecordWritten
  | vsafeLoss
  | powerStateChange (f : Fin 2) (d3hot : Bool)
  | qspiProtocolError
  | prbsCheckerLock (cls : LaneClass) (lane : Fin 256)
  | prbsCheckerLockLost (cls : LaneClass) (lane : Fin 256)
  | grantHoldoffExpiry
  deriving DecidableEq, Repr

end Sys2Proof
end

