-- ==== Sys2Proof/Decode.lean ====
section
/-!
DEFINITION. The command that a table word spells. No row of spec/opcode_table.json gives bits, so no word spells a
command: commands reach the block over its ports, and the queue of `Machine.State` holds them.
-/

namespace Sys2Proof

/-- The command of a word by the table's bits: the table gives none. -/
def decodeTableWord (_nbits _w : Nat) : Option Instr := none

end Sys2Proof
end

