-- ==== Sys2Proof/Config.lean ====
section
/-!
DEFINITION. What the spec leaves open: free values with no body. A step applies them to the counter of
`Dev.fresh` or to the operands they depend on; nothing can evaluate them (note 2).
-/

namespace Sys2Proof

/-- A free word (notes 2 and 10). -/
opaque Config.freeWord : Nat → Word

/-- A free natural number; where the spec bounds it the step bounds it (note 2). -/
opaque Config.freeNat : Nat → Nat

/-- Whether a value that the spec does not say how to round goes up at a place of the model (note 22): two computations of one
value at one place agree (R62). -/
opaque Config.roundsUp : Nat → Rat → Bool

/-- The current that the model of R93 gives a power where it states no result (note 22). -/
opaque Config.freeCurrent : Rat → Nat

/-- The shares of an arm whose trimmed shares sum to zero, in Q1.31, by strand (R120): their renormalisation has no value. -/
opaque Config.zeroShares : List Rat → Nat → Word

/-- The part of its channel that a cell has where the weights of the channel's cells sum to zero (R106, R487). -/
opaque Config.zeroWeights : Nat → Nat → Nat

/-- The deviation of a sine table entry from the true sine, in units of 2^-31 (R74); bounded at its use. -/
opaque Config.sineTable : Nat → Int

/-- Whether a firmware image's signature verifies under the key in ROM (R442): the key is not in the spec. -/
opaque Config.signatureOk : List Byte → Bool

/-- The length in bytes that the header of a firmware image states (R418): the header's layout is not in the spec
(note 26). -/
opaque Config.firmwareLength : List Byte → Nat

/-- The version that the header of a firmware image states (R442, note 26). -/
opaque Config.firmwareVersion : List Byte → Word

/-- The byte offset of the header field at which a refused firmware image fails (R418, note 26). -/
opaque Config.firmwareBadField : List Byte → Nat

/-- The phase pair, modulo 3, that the map assigns to a single-phase section: R295 speaks of it, and no word of
the map carries it (note 24). -/
opaque Config.phasePair : Nat → Nat

/-- The inductance in henries that a word of L_ARM stands for: its unit is not stated (R298, note 24). -/
opaque Config.armInductance : Word → Rat

/-- The converter input that a truth-channel word names: its layout is not stated (R296, note 24). -/
opaque Config.truthInput : Word → Nat

/-- The RMS value in volts that one volt at a truth channel's input stands for, as a truth-channel word states it (R296,
note 24). -/
opaque Config.truthScale : Word → Rat

/-- The components, along the frame of the TB2 lane and across it, of the fundamental that the four samples of a tick belong
to, as RMS values, with the lane at angle θ: how a fundamental is formed from the samples is not stated (R295, note 24). -/
opaque Config.fundamental : List Rat → Int → Nat → Rat × Rat

/-- DIVERGE clears on a resync, as R226's row for SHADOW and STANDBY has it, or only when the transfer completes, as R235 has
it: the two rules differ and nothing settles it (note 133). -/
opaque Config.divergeClearsOnResync : Bool

/-- The data of an XFER unit as the link carries it: its layout is not in the spec (R217, R237, note 28). -/
opaque Config.xferBytes : XferUnit → List Byte

/-- The revision ID of the PCIe functions: no rule gives it (R390, note 153). -/
opaque Config.pcieRevision : BitVec 8

/-- The fuse value of the reference of a converter at a range (R319, note 149). -/
opaque Config.referenceFuse : Nat → Nat → Int

/-- The bytes of a meter image from what it holds: the layout of the slots is not in the spec (R307, note 148). -/
opaque Config.imageLayout : List Nat → List Byte

/-- The entries of the warp table that run the share stage of the control-law set (R120): the set is not in the spec
(note 32). -/
opaque Config.shareEntry : Nat → Bool

/-- The byte offset in the weft region of the output of strand k's trim, a PI instance of the share stage (R120, note 32). -/
opaque Config.shareTrim : Nat → Nat

/-- The byte offset in the weft region of the current reference that the grid current control holds for an arm at the start
(false) or end (true) of the coming tick (R148): the control is not in the spec (note 144). -/
opaque Config.armReference : Nat → Bool → Nat

/-- The MAC address of a port (R362, R366): the spec does not say where it comes from (note 27). -/
opaque Config.macAddress : Nat → BitVec 48

/-- The clock identity and port number of a port's own PTP clock, in the 80 bits of a portIdentity (R353): nothing states it
(note 27). -/
opaque Config.portIdentity : Nat → BitVec 80

/-- The Ethernet, IPv4 and UDP headers, untagged, of a PTP message that the device sends on a port in UDP: its addresses are not in
the spec (R353, note 27). -/
opaque Config.udpHeader : Nat → List Byte → List Byte

/-- The VIDs in a port's filter, of which the first sixteen count: no rule says what sets them (R349, note 27). -/
opaque Config.portVids : Nat → List (BitVec 12)

/-- Where the PTP host receive ring lies in its area of the BAR2 window: offset and length, which no command sets (R354, R395,
note 27). -/
opaque Config.ptpRing : Nat × Nat

/-- The bytes of an entry of that ring from a message and its ingress timestamp: its layout is not in the spec (R354, note 27). -/
opaque Config.ringEntry : List Byte → Int → List Byte

/-- The wake time Tw_sys_tx of IEEE 802.3 for a mode of R361, in 0.1 µs: the number is not in the spec (note 27). -/
opaque Config.eeeWake : Nat → Nat

/-- Whether a word taken from FWD of channel 0 in recovery is the command that programs the integrator key fuse (R442). -/
opaque Config.programsFuse : Word → Bool

end Sys2Proof
end

