-- ==== Sys2Proof/Machine/State.lean ====
section
/-!
DEFINITION. The state of the block: every register, buffer, counter, mode and pin the spec gives the
device, as plain data, each field with its reset value as its default. Counts and codes are `Nat`,
words that are read and written whole are `Word`, signed quantities are `Int`. Tables `Tbl` list only
the entries that differ from the reset record. Field docstrings cite the rule of spec/.
-/

namespace Sys2Proof.Machine

/-- A byte memory in canonical form: rising addresses, no entry equal to the byte 0 that an unlisted
address reads as (note 6). -/
abbrev Mem := List Host.Cell

/-! ### Host links and mailboxes -/

/-- Banked interrupt words of one identity and its refused-write count (R389, R397). -/
structure IntBank where
  cause : Word := 0
  en    : Word := 0
  viol  : Nat := 0
  deriving DecidableEq, Repr

/-- One mailbox channel with its fallback queues and binding words (R398 to R406). -/
structure Chan where
  req : List Word := List.replicate 16 0
  rep : List Word := List.replicate 16 0
  /-- The reply that the requester reads while GO is set (R405). -/
  prevRep : List Word := List.replicate 16 0
  go : Bool := false
  picked : Bool := false
  /-- The message picked up repeats one that had been answered (R413). -/
  again : Bool := false
  landed : Bool := false
  done : Bool := false
  withdrawn : Bool := false
  disc : Bool := false
  wdLate : Bool := false
  reqWerr : Bool := false
  seq : Nat := 0
  /-- The core cycle at which GO last set (R431). -/
  goAt : Nat := 0
  fwd : List Word := []
  back : List Word := []
  fwdOvf : Bool := false
  backOvf : Bool := false
  bind0 : Word := 0
  bind1 : Word := 0
  bind0W : Bool := false
  bind1W : Bool := false
  /-- The request word 1 and reply kept for R413. -/
  stored : Option (Word × List Word) := none
  deriving DecidableEq, Repr

/-- One access-table word (R397), written once after reset. -/
structure WrEn where
  value   : Nat := 0
  written : Bool := false
  deriving DecidableEq, Repr

/-- Progress of a long-running command (R416). -/
inductive LongState where
  | running
  | complete (status : Nat) (words : List Word)
  deriving DecidableEq, Repr

/-- A long-running command the firmware has accepted, and its kept final reply (R416). -/
structure LongRun where
  op    : Nat
  req   : Req
  state : LongState
  deriving DecidableEq, Repr

/-- A PCIe function's power state and the MSI-X vectors it has sent since reset (R392, R409). -/
structure PcieFn where
  d3hot : Bool := false
  sent  : List Nat := []
  /-- BAR requests that have completed with Unsupported Request since reset (R391, R392): the model's own image of them. -/
  urs   : Nat := 0
  /-- The uncorrectable error status of AER (R390). -/
  aer   : Word := 0
  deriving DecidableEq, Repr

/-- Host links, mailboxes, Iapin bookkeeping and boot status (R389 to R434). -/
structure HostIf where
  fwVersion : Word := 0
  bootStage : Nat := 0
  authOk : Bool := false
  bindLocked : Bool := false
  ints : Tbl IntBank := []
  chans : Tbl Chan := []
  wrEn : Tbl WrEn := []
  longs : List LongRun := []
  pcie : Tbl PcieFn := []
  /-- Lanes of the trained PCIe link, 1 or 2, and its rate: 0 for 2.5 GT/s, 1 for 5 GT/s, 2 for 8 GT/s (R390). -/
  linkLanes : Nat := 2
  linkRate : Nat := 2
  qspiErr : Bool := false
  /-- The word the last register read of a row returned: the model's own image of the read port. -/
  readData : Word := 0
  /-- The reply the firmware composed last (16 words): the model's own image of the reply. -/
  lastReply : List Word := []
  deriving DecidableEq, Repr

/-! ### Tick, banks and mode commit -/

/-- States of the commit logic (R56). -/
inductive CommitState where
  | idle | armed | committed
  deriving DecidableEq, Repr

/-- Sequencer, tick, alignment and commit state (R32 to R60, R150 to R153). -/
structure TickSt where
  tick : Nat := 0
  tickStart : Nat := 0
  tickHiCap : Nat := 0
  appliedTickHiCap : Nat := 0
  targetHiCap : Nat := 0
  tickSteps : Nat := 1562
  guardLen : Nat := 1250
  alignSrc : Nat := 0
  alignOrigin : Nat := 0
  syncDelay : Nat := 0
  commitGuard : Nat := 100
  startTick : Nat := 0
  seqRun : Bool := false
  /-- The bank named by an accepted start whose first boundary has not come (R53). -/
  starting : Option Nat := none
  /-- The core cycle of that start (R36). -/
  startAt : Nat := 0
  /-- The pulse that is the first boundary of a start with SYNC: its core cycle and the tick number it brings (R35, R36). -/
  firstPulse : Option (Nat × Nat) := none
  /-- The core cycle at which TICK_SYNC_OUT falls (R150). -/
  syncOutEnd : Nat := 0
  /-- Zero crossings of arm current references in this tick and the next, by arm, in units of 12.5 ps and plus 1 (R148). -/
  zcNow : Tbl Nat := []
  zcNext : Tbl Nat := []
  /-- The words of R60 as the last guard window latched them (R39); none before the first. -/
  latched : List Word := []
  /-- The sequencer was started without a bank by R227. -/
  noBank : Bool := false
  runBank : Nat := 0
  bank0 : Bank := {}
  bank1 : Bank := {}
  overrun : Bool := false
  overrunCnt : Nat := 0
  /-- First entry abandoned in the present tick (R51). -/
  abandoned : Option Nat := none
  /-- The entry that may run next in the present tick (R42). -/
  nextEntry : Nat := 0
  /-- The cycle of the tick at which the entry that started last ends (R42, R51). -/
  entryEnd : Nat := 0
  guardDone : Bool := false
  alignOk : Bool := false
  /-- ALIGN_OK has been set since reset (R151). -/
  alignEver : Bool := false
  alignBad : Nat := 0
  alignGood : Nat := 0
  srcLost : Bool := false
  syncStray : Bool := false
  syncSeen : Bool := false
  strayCount : Nat := 0
  /-- The offset that the last accepted pulse measured, in units of 12.5 ps, not saturated (R37, R153). -/
  syncOffset : Int := 0
  syncMiss : Nat := 0
  /-- A pulse has been accepted since the last boundary. -/
  syncNew : Bool := false
  devPhase : Nat := 0
  commit : CommitState := .idle
  epoch : Word := 0
  target : Nat := 0
  set : Nat := 0
  campus : Bool := false
  appliedEpoch : Word := 0
  appliedTick : Nat := 0
  discardedEpoch : Word := 0
  deriving DecidableEq, Repr

/-! ### Spindle -/

/-- A block instance: coefficient record, control word and lanes (R71, R75, R81). -/
structure Inst where
  coef : List Word := List.replicate 14 0
  manual : Word := 0
  isOpen : Bool := true
  pendingOc : Bool := false
  holdSel : Bool := true
  bump : Bool := false
  inverted : Bool := false
  intClamp : Bool := false
  outSat : Bool := false
  accSat : Bool := false
  /-- A close or a PRELOAD has landed and the next evaluation preloads (R79). -/
  preload : Bool := false
  checker : Nat := 0
  /-- Every lane of the PLL instance is locked (R83). -/
  lockedAll : Bool := false
  lanes : Tbl Lane := []
  deriving DecidableEq, Repr

/-- The spindle (R61 to R85). -/
structure Spindle where
  insts : Tbl Inst := []
  tb2Lane : Option (Nat × Nat) := none
  stagedCoef : Option (List CoefEntry) := none
  /-- Staged allocator parameter words, keyed section × 8 + word (R116). -/
  stagedAlloc : Tbl (Option Word) := []
  deriving DecidableEq, Repr

/-! ### Recipes, channels and allocator -/

/-- A write of group 0x02 that lands at a recipe step (R92, R94). -/
inductive StepWrite where
  | localOffset (v : Int)
  | scale (mask : Nat) (which : Nat) (value : Nat) (drEnd : Nat)
  | dlTimeout (s : Nat)
  deriving DecidableEq, Repr

/-- A waiting write of a step, with its time of acceptance in core cycles and the channel and word 1 of its request. -/
structure StepItem where
  write : StepWrite
  since : Nat
  asker : Option (Nat × Word) := none
  deriving DecidableEq, Repr

/-- Efaraelle (R86 to R100). -/
structure Recipes where
  slots : Tbl Slot := []
  inForce : Nat := 0
  staged : Option Nat := none
  /-- The slot that an armed or committed RECIPE change brings in. -/
  armed : Option Nat := none
  localOffset : Int := 0
  dlTimeout : Nat := 600
  /-- Writes that land at a step. -/
  stepWrites : List StepItem := []
  chans : Tbl Channel := []
  deriving DecidableEq, Repr

/-! ### Cells, strands and skeins -/

/-- A symbol of a strand (R159): a data byte or a control symbol. -/
inductive Sym where
  | data (b : Byte)
  | comma | sof | msof | eof | mark | cut | rest | deep
  /-- An invalid code group in a symbol's place (R463). -/
  | invalid
  deriving DecidableEq, Repr

/-- A command waiting in a strand's downlink command slot (R171). -/
structure CmdSlot where
  cmd : Nat := 0
  seq : Nat := 0
  arg0 : Nat := 0
  args : List Word := [0, 0, 0]
  waiting : Bool := false
  /-- The command is a host's ENDPOINT_CMD that has not ended. -/
  host : Bool := false
  deriving DecidableEq, Repr

/-- A command for an endpoint that waits for the slot (R171). -/
structure DevCmd where
  cmd : Nat
  arg0 : Nat
  args : List Word
  host : Bool
  deriving DecidableEq, Repr

/-- States of a strand (R161), in the order of their codes (R186). -/
inductive StrandState where
  | off | detect | train | lock | caps | active | deep | failed
  deriving DecidableEq, Repr

/-- A strand: its record (R186) and the state of bring-up, frames and rest behind it. -/
structure Strand where
  state : StrandState := .off
  failReason : Nat := 0
  los : Bool := false
  late : Bool := false
  lost : Bool := false
  txRest : Bool := false
  restUp : Bool := false
  restDn : Bool := false
  autoRetrain : Bool := true
  enable : Bool := false
  retryCnt : Nat := 0
  floorSeen : Word := 0
  comp : Nat := 0
  missCnt : Nat := 0
  crcErr : Nat := 0
  bulkErr : Nat := 0
  lateCnt : Nat := 0
  caps0 : Word := 0
  capsVendor : Word := 0
  capsFw : Word := 0
  minPulse : Nat := 0
  crcEcho : Word := 0
  detectTries : Nat := 0
  /-- Symbol lock is held and CAPS (or ACTIVE after deep rest) follows at the next boundary. -/
  locked : Bool := false
  capsGood : Nat := 0
  capsSum : Nat := 0
  capsDone : Bool := false
  /-- Capability words and COMP are kept from before deep rest (R180). -/
  capsKept : Bool := false
  seq : Nat := 0
  cmd : CmdSlot := {}
  rx : Option Uplink := none
  missRun : Nat := 0
  freshRun : Nat := 0
  /-- FRESH of the last INTAKE, and the last FRESH uplink. -/
  fresh : Bool := false
  last : Option Uplink := none
  /-- Why the cell becomes LOST at the next boundary (1, 2 or 3 of source 0x027). -/
  lostDue : Nat := 0
  /-- Why it became LOST. -/
  lostWhy : Nat := 0
  bypassSent : Bool := false
  cutSrc : Bool := false
  /-- Round-trip times of up to the last 1,024 uplinks, newest first (R164). -/
  rtts : List Nat := []
  /-- Commands that wait for the slot, oldest first. -/
  devCmds : List DevCmd := []
  /-- The downlink frame words that the last DELIVER sent: header, control segment and control CRC, with a
  withheld frame behind it (R169, R170, R464). -/
  txFrame : List Word := []
  txBulk : List Word := []
  withheld : Option (List Word) := none
  /-- Symbols put on the line from `txAt` on, in units of 12.5 ps (64 to a core cycle, 256 to a symbol), after which the fill of the state follows: the model's image of the
  transmitter (R160). -/
  txLine : List Sym := []
  txAt : Nat := 0
  /-- A firmware transfer to the endpoint is in progress (R171, R187). -/
  fwRun : Bool := false
  ringDn : Option (Nat × Nat) := none
  ringUp : Option (Nat × Nat) := none
  ringUpPos : Nat := 0
  ringDnPos : Nat := 0
  ctrlCrc : Word := 0
  ctrlCrcPrev : Word := 0
  deriving DecidableEq, Repr

/-- A skein: cluster PLL and sideband (R156, R157, R444). -/
structure Skein where
  pllLocked : Bool := false
  acquiring : Bool := false
  auxOut : Nat := 0
  modFault : Nat := 0
  scanOut : Nat := 0
  deriving DecidableEq, Repr

/-- An edge schedule as built for one tick: the level of each leg at the tick's start and the edges in units of
12.5 ps; a schedule that carried BLOCK has no level and no edge. -/
structure Sched where
  a0 : Option Bool := none
  b0 : Option Bool := none
  edgesA : List (Int × Bool) := []
  edgesB : List (Int × Bool) := []
  deriving DecidableEq, Repr

/-- Device-side state of a cell: derate (R288) and edge schedule encoder (R133 to R139). -/
structure Cell where
  derate : Nat := 0x8000
  /-- Cell temperature (upper 16 bits of Q1.31 in p.u. of 256 °C) and its history for R284, newest first, each with its tick. -/
  temp : Int := 0
  temps : List (Nat × Int) := []
  swallow : Nat := 0
  omitted : Nat := 0
  swMin : Nat := 0
  edgeMax : Nat := 0
  edgeLimit : Bool := false
  phiClamp : Bool := false
  blocked : Bool := false
  everSent : Bool := false
  /-- The schedule sent for the tick before had BLOCK set (R134). -/
  blockPrev : Bool := false
  /-- Level of each leg at the coming boundary; none while it is off, after reset or BLOCK (R129). -/
  levelA : Option Bool := none
  levelB : Option Bool := none
  lastA : Int := -16777216
  lastB : Int := -16777216
  mPrev : Int := 0
  /-- A schedule was built for the cell in this tick. -/
  built : Bool := false
  /-- The schedules built for the coming tick, for this one and for the one before, which the reconstruction of
  R295 uses. -/
  next : Sched := {}
  cur : Sched := {}
  prev : Sched := {}
  deriving DecidableEq, Repr

/-! ### Trim generators and drivers -/

/-- A trim channel: PWM generator (R142 to R149) and gate driver (R202 to R210). -/
structure Trim where
  period : Nat := 62500
  duty : Nat := 0
  owner : Bool := false
  evtEdge : Bool := false
  evtPin : Nat := 0
  zcArm : Nat := 0
  maskEvt : Nat := 0
  maskNext : Nat := 0
  tickAlign : Bool := false
  en : Bool := false
  wrReject : Bool := false
  periodCut : Bool := false
  dutyFull : Bool := false
  maskPending : Bool := false
  pendMask : Nat := 0
  pendEvt : Nat := 0
  maskAct : Nat := 0
  /-- Core-cycle count at which the running period started. -/
  start : Nat := 0
  /-- The generator's output. -/
  out : Bool := false
  staged : Option TrimSet := none
  drv : DrvSet := {}
  stagedDrv : Option DrvSet := none
  ready : Bool := false
  prechg : Bool := false
  /-- READY sets at the next boundary (R208), or pre-charge waits for a release. -/
  readyDue : Bool := false
  preWait : Bool := false
  lockout : Bool := false
  latched : Bool := false
  tripHs : Bool := false
  tripBlank : Bool := false
  bothOn : Bool := false
  stuck : Bool := false
  bstUv : Bool := true
  bootFail : Bool := false
  retrip : Nat := 0
  tripCnt : Nat := 0
  uvCnt : Nat := 0
  /-- Commands to the two switches, the gates as driven, and whether a turn-on waits (R203). -/
  cmdH : Bool := false
  cmdL : Bool := false
  gateH : Bool := false
  gateL : Bool := false
  /-- The gate-source voltage of a switch is still above VGS_TH. -/
  vgsH : Bool := false
  vgsL : Bool := false
  /-- Core cycles, plus 1, of the last turn-off command of each switch (R203); the one from which the gate that is on is
  driven (R204); the one at which pre-charge started (R208). -/
  offH : Nat := 0
  offL : Nat := 0
  onAt : Nat := 0
  preAt : Nat := 0
  /-- The last turn-on that has started before the one of onAt, and whether the fault that is latched is a trip (R204, R212). -/
  onWas : Nat := 0
  tripLatch : Bool := false
  /-- Core cycle, plus 1, at which the pending mask was staged, and the mask and event that it replaced in that cycle (R149). -/
  pendAt : Nat := 0
  pendWas : Option (Nat × Nat) := none
  /-- Pre-charge: the cycle from which a pulse may be driven, the cycle, plus 1, at which the low gate was last below VGS_TH, and
  the one, plus 1, at which the latched fault latched (R203, R204, R206, R208). -/
  preFrom : Nat := 0
  lowFell : Nat := 0
  latchAt : Nat := 0
  /-- VDRV has fallen since the driver last pre-charged (R453). -/
  vdrvOut : Bool := false
  deriving DecidableEq, Repr

/-! ### Cut path -/

/-- A cut group's target record (R189), reset to every target. -/
structure CutGroup where
  strands : List Word := List.replicate 8 0xFFFFFFFF
  trims : Word := 0xFFFFFFFF
  plyOut : Bool := true
  cutOut : Bool := true
  deriving DecidableEq, Repr

/-- How a write that lands at tick waits: the boundaries it lets pass because the seal of its tick had begun (R80, R195),
and the core cycle in which it was accepted, for the 16-cycle rule of R16. A write of the log names none: it lands at
its boundary. -/
structure Accepted where
  skip  : Nat := 0
  since : Option Nat := none
  asker : Option (Nat × Word) := none
  deriving DecidableEq, Repr

/-- The cut path (R188 to R201). -/
structure CutPath where
  matrix : Tbl Nat := []
  groups : Tbl CutGroup := []
  active : Nat := 0
  /-- Groups whose firers include a source other than CUT_IN, and other than PLY_CUT (R190, R194). -/
  notCutIn : Nat := 0
  notPlyCut : Nat := 0
  cutIn : Bool := false
  plyCutIn : Bool := false
  /-- Accepted releases that have not landed (R195). -/
  releases : List (Nat × Accepted) := []
  probeSkip : Nat := 0
  dualTrip : Bool := false
  railAFail : Bool := false
  railBFail : Bool := false
  passA : Nat := 0
  passB : Nat := 0
  /-- TRIM_OWN. DEDUCED (note 171): a device that is not a ply member owns its trims from reset (R209). -/
  trimOwn : Bool := true
  ownIn : Bool := false
  /-- Ticks since the claim with PLY_TRIM_OWN_IN high (R209). -/
  ownWait : Nat := 0
  lastClass : Nat := 0
  lastIndex : Nat := 0
  lastGroups : Nat := 0
  lastTick : Nat := 0
  /-- Groups that CUT_FIRE writes named, with the core cycle of the last of them, plus 1 (R212). -/
  fired : Nat := 0
  firedAt : Nat := 0
  deriving DecidableEq, Repr

/-! ### Ply and referee -/

/-- States of R226, in the order of their codes. -/
inductive PState where
  | init | candidate | xfer | shadow | standby | active | yielded
  deriving DecidableEq, Repr

/-- States of the ply link (R216), in the order of their codes. -/
inductive LinkState where
  | down | lock | align | up | incompat
  deriving DecidableEq, Repr

/-- The image of one tick as the standby gathers it (R219, R221, R223). -/
structure ImageRx where
  sealImg : Option SealImage := none
  tables : List (Nat × List Byte) := []
  trailer : Option TrailerImage := none
  unitCount : Nat := 0
  dropped : Bool := false
  /-- The HELLO of that tick has come, which the active sends last (R218, R219). -/
  heard : Bool := false
  deriving DecidableEq, Repr

/-- A write that a ply active takes in its guard window, or an image load that ends there, which counts as accepted in the next
tick (R80, R432). -/
structure WaitingWrite where
  op  : Nat
  req : Req
  ends : Bool := false
  deriving DecidableEq, Repr

/-- An OK that a ply active gives once the write has been sealed (R239, R432): a reply, or the final reply of an image load. -/
structure WaitingReply where
  op     : Nat
  req    : Req
  status : Nat
  words  : List Word
  final  : Bool := false
  deriving DecidableEq, Repr

/-- A ply member's state (R213 to R238). -/
structure Ply where
  role : Role := .single
  pstate : PState := .init
  sync : Bool := false
  diverge : Bool := false
  link : LinkState := .down
  linkDownTicks : Nat := 0
  /-- Units discarded for a wrong UCRC (R217). -/
  ucrcErr : Nat := 0
  hello : Option Hello := none
  /-- The member at its last boundary as a HELLO describes it, and the last HELLO sent (R218). -/
  helloAt : Option Hello := none
  helloTx : Option Hello := none
  /-- A running sequencer with other tick values than the active's keeps the member CANDIDATE until reset (R227). -/
  tickClash : Bool := false
  partnerMax : Word := 0
  grantSeen : Bool := false
  grantIgnored : Bool := false
  resyncSeen : Bool := false
  claimConflict : Bool := false
  /-- The held claim of an ACTIVE member or a single device that has claimed. -/
  held : Option Word := none
  claimLast : Word := 0
  claimMax : Word := 0
  floorMax : Word := 0
  switchCnt : Nat := 0
  imageMiss : Nat := 0
  missRun : Nat := 0
  missWindow : List Bool := []
  mismatchCnt : Nat := 0
  mismatch : Nat := 0
  mismatchRun : Nat := 0
  cleanRun : Nat := 0
  xferCnt : Nat := 0
  claimTick : Nat := 0
  xferLeft : Nat := 0
  /-- A full transfer has been requested and has not completed (RESYNC_REQ), and the request that the HELLO carries until
  its first unit comes (R229, R237). -/
  xferReq : Bool := false
  xferAsk : Bool := false
  /-- XFER_END has come with a good CRC, or XFER is due at the next boundary. -/
  shadowDue : Bool := false
  xferDue : Bool := false
  /-- The core cycle at which a grant was recognised whose claim is due. -/
  claimDue : Option Nat := none
  claimStart : Bool := false
  yieldDue : Bool := false
  joined : Bool := false
  lockstepOk : Bool := true
  eccOk : Bool := true
  spinDualOk : Bool := true
  /-- The health report being sent, and the core cycle of its boundary (R228). -/
  healthOut : List Word := []
  healthAt : Nat := 0
  /-- The image of this tick and of the tick before as they arrive; the latter has been judged, and was incomplete (R223). -/
  rx : ImageRx := {}
  rxPrev : ImageRx := {}
  /-- A seal was missed of which nothing that follows it was heard either (R223, R239). -/
  sealLost : Bool := false
  judged : Bool := false
  missTick : Bool := false
  /-- Writes of the last landed seal, due at the next boundary (R221). -/
  logDue : List LogEntry := []
  flagsDue : List SealFlags := []
  prevComplete : Bool := false
  /-- The active's write log of this tick (R219) and the units placed in the transmit buffer. -/
  log : List LogEntry := []
  /-- Units of its first entry that earlier seals carried (R219). -/
  logPart : Nat := 0
  /-- The core cycle of the tick at which the link has sent every TABLE unit placed so far (R221, R222). -/
  linkBusy : Nat := 0
  /-- Writes taken in the guard window, and OKs that wait for the seal (R432). -/
  deferred : List WaitingWrite := []
  answers : List WaitingReply := []
  txUnits : List PlyUnit := []
  /-- Intake digests of this tick and of the tick before, and the strands that were FRESH in the tick before
  (R219, R235). -/
  digests : Tbl Nat := []
  digestsPrev : Tbl Nat := []
  freshPrev : Tbl Bool := []
  /-- The active's FRESH flags as its last seal brought them (R221). -/
  freshSeal : Tbl Bool := []
  helloSent : Nat := 0
  /-- The transfer that the active sends: the pieces still to send, a further request that waits for its end, and the CRC
  register over what has been sent (R237). -/
  xferJob : Option (List XferKey) := none
  xferAgain : Bool := false
  xferCrc : Nat := 0xFFFFFFFF
  /-- XFER units and the CRC-32 of XFER_END that the active sent in this tick (R237). -/
  xferTx : List XferUnit := []
  xferEndTx : Option Word := none
  deriving DecidableEq, Repr

/-- The referee's view of one member (R231). -/
structure MemberView where
  aliveOk : Bool := false
  reportOk : Bool := false
  report : Option (List Word) := none
  candidateRun : Nat := 0
  deriving DecidableEq, Repr

/-- The referee (R231 to R233, R238). -/
structure Referee where
  run : Bool := false
  tickSteps : Nat := 1562
  grantCnt : Nat := 0
  lastGrant : Nat := 0
  noStandby : Bool := false
  holdoff : Bool := false
  viewA : MemberView := {}
  viewB : MemberView := {}
  grantsA : Nat := 0
  grantsB : Nat := 0
  resyncsA : Nat := 0
  resyncsB : Nat := 0
  deriving DecidableEq, Repr

/-! ### Fault collector -/

/-- A fault source: RAW, STATUS with the severity of its occurrence, and a written severity (R241,
R242). -/
structure FaultSrc where
  raw : Bool := false
  status : Bool := false
  occSev : Nat := 0
  sev : Option Nat := none
  detail : Word := 0
  /-- The core cycle of a clear that started its fault step returning (R245, R257). -/
  clearedAt : Option Nat := none
  /-- The core cycle of its last occurrence (R241). -/
  occAt : Option Nat := none
  deriving DecidableEq, Repr

/-- An occurrence as the hank and the first-error register record it (R248 to R250). -/
structure HankRec where
  seq : Nat := 0
  cycle : Nat := 0
  tick : Nat := 0
  sev : Nat := 0
  source : Nat := 0
  detail : Word := 0
  deriving DecidableEq, Repr

/-- The fault collector (R240 to R256). -/
structure Faults where
  srcs : Tbl FaultSrc := []
  stopTh : Nat := 4
  slots : Tbl HankRec := []
  queue : List HankRec := []
  lastSeq : Nat := 0
  /-- Entries written since reset, and those acknowledged. -/
  hankAck : Nat := 0
  hankCount : Nat := 0
  hankOvf : Nat := 0
  hankLost : Nat := 0
  discardCnt : Nat := 0
  fe : Option HankRec := none
  feLast : HankRec := {}
  /-- Held steps that a clear has started to return (R245). -/
  returning : Nat := 0
  /-- The fault steps in the device power limit, which follow FAULT_STEPS at a boundary or a step tick (R245). -/
  faultSteps : Nat := 0
  aliveStop : Bool := false
  alive : Bool := false
  /-- Core cycles, newest first, at which it changed whether some source stops FAULT_ALIVE: those of the last 16 (R246). -/
  stopFlips : List Nat := []
  /-- The core cycle in which the last discard started, 2 after its occurrence was classified (R244, R253, R257). -/
  discardAt : Option Nat := none
  sev5Pulses : Nat := 0
  deriving DecidableEq, Repr

/-! ### Safety island -/

/-- States of the island (R259), in the order of their codes. -/
inductive IState where
  | boot | noParams | run | safeStop
  deriving DecidableEq, Repr

/-- A zone's status (R278) and timers. -/
structure Zone where
  locked : Bool := true
  cause : Nat := 1
  causes : List Nat := [1]
  occupied : Bool := false
  occCycles : Nat := 0
  uvHold : Bool := false
  armed : Bool := false
  /-- Island cycles since the last arm (R275). -/
  armedCyc : Nat := 0
  req : Bool := false
  reqNext : Option Bool := none
  occPairs : Nat := 0
  demandCnt : Nat := 0
  resetCnt : Nat := 0
  slrRun : Nat := 0
  slpRun : Nat := 0
  slpGood : Nat := 0
  xchkGood : Nat := 0
  deriving DecidableEq, Repr

/-- An input pair's filter and discrepancy state (R264, R269, R275), counted in island cycles. -/
structure PairSt where
  a : Bool := true
  b : Bool := true
  aCnt : Nat := 0
  bCnt : Nat := 0
  demand : Bool := false
  normalCyc : Nat := 0
  /-- A channel has changed and the other has to follow: whether it was A, the level away from normal or back that it took, and
  the cycles since (R269). -/
  follow : Option (Bool × Bool × Nat) := none
  /-- The pair gave INPUT_DISC, and the test pulses that must still pass after an INPUT_TP (R274). -/
  discBad : Bool := false
  tpLeft : Nat := 0
  agreeCyc : Nat := 0
  highCyc : Nat := 0
  /-- Cycles since the first channel of a held pair fell. -/
  fall : Option Nat := none
  deriving DecidableEq, Repr

/-- The safety island (R258 to R278). -/
structure Island where
  state : IState := .boot
  solo : Bool := false
  soloCyc : Nat := 0
  soloGood : Nat := 0
  pending : Option (List Word) := none
  pendingCrc : Word := 0
  /-- Island cycles since the pending set was loaded (R263). -/
  pendingCyc : Nat := 0
  /-- A confirmed set, which takes effect at the next cycle (R263). -/
  accepted : Option (List Word) := none
  params : List Word := []
  zones : Tbl Zone := []
  pairs : Tbl PairSt := []
  demands : Tbl Nat := []
  demandsRead : Tbl Nat := []
  xchkCyc : Tbl Nat := []
  /-- Per channel, the sum over cells and oversamples of I_CH in each of the last ticks that span 2.0 ms,
  newest first (R261). -/
  currents : Tbl (List Int) := []
  /-- Per channel, the samples of its sense input in the last 2.0 ms, in µV, newest first (R260). -/
  sense : Tbl (List Int) := []
  /-- The channel whose converter was checked last, and per channel the reference checks that must still pass after a failure
  (R260, R274). -/
  refChan : Nat := 0
  senseLeft : Tbl Nat := []
  /-- Cycles in RUN, by which SAFE_TP is timed, and the SAFE_TP outputs as driven (R270). -/
  cyc : Nat := 0
  tp : Nat := 0
  outputs : Nat := 0
  readback : Nat := 0
  sev5Seen : Nat := 0
  /-- A severity-5 pulse that a reset of the main logic left unseen. -/
  sev5Pend : Bool := false
  supplyGood : Nat := 0
  /-- Ticks since the strand currents were updated, and whether an INTAKE of this tick brought any (R262). -/
  strandAge : Nat := 0
  updated : Bool := false
  deriving DecidableEq, Repr

/-! ### Thermal -/

/-- One die sensor (R282, R284): the last reading, its samples and the shutdown run. -/
structure Sensor where
  value : Int := 0
  samples : List Int := []
  overRun : Nat := 0
  deriving DecidableEq, Repr

/-- Thermal management (R282 to R290). Temperatures are in 1/128 °C. -/
structure Thermal where
  params : List Int := [14720, 640, 640, 13440, 640, 256, 2560]
  sensors : Tbl Sensor := []
  steps : Nat := 0
  absOver : Bool := false
  rateOver : Bool := false
  hotSensor : Nat := 0
  limit : Nat := 0x1000
  tj : Int := 0
  rateMax : Int := 0
  stepCnt : Nat := 0
  /-- The last step tick that was judged. -/
  lastStep : Option Nat := none
  shutdown : Bool := false
  deriving DecidableEq, Repr

/-! ### Metering -/

/-- One accumulator with its gain and offset (R292, R297). -/
structure Acc where
  value : Nat := 0
  frac : Nat := 0
  wrap : Nat := 0
  gain : Int := 0x40000000
  offset : Int := 0
  deriving DecidableEq, Repr

/-- One entry of the snapshot bank (R311). -/
structure SnapAcc where
  value : Nat := 0
  wrap : Nat := 0
  valid : Bool := false
  deriving DecidableEq, Repr

/-- A pulse input (R301 to R303). -/
structure PulseIn where
  en : Bool := false
  activeLow : Bool := true
  debounce : Nat := 10
  stuckLim : Nat := 60
  maxRate : Nat := 20
  level : Bool := false
  stuck : Bool := false
  stuckRaw : Bool := false
  overRate : Bool := false
  window : Nat := 0
  rateLast : Nat := 0
  /-- The core cycle of the last accepted change to the active level (R302). -/
  activeAt : Nat := 0
  deriving DecidableEq, Repr

/-- A pulse output (R304, R305). -/
structure PulseOut where
  en : Bool := false
  activeLow : Bool := true
  src : Nat := 0
  weight : Nat := 1
  width : Nat := 1
  /-- Residual in units of 2^-32 LSB of the source accumulator. -/
  residual : Nat := 0
  backlog : Nat := 0
  owing : Bool := false
  oweSat : Bool := false
  /-- 0 idle, 1 pulse active, 2 the inactive time after it, and the core cycle at which that phase began (R304). -/
  phase : Nat := 0
  phaseAt : Nat := 0
  deriving DecidableEq, Repr

/-- A meter image in FRAM (R307). -/
structure MeterImage where
  seq : Nat := 0
  tick : Nat := 0
  session : Nat := 0
  calSeq : Nat := 0
  rating : Nat := 0
  limit : Nat := 0
  interval : Nat := 60
  etaMax : Nat := 0
  accs : Tbl AccImage := []
  pulses : Tbl (Nat × Nat) := []
  totals : Tbl Nat := []
  unattr : Tbl Nat := []
  gapS : Nat := 0
  uncertWh : Nat := 0
  uncertMol : Nat := 0
  good : Bool := true
  deriving DecidableEq, Repr

/-- A close record (R308). -/
structure CloseRec where
  typ : Nat := 0
  cause : Nat := 0
  sensor : Nat := 0
  saveSeq : Nat := 0
  lastTick : Nat := 0
  totals : Tbl Nat := []
  /-- Word 15, as it stands in the record. -/
  crc : Word := 0
  deriving DecidableEq, Repr

/-- The external FRAM (R306): the ply record, CLAIM_LAST and CLAIM_MAX, the slots and the close record, and the SPI
transactions of the last access, each from NV_CS_N low to high. -/
structure Fram where
  present : Bool := true
  plyRec : Word × Word := (0, 0)
  spi : List (List Byte) := []
  slot0 : Option MeterImage := none
  slot1 : Option MeterImage := none
  close : CloseRec := {}
  deriving DecidableEq, Repr

/-- Metering (R292 to R311). -/
structure Meter where
  accs : Tbl Acc := []
  /-- LIT_TH of each channel, Q1.31. -/
  litTh : Tbl Nat := []
  lArm : Tbl Word := []
  /-- I_ARM of each arm at the last sample of the tick before, Q1.31. -/
  lastArm : Tbl Rat := []
  mvTol : Nat := 10
  truth : Tbl (Option Word) := []
  truthBad : Tbl Nat := []
  /-- Mean square of each phase's reconstructed voltage in each tick metered, V², newest first (R296). -/
  truthHist : Tbl (List Rat) := []
  saveInterval : Nat := 60
  calSeq : Nat := 0
  snapReady : Bool := false
  snap : Tbl SnapAcc := []
  snapTick : Nat := 0
  initBlank : Bool := false
  gap : Bool := false
  closeOk : Bool := false
  nvFail : Bool := false
  saveFail : Bool := false
  qrefLost : Bool := false
  truthMis : Nat := 0
  saveSeq : Nat := 0
  saveTick : Nat := 0
  session : Nat := 0
  gapS : Nat := 0
  uncertWh : Nat := 0
  uncertMol : Nat := 0
  unattr : Tbl Nat := []
  estTicks : Tbl Nat := []
  pulseIn : Tbl PulseIn := []
  pulseOut : Tbl PulseOut := []
  totals : Tbl Nat := []
  lastMeterTick : Nat := 0
  /-- The running totals and the last METER entry of the last completed tick (R308). -/
  doneTotals : Tbl Nat := []
  doneTick : Nat := 0
  /-- The tick with which the present over-rate window began (R303), and the last whose image has been latched (R307). -/
  windowTick : Option Nat := none
  imageTick : Option Nat := none
  /-- The map in force in the previous tick, by which this tick's samples are attributed (R293). -/
  mapPrev : Option (List Word) := none
  latched : Option MeterImage := none
  writing : Bool := false
  retried : Bool := false
  deriving DecidableEq, Repr

/-! ### Integrating converters -/

/-- Configuration of a converter, words 0 to 3 of R325. -/
structure AdcCfg where
  mode : Nat := 0
  intlv : Bool := false
  tmode : Nat := 0
  ncyc : Nat := 0
  tfix : Nat := 20
  input : Nat := 0
  range : Nat := 0
  rept : Nat := 1
  scanLen : Nat := 0
  scan : Nat := 0
  bufBase : Option Nat := none
  bufLog2 : Nat := 8
  refEvery : Nat := 1000
  deriving DecidableEq, Repr

/-- A conversion with the settings it runs under: kind 0 of its mode, 1 reference check, 2 settling for an urgent
request, 3 urgent, 4 for a calibration. It started at core cycle `startAt`, in a slot of an interleaved pair where `pair` is
set; `len` is its length in core cycles, fixed once its window has started (`opened`). -/
structure AdcConv where
  kind : Nat := 0
  input : Nat := 0
  range : Nat := 0
  tmode : Nat := 0
  ncyc : Nat := 0
  tfix : Nat := 0
  len : Nat := 0
  startAt : Nat := 0
  opened : Bool := false
  pair : Bool := false
  deriving DecidableEq, Repr

/-- A pending urgent request (R321): stage 0 waiting, 1 its settling conversion runs, 2 its conversion runs or has
ended. -/
structure Urgent where
  input : Nat
  range : Nat
  stage : Nat
  result : Option Word := none
  deriving DecidableEq, Repr

/-- A calibration in progress (R323), with the valid raw results of even and odd slots. -/
structure AdcCalSt where
  full : Bool
  input : Nat
  range : Nat
  vApp : Int
  raws : List Int := []
  rawsOdd : List Int := []
  deriving DecidableEq, Repr

/-- A converter (R313 to R325): its configuration, the running or last conversion, and its record. -/
structure Adc where
  cfg : AdcCfg := {}
  conv : AdcConv := {}
  busy : Bool := false
  /-- Its conversions follow one another: it has not been IDLE since the last one, nor has its pair (R318, R320). -/
  follows : Bool := false
  /-- Results still to carry SETTLING. -/
  settle : Nat := 0
  scanIdx : Nat := 0
  scanRep : Nat := 0
  refCount : Nat := 0
  urgent : Option Urgent := none
  cal : Option AdcCalSt := none
  wrIdx : Nat := 0
  refFail : Bool := false
  ovrSeen : Bool := false
  nomPeriod : Bool := false
  seq : Nat := 0
  lastTick : Nat := 0
  lastConv : Nat := 0
  newest : Word := 0
  deriving DecidableEq, Repr

/-- Coefficients of an input and range (R324). -/
structure AdcCoef where
  ofsE : Word := 0
  gainE : Word := 0x40000000
  ofsO : Word := 0
  gainO : Word := 0x40000000
  deriving DecidableEq, Repr

/-- The integrating converters. -/
structure Adcs where
  convs : Tbl Adc := []
  coefs : Tbl AdcCoef := []
  mainsNom : Bool := false
  deriving DecidableEq, Repr

/-! ### Clocks and time bases -/

/-- States of a PLL (R333), in the order of their codes. -/
inductive PllState where
  | off | acquire | locked | holdover | ret
  deriving DecidableEq, Repr

/-- A PLL (R327 to R346). `fbInt` and `fbFrac` are the configured N; the one in use adds `steer` and `slewN`. -/
structure Pll where
  state : PllState := .off
  lock : Bool := false
  refOk : Bool := false
  everLocked : Bool := false
  fbInt : Nat := 0
  fbFrac : Nat := 0
  steer : Int := 0
  buildout : Int := 0
  unlockCnt : Nat := 0
  holdoverCnt : Nat := 0
  slewing : Bool := false
  /-- The offset of N beside the steering, in 2^-32: that of the return slew, or in HOLDOVER what the frozen word holds above
  the steering of its moment; and by how much it moved at the last boundary (R331, R333, R335). -/
  slewN : Int := 0
  slewStep : Int := 0
  /-- The phase error that the return slew has still to remove, in ps times the configured N (R335). -/
  slewErr : Int := 0
  /-- The tuning word frozen on the last entry to HOLDOVER, as the offset of N (R333). -/
  frozen : Int := 0
  /-- The offsets of N of the last 256 reference periods, each with the core cycle from which it stood, newest first (R333). -/
  recent : List (Nat × Int) := []
  deriving DecidableEq, Repr

/-- States of a time base (R339). -/
inductive TbSt where
  | invalid | locked | holdover
  deriving DecidableEq, Repr

/-- What a landing did to a time base at a core cycle: its count before and after, and whether it was VALID before. -/
structure TbMark where
  at_ : Nat
  before : Nat
  after : Nat
  was : Bool
  deriving DecidableEq, Repr

/-- A time base (R338 to R346). `count` is the time in units of 2^-32 ns. -/
structure TimeBase where
  count : Nat := 0
  state : TbSt := .invalid
  everValid : Bool := false
  rate : Int := 0
  slewLeft : Int := 0
  /-- The slew portion of the present tick, in 1/256 ns. -/
  slewTick : Int := 0
  /-- Core cycles in HOLDOVER. -/
  holdCount : Nat := 0
  holdLimit : Nat := 3600
  /-- What landings did to the base in the time that a frame can last, newest first: what a stamp of a frame that began before needs
(R351, R381, R388). -/
  past : List TbMark := []
  cap : List Word := [0, 0, 0]
  snap : List Word := [0, 0, 0, 0]
  deriving DecidableEq, Repr

/-- Clocks and time bases; TB3 is computed from the tick (R344). -/
structure Clocks where
  pllA : Pll := { fbInt := 500 }
  pllB : Pll := { fbInt := 412 }
  /-- The phase of the timestamp clock, in 2^-64 of its cycle (R338). -/
  tsPhase : Nat := 0
  /-- The delay of the delay-line reference, in VCO periods (R329). -/
  dlDelay : Nat := 0
  tb0 : TimeBase := {}
  tb1 : TimeBase := {}
  tb2 : TimeBase := { holdLimit := 0 }
  tb2Omega : Int := 1073741824
  mainsPeriod : Nat := 0x98968000
  tb3Cap : List Word := [0, 0, 0]
  tb3Snap : List Word := [0, 0, 0, 0]
  deriving DecidableEq, Repr

/-! ### Ethernet -/

/-- A frame in a launch queue (R357): launch base (0 none, 1 TB0, 2 TB1), time in 2^-16 ns, and its bytes. -/
structure LaunchFrame where
  base : Nat
  time : Nat
  bytes : List Byte
  deriving DecidableEq, Repr

/-- An entry of a transmit timestamp queue (R356). -/
structure TsEntry where
  seqId : BitVec 16
  msgType : Nat
  tb : Nat
  domain : BitVec 8
  count : Nat
  deriving DecidableEq, Repr

/-- A frame of the second queue of a port (R358): one of the device's own, or one forwarded; of a forwarded event message the core
cycle at which its ingress started and what is added to its correctionField besides the residence (R359); of a Pdelay_Resp the
ingress time of its request (R360). -/
structure SecondFrame where
  own : Bool
  bytes : List Byte
  ingress : Option Nat := none
  add : Int := 0
  turn : Option Int := none
  deriving DecidableEq, Repr

/-- A Pdelay_Req of a port whose answer is awaited: its domain's time base, sequenceId and transmit time, and of a two-step answer the
part of the delay that is known (R353, R359). -/
structure PdState where
  base : Nat
  seqId : BitVec 16
  sent : Option Int := none
  part : Option Int := none
  deriving DecidableEq, Repr

/-- A master that has announced itself in a domain (R354): the rank that the best master clock algorithm gives it, and the core
cycles of its last two Announces. -/
structure Foreign where
  source : Nat
  port : Nat
  rank : Nat
  last : Nat
  before : Option Nat := none
  interval : Nat
  deriving DecidableEq, Repr

/-- The firmware's servo of a time base (R354): the masters of its domain, the two-step Sync that waits for its Follow_Up with its
ingress time less its correction, the last transmission time of a Sync, the mean path delay, and the Delay_Req in progress with its
transmit time. Times are in units of 2^-32 ns. -/
structure Servo where
  masters : List Foreign := []
  sync : Option (BitVec 16 × Int) := none
  diff : Option Int := none
  delay : Int := 0
  reqSeq : BitVec 16 := 0
  req : Option (BitVec 16 × Option Int) := none
  /-- The last Sync accepted: its core cycle, its offset in 2^-32 ns and what the servo left in SLEW_LEFT, in 1/256 ns (R354). -/
  last : Option (Nat × Int × Int) := none
  deriving DecidableEq, Repr

/-- An Ethernet port (R348 to R361). -/
structure EthPort where
  mode : Nat := 0
  anEn : Bool := true
  eeeEn : Bool := false
  tcEn : Bool := false
  tcP2p : Bool := false
  lpiIdle : Nat := 0x64
  twTx : Nat := 0
  linkUp : Bool := false
  lpiTx : Bool := false
  lpiRx : Bool := false
  anDone : Bool := false
  linkDownCnt : Nat := 0
  txLatAdj : Nat := 0
  rxLatAdj : Nat := 0
  linkDelay : Word := 0
  launchMiss : Nat := 0
  launchDrop : Nat := 0
  ptpTag : Bool := false
  ptpPcp : Nat := 7
  ptpVid : Nat := 0
  pauseCnt : Nat := 0
  /-- The core cycle at which a transmitter that leaves LPI is awake, and the one from which it has had nothing to send (R350). -/
  wakeAt : Nat := 0
  idleAt : Nat := 0
  /-- The ingress timestamp of the last event message received, in 2^-32 ns (R351). -/
  rxStamp : Int := 0
  pd : Option PdState := none
  queue : List LaunchFrame := []
  second : List SecondFrame := []
  ts : List TsEntry := []
  tsOvf : Bool := false
  tsDrop : Nat := 0
  tsLock : Bool := false
  /-- Frames held by a reorder injection (R463). -/
  heldTx : Option (List Byte) := none
  heldRx : Option (EthFrame ⊕ CoordFrame) := none
  /-- Frames put on the line since reset: the model's own image of the transmitter; and those of them that an injection spoilt, by
  their place, the action and N (R463). -/
  sent : List (List Byte) := []
  spoilt : List (Nat × Nat × Nat) := []
  /-- The window in which the receiver counts invalid blocks, from a core cycle, and its count (R348, R465). -/
  berAt : Nat := 0
  berCnt : Nat := 0
  deriving DecidableEq, Repr

/-- A coordination reply waiting for its time in core cycles (R366), with its destination. -/
structure CoordOut where
  typ : Nat
  body : List Word
  dst : Nat
  mac : BitVec 48
  time : Nat
  port : Nat
  deriving DecidableEq, Repr

/-- An accepted ARM or ABORT on its way to the commit logic: its words, source address and port (R364). -/
structure CoordWait where
  words : List Word
  mac : BitVec 48
  port : Nat
  deriving DecidableEq, Repr

/-- Ports, PTP and coordination (R348 to R368). -/
structure Eth where
  ports : Tbl EthPort := []
  dom0 : Nat := 0
  dom1 : Nat := 1
  host0 : Bool := false
  host1 : Bool := false
  goodSyncs : Tbl Nat := []
  servos : Tbl Servo := []
  /-- Messages passed to the host's receive ring, and the bytes written there since reset (R354). -/
  hostRing : List (List Byte) := []
  ringPos : Nat := 0
  /-- The core cycle at which forwarding last changed, and whether it was on before (R368). -/
  chainAt : Nat := 0
  chainWas : Bool := false
  lastSeqOf : Tbl (Option Nat) := []
  lastMac : Option (BitVec 48) := none
  /-- The port of the last coordination frame accepted. -/
  lastPort : Nat := 0
  /-- Its sender; every device before one has come. -/
  lastSrc : Nat := 0xFFFF
  coordDrop : Nat := 0
  coordSeq : Nat := 0
  reports : List CoordOut := []
  discardReport : Bool := false
  /-- ARM and ABORT frames that the commit logic has not judged (R364). -/
  coordWait : List CoordWait := []
  /-- APPLY and DISCARD reports owed, with the core cycle from which they leave once a boundary has fixed it (R366). -/
  owed : List (ReportCause × Option Nat) := []
  /-- The tick of the last PERIODIC report (R366). -/
  periodic : Option Nat := none
  teleMask : Word := 0
  telePeriod : Nat := 0
  /-- The core cycle from which the next TELEMETRY frame leaves (R367). -/
  teleDue : Nat := 0
  deriving DecidableEq, Repr

/-! ### CAN -/

/-- A receive or transmit element: identifier word, control word, stamp and data words (R373). -/
structure CanElem where
  id : Word := 0
  ctl : Word := 0
  stamp : Word := 0
  data : List Word := []
  deriving DecidableEq, Repr

/-- A dedicated receive buffer (R378, R379). -/
structure CanBuf where
  elem : CanElem := {}
  newData : Bool := false
  overwritten : Bool := false
  holder : Option Nat := none
  shadow : Option CanElem := none
  deriving DecidableEq, Repr

/-- A receive FIFO (R380). -/
structure CanFifo where
  elems : Tbl CanElem := []
  put : Nat := 0
  get : Nat := 0
  fill : Nat := 0
  dropCnt : Nat := 0
  wmark : Nat := 0
  deriving DecidableEq, Repr

/-- A CAN FD controller (R369 to R387). -/
structure Can where
  config : Bool := true
  listen : Bool := false
  fdEn : Bool := false
  fastEn : Bool := false
  dcEn : Bool := false
  retryLim : Nat := 0
  stampShift : Nat := 10
  stampBase : Nat := 0
  cfgWrIgn : Bool := false
  arbTiming : Word := 0x26122418
  dataTiming : Word := 0x04910009
  dlyComp : Word := 0
  ruleCfg : Word := 0x0000002B
  tec : Nat := 0
  rec_ : Nat := 0
  boffCnt : Nat := 0
  act : Nat := 0
  boff : Bool := false
  passive : Bool := false
  warn : Bool := false
  alone : Bool := false
  lastErr : Nat := 0
  lastDerr : Nat := 0
  headTries : Nat := 0
  recov : Nat := 0
  dcMeas : Nat := 0
  ackRun : Nat := 0
  events : Nat := 0
  eventEn : Nat := 0
  bufs : Tbl CanBuf := []
  rx0 : CanFifo := {}
  rx1 : CanFifo := {}
  txElems : Tbl CanElem := []
  txPut : Nat := 0
  txHead : Nat := 0
  txFill : Nat := 0
  /-- The head's frame is on the bus (R388). -/
  onBus : Bool := false
  /-- Its retries are barred by a discard or flush (R388). -/
  noRetry : Bool := false
  /-- The injector corrupts the frame on the bus (R463). -/
  corrupt : Bool := false
  /-- The frame of the last attempt, as the controller sends it (R370, R374). -/
  sent : Option CanFrame := none
  /-- The core cycle at which CONFIG stopped the controller with no frame of its own on the bus (R377). -/
  stopAt : Option Nat := none
  /-- STAMP_BASE and STAMP_SHIFT as they stood before the core cycles of their changes, newest first (R381). -/
  stampWas : List (Nat × Nat × Nat) := []
  txFullErr : Bool := false
  abandonCnt : Nat := 0
  discDrop : Nat := 0
  txStamp : Word := 0
  /-- Rule words: standard rules from 0, extended rules from 384 (R372). -/
  rules : Tbl Word := []
  deriving DecidableEq, Repr

/-! ### Power, boot, start sequence -/

/-- The settings of CLKOUT_0 or CLKOUT_1: a divider from `lo` to 1,024, a delay of 0 to 1,023 VCO periods, and the enable
(R329, R330). -/
structure ClkOut (lo : Nat) where
  step : Fin (1025 - lo)
  delay : Fin 1024 := 0
  en : Bool := false
  deriving DecidableEq, Repr

/-- The divider. -/
def ClkOut.div {lo : Nat} (c : ClkOut lo) : Nat := lo + c.step.val

/-- The signed configuration (R443) as the flash holds it. -/
structure SignedCfg where
  binding : List (Nat × Word × Word) :=
    [(0, 0x80000120, 0x0000FFFF), (1, 0x80000120, 0x0000FFFF)]
  wrEn : List Nat := [0x3F, 0x3F, 0x3F]
  refHz : Nat := 25000000
  campusId : Word := 0
  devId : Nat := 0
  peerId : Nat := 0
  coordVid : Nat := 0
  coordPcp : Nat := 0
  coordKey : BitVec 128 := 0
  wdogReset : Bool := false
  /-- CLKOUT_0 and CLKOUT_1, with their default dividers of 500 and 66 (R329, R330). -/
  clkout0 : ClkOut 50 := { step := 450 }
  clkout1 : ClkOut 42 := { step := 24 }
  preLevel : Int := 1717986918
  preTimeout : Nat := 10000
  fbTime : Nat := 200
  syncTimeout : Nat := 2000
  deriving DecidableEq, Repr

/-- A firmware slot of the boot flash (R441): its version and whether its signature holds. -/
structure FwSlot where
  version : Word := 0
  good : Bool := false
  deriving DecidableEq, Repr

/-- The boot flash (R441). -/
structure Flash where
  activeSlot : Nat := 0
  slot0 : FwSlot := { version := 0x00010000, good := true }
  slot1 : FwSlot := {}
  activeCfg : Nat := 0
  cfg0 : Option SignedCfg := some {}
  cfg1 : Option SignedCfg := none
  minVersion : Nat := 0
  keyFuse : Bool := true
  staged : Bool := false
  deriving DecidableEq, Repr

/-- Causes of RESET_CAUSE (R450), as a pending cause until release. -/
inductive ResetCause where
  | porAon | resetPin | swReset | collapse | wdog
  deriving DecidableEq, Repr

/-- Start states (R446). -/
inductive StartState where
  | wait | precharge | closing | sync | run | tripped
  deriving DecidableEq, Repr

/-- Power, reset, boot and start sequence (R435 to R453). -/
structure Power where
  /-- The main logic is held in reset. -/
  held : Bool := false
  /-- The hold of a collapse or of a thermal shutdown (R289, R308). -/
  collapseHold : Bool := false
  cause : ResetCause := .porAon
  memRetained : Bool := false
  fwSlot : Nat := 0
  slotFallback : Bool := false
  vsda : Bool := true
  vsdb : Bool := true
  /-- Required domains that are out of range (R435, R440). -/
  out : List Domain := []
  recoveryLow : Bool := false
  closeWriting : Option CloseRec := none
  start : StartState := .wait
  tripReason : Nat := 0
  /-- The core cycle at which the present start state was entered; before release of reset where it was mirrored. -/
  stateStart : Int := 0
  preCmd : Bool := false
  mainCmd : Bool := false
  preCmdTime : Nat := 0
  mainCmdTime : Nat := 0
  /-- Core cycle of the boundary at which PRE_FB was first sampled high since PRE_CMD went high (R446). -/
  preRose : Option Nat := none
  /-- Core cycle of the boundary since which PRE_FB, and MAIN_FB, has been sampled other than its command (R446). -/
  preDiff : Option Nat := none
  mainDiff : Option Nat := none
  /-- Core cycle at which the firmware watchdog source occurred last (R243, R439). -/
  wdogAt : Option Nat := none
  /-- Reasons, as a mask, whose time has run out since the firmware last ran the sequence. -/
  tripDue : Nat := 0
  gpio : BitVec 16 := 0
  /-- Per strand: the tick averages of VDC over the last 100 ms in PRECHARGE (R446). -/
  vdcHist : Tbl (List Int) := []
  delayGood : Bool := true
  delayFails : Nat := 0
  deriving DecidableEq, Repr

/-! ### Test, capture and telemetry -/

/-- A lane's test mode and record (R457, R461). -/
structure LaneTest where
  mode : Nat := 0
  prbsLock : Bool := false
  lockLost : Bool := false
  errCnt : Nat := 0
  /-- Core cycles for which the checker has been locked before the present lock, and when that began. -/
  lockedFor : Nat := 0
  since : Nat := 0
  deriving DecidableEq, Repr

/-- An injection on a lane and direction (R462). -/
structure Injection where
  action : Nat := 0
  n : Nat := 0
  rate : Nat := 0
  units : Nat := 0
  done : Nat := 0
  /-- The core cycle at which it landed. -/
  since : Nat := 0
  /-- The next unit is the partner of a pair that a reorder has struck (R463, R464). -/
  paired : Bool := false
  deriving DecidableEq, Repr

/-- A stop of an injection that has not landed: its request, the key it names and the LAND_TICK of its reply (R462). -/
structure StopWait where
  req : Req
  key : Nat
  tick : Word
  deriving DecidableEq, Repr

/-- Test, capture pool and telemetry (R454 to R463, R395). -/
structure TestSt where
  commissioning : Bool := false
  /-- TEST_MODE has landed with its bit clear; the mode ends at the next boundary (R456). -/
  ending : Bool := false
  /-- Lane records keyed class × 256 + lane. -/
  lanes : Tbl LaneTest := []
  /-- Injections keyed (class × 256 + lane) × 2 + direction. -/
  injections : Tbl Injection := []
  /-- Stops whose reply waits for their landing, with the count of what they end (R462). -/
  stops : List StopWait := []
  postCut : Nat := 0
  capMask : Nat := 0
  capPos : Nat := 0
  capLeft : Option Nat := none
  deriving DecidableEq, Repr

/-! ### Writes that land at a boundary -/

/-! ### The state -/

/-- The device. -/
structure Dev where
  part : Part := .t9256
  /-- Core cycles of 0.8 ns since release of reset: the model's clock. -/
  now : Nat := 0
  /-- Counter of free values taken: the model's own field, no field of the spec. -/
  fresh : Nat := 0
  host : HostIf := {}
  tk : TickSt := {}
  /-- Writes that land at tick, in order of acceptance. -/
  landing : List (Landing × Accepted) := []
  spin : Spindle := {}
  recipes : Recipes := {}
  secs : Tbl Section := []
  mapForce : Option (List Word) := none
  mapStaged : Option (List Word) := none
  strands : Tbl Strand := []
  skeins : Tbl Skein := []
  cells : Tbl Cell := []
  trims : Tbl Trim := []
  cut : CutPath := {}
  ply : Ply := {}
  ref : Referee := {}
  flt : Faults := {}
  isl : Island := {}
  therm : Thermal := {}
  meter : Meter := {}
  fram : Fram := {}
  adcs : Adcs := {}
  clk : Clocks := {}
  eth : Eth := {}
  cans : Tbl Can := []
  pwr : Power := {}
  flash : Flash := {}
  cfg : SignedCfg := {}
  test : TestSt := {}
  /-- The weft region, 8 MiB (R40). -/
  weft : Mem := []
  /-- The BAR2 window (R395). -/
  bar2 : Mem := []
  deriving DecidableEq, Repr

/-- The state of the block: the device and the commands waiting, first in, first out. -/
structure State where
  dev : Dev := {}
  pending : List Instr := []
  deriving DecidableEq, Repr

/-- Faults of the model. No meaning raises one: every command of the table has an effect in the spec,
and what the device calls a fault is an occurrence in `Faults`. -/
inductive Fault where
  /-- Raised by no meaning; safe, since nothing goes on after it. -/
  | unreachable
  deriving DecidableEq, Repr

/-- Refusals of the model. -/
inductive Refusal where
  /-- Raised by an arm of `exec` whose command has no meaning yet; safe, since nothing goes on. -/
  | notModelled (mnemonic : String)
  deriving DecidableEq, Repr

/-- The block right after reset: VAON and VSAFE have just come up, the main logic has just been
released on a single device, the boot ROM has not started the firmware, and nothing waits. -/
def State.reset : State := {}

end Sys2Proof.Machine
end

