-- ==== Sys2Proof/Machine/Bits.lean ====
section
/-!
DEFINITION. Bit fields, fixed-point and saturating arithmetic (R6, R7), the CRC-32 of R168, and the
named operations over tables and byte memories (R9).
-/

namespace Sys2Proof.Machine

/-! ### Words and fields -/

/-- The byte of a number's low 8 bits. -/
def byte (n : Nat) : Byte := BitVec.ofNat 8 n

/-- The 32-bit word of a number. -/
def word (n : Nat) : Word := BitVec.ofNat 32 n

/-- The 32-bit word of a signed number. -/
def sword (i : Int) : Word := BitVec.ofInt 32 i

/-- Field [hi:lo] of a number. -/
def nbits (n hi lo : Nat) : Nat := n / 2 ^ lo % 2 ^ (hi + 1 - lo)

/-- Field [hi:lo] of a word (R6). -/
def bits (w : Word) (hi lo : Nat) : Nat := nbits w.toNat hi lo

/-- Bit i of a word. -/
def bit (w : Word) (i : Nat) : Bool := w.getLsbD i

/-- Bit i of a number. -/
def nbit (n i : Nat) : Bool := n.testBit i

/-- 1 for true and 0 for false. -/
def b1 (b : Bool) : Nat := if b then 1 else 0

/-- A word put together from (lowest bit, value) fields. -/
def pack (fs : List (Nat × Nat)) : Word := word (fs.foldl (fun n f => n + f.2 * 2 ^ f.1) 0)

/-- `w` with field [hi:lo] replaced by the low bits of `v`. -/
def putBits (w : Word) (hi lo v : Nat) : Word :=
  word (w.toNat - bits w hi lo * 2 ^ lo + v % 2 ^ (hi + 1 - lo) * 2 ^ lo)

/-- The two's-complement value of the low n bits of v. -/
def signed (n v : Nat) : Int :=
  let m := v % 2 ^ n
  if m < 2 ^ (n - 1) then (m : Int) else (m : Int) - (2 ^ n : Nat)

/-- The two's-complement value of a word. -/
def sval (w : Word) : Int := w.toInt

/-- The low n bits of a signed number. -/
def lowBits (n : Nat) (i : Int) : Nat := (i % (2 ^ n : Nat)).toNat

/-- Word i of a list of words, zero beyond its end. -/
def wat (l : List Word) (i : Nat) : Word := l.getD i 0

/-- A list with element i replaced. -/
def lset {α : Type} (l : List α) (i : Nat) (v : α) : List α := l.set i v

/-- A list cut or padded with `z` to n elements. -/
def fit {α : Type} (n : Nat) (z : α) (l : List α) : List α :=
  (l ++ List.replicate n z).take n

/-- A 48-bit number from two words, the low word first (R9). -/
def join48 (lo hi : Word) : Nat := lo.toNat + bits hi 15 0 * 2 ^ 32

/-- A counter of n bits that saturates. -/
def satInc (n c : Nat) : Nat := min (c + 1) (2 ^ n - 1)

/-- A counter of n bits that adds v and saturates. -/
def satAdd (n c v : Nat) : Nat := min (c + v) (2 ^ n - 1)

/-- A mask of the numbers below n for which p holds. -/
def maskOf (n : Nat) (p : Nat → Bool) : Nat :=
  (List.range n).foldl (fun m i => if p i then m + 2 ^ i else m) 0

/-- Numbers below n whose bit is set in a mask, rising. -/
def maskBits (n m : Nat) : List Nat := (List.range n).filter (fun i => nbit m i)

/-! ### Signed arithmetic -/

/-- v held within [lo, hi]. -/
def clampI (lo hi v : Int) : Int := if v < lo then lo else if hi < v then hi else v

/-- v saturated to n bits, two's complement. -/
def satI (n : Nat) (v : Int) : Int := clampI (-(2 ^ (n - 1) : Nat)) ((2 ^ (n - 1) : Nat) - 1) v

/-- Division by 2^k with rounding to nearest, ties away from zero. -/
def roundShift (k : Nat) (v : Int) : Int :=
  let h : Int := if k = 0 then 0 else (2 ^ (k - 1) : Nat)
  if 0 ≤ v then (v + h) / (2 ^ k : Nat) else -((-v + h) / (2 ^ k : Nat))

/-- Division with rounding to nearest, ties away from zero; 0 when the divisor is 0. -/
def roundDiv (n d : Int) : Int :=
  if d = 0 then 0 else
    let n' := if d < 0 then -n else n
    let d' := if d < 0 then -d else d
    if 0 ≤ n' then (2 * n' + d') / (2 * d') else -((2 * (-n') + d') / (2 * d'))

/-- The integer square root by bisection on n bits. -/
def isqrtGo : Nat → Nat → Nat → Nat
  | 0, _, acc => acc
  | k + 1, n, acc => if (acc + 2 ^ k) * (acc + 2 ^ k) ≤ n then isqrtGo k n (acc + 2 ^ k) else isqrtGo k n acc

/-- The integer square root of a number below 2^160. -/
def isqrt (n : Nat) : Nat := isqrtGo 80 n 0

/-- A rational as a whole number: itself where it is whole, else one of its two neighbours, which one being
the free value `e` (note 22). -/
def roundTo (x : Rat) (e : Nat) : Int := if x.den = 1 then x.num else x.floor + ((e % 2 : Nat) : Int)

/-! ### CRC -/

/-- One bit of the reflected CRC-32 with polynomial 0x04C11DB7 (R168). -/
def crcBit (c : Nat) : Nat := if c % 2 = 1 then (c / 2) ^^^ 0xEDB88320 else c / 2

/-- One byte of the CRC. -/
def crcByte (c : Nat) (b : Byte) : Nat :=
  (List.range 8).foldl (fun x _ => crcBit x) (c ^^^ b.toNat)

/-- The CRC-32 of a list of bytes (R168). -/
def crc32 (bs : List Byte) : Word := word ((bs.foldl crcByte 0xFFFFFFFF) ^^^ 0xFFFFFFFF)

/-- The four bytes of a word, least significant first (R9). -/
def wordBytes (w : Word) : List Byte :=
  [w.extractLsb' 0 8, w.extractLsb' 8 8, w.extractLsb' 16 8, w.extractLsb' 24 8]

/-- The bytes of a list of words. -/
def wordsBytes (ws : List Word) : List Byte := ws.flatMap wordBytes

/-- The word of four bytes, least significant first. -/
def bytesWord (b0 b1 b2 b3 : Byte) : Word := b3 ++ b2 ++ b1 ++ b0

/-- The words of a list of bytes; a rest shorter than a word is padded with zeros. -/
def bytesWords : List Byte → List Word
  | b0 :: b1 :: b2 :: b3 :: r => bytesWord b0 b1 b2 b3 :: bytesWords r
  | [] => []
  | [a] => [bytesWord a 0 0 0]
  | [a, b] => [bytesWord a b 0 0]
  | [a, b, c] => [bytesWord a b c 0]

/-! ### Tables -/

/-- The entry of a key: the listed one, or the default. -/
def tblGet {α : Type} (dflt : α) : Tbl α → Nat → α
  | [], _ => dflt
  | (k', v) :: t, k => if k' = k then v else tblGet dflt t k

/-- The table with key k set to v: keys stay rising, and an entry equal to the default is not listed. -/
def tblSet {α : Type} [DecidableEq α] (dflt : α) : Tbl α → Nat → α → Tbl α
  | [], k, v => if v = dflt then [] else [(k, v)]
  | (k', v') :: t, k, v =>
    if k < k' then (if v = dflt then (k', v') :: t else (k, v) :: (k', v') :: t)
    else if k = k' then (if v = dflt then t else (k, v) :: t)
    else (k', v') :: tblSet dflt t k v

/-- The table with key k's entry changed by f. -/
def tblMod {α : Type} [DecidableEq α] (dflt : α) (t : Tbl α) (k : Nat) (f : α → α) : Tbl α :=
  tblSet dflt t k (f (tblGet dflt t k))

/-- Keys rise and no entry is the default. -/
def tblWfGo {α : Type} [DecidableEq α] (dflt : α) : Nat → Tbl α → Bool
  | _, [] => true
  | lo, (k, v) :: t => decide (lo ≤ k) && !decide (v = dflt) && tblWfGo dflt (k + 1) t

/-- The canonical form of a table. -/
def tblWf {α : Type} [DecidableEq α] (dflt : α) (t : Tbl α) : Bool := tblWfGo dflt 0 t

/-! ### Byte memories -/

/-- The canonical form of a byte memory: the table form with default 0. -/
def Memory.wf (m : Mem) : Bool := tblWf (0 : Byte) m

/-- One byte of a memory; an unlisted byte reads 0 (note 6). -/
def memByte (m : Mem) (a : Nat) : Byte := tblGet (0 : Byte) m a

/-- The memory with one byte written. -/
def memPut (m : Mem) (a : Nat) (b : Byte) : Mem := tblSet (0 : Byte) m a b

/-- n bytes from an address. -/
def memBytes (m : Mem) (a n : Nat) : List Byte := (List.range n).map (fun i => memByte m (a + i))

/-- Bytes written from an address upwards. -/
def memPutBytes (m : Mem) (a : Nat) : List Byte → Mem
  | [] => m
  | b :: bs => memPutBytes (memPut m a b) (a + 1) bs

/-- The word at a byte address, little-endian (R9). -/
def memWord (m : Mem) (a : Nat) : Word :=
  bytesWord (memByte m a) (memByte m (a + 1)) (memByte m (a + 2)) (memByte m (a + 3))

/-- A word written at a byte address. -/
def memPutWord (m : Mem) (a : Nat) (w : Word) : Mem := memPutBytes m a (wordBytes w)

/-- n words from a byte address. -/
def memWords (m : Mem) (a n : Nat) : List Word := (List.range n).map (fun i => memWord m (a + 4 * i))

/-- Words written from a byte address upwards. -/
def memPutWords (m : Mem) (a : Nat) : List Word → Mem
  | [] => m
  | w :: ws => memPutWords (memPutWord m a w) (a + 4) ws

/-- The signed word at a byte address. -/
def memInt (m : Mem) (a : Nat) : Int := sval (memWord m a)

end Sys2Proof.Machine
end

