-- ==== Sys2Proof/Machine/Ops.lean ====
section
/-!
DEFINITION. The named operations over the device: access to its numbered parts, core-cycle time,
writes that land at tick (R16), interrupt causes (R408), the cut (R188 to R201), fault occurrences and
their reactions (R240 to R257) and the discard of work in flight (R253, R403, R416).
-/

namespace Sys2Proof.Machine

/-! ### Meanings over the device -/

/-- A command whose effect is a function of the device; the queue is left alone. -/
def onDev (f : Dev → Dev) (s : State) : Host.Outcome State Fault Refusal :=
  .next { s with dev := f s.dev }

/-- A command of the main logic: while the main logic is held in reset it has no effect (R436). -/
def onMain (f : Dev → Dev) (s : State) : Host.Outcome State Fault Refusal :=
  onDev (fun d => if d.pwr.held then d else f d) s

/-! ### Numbered parts -/

/-- Strand k. -/
def Dev.strandOf (d : Dev) (k : Nat) : Strand := tblGet {} d.strands k
/-- Strand k changed by f. -/
def Dev.modStrand (d : Dev) (k : Nat) (f : Strand → Strand) : Dev := { d with strands := tblMod {} d.strands k f }
/-- Skein s. -/
def Dev.skeinOf (d : Dev) (s : Nat) : Skein := tblGet {} d.skeins s
/-- Skein s changed by f. -/
def Dev.modSkein (d : Dev) (s : Nat) (f : Skein → Skein) : Dev := { d with skeins := tblMod {} d.skeins s f }
/-- Cell k. -/
def Dev.cellOf (d : Dev) (k : Nat) : Cell := tblGet {} d.cells k
/-- Cell k changed by f. -/
def Dev.modCell (d : Dev) (k : Nat) (f : Cell → Cell) : Dev := { d with cells := tblMod {} d.cells k f }
/-- Trim channel n. -/
def Dev.trimOf (d : Dev) (n : Nat) : Trim := tblGet {} d.trims n
/-- Trim channel n changed by f. -/
def Dev.modTrim (d : Dev) (n : Nat) (f : Trim → Trim) : Dev := { d with trims := tblMod {} d.trims n f }
/-- Section s. -/
def Dev.secOf (d : Dev) (s : Nat) : Section := tblGet {} d.secs s
/-- Section s changed by f. -/
def Dev.modSec (d : Dev) (s : Nat) (f : Section → Section) : Dev := { d with secs := tblMod {} d.secs s f }
/-- Spectral channel n. -/
def Dev.chanOf (d : Dev) (n : Nat) : Channel := tblGet {} d.recipes.chans n
/-- Spectral channel n changed by f. -/
def Dev.modChan (d : Dev) (n : Nat) (f : Channel → Channel) : Dev :=
  { d with recipes := { d.recipes with chans := tblMod {} d.recipes.chans n f } }
/-- Spindle instance i. -/
def Dev.instOf (d : Dev) (i : Nat) : Inst := tblGet {} d.spin.insts i
/-- Spindle instance i changed by f. -/
def Dev.modInst (d : Dev) (i : Nat) (f : Inst → Inst) : Dev :=
  { d with spin := { d.spin with insts := tblMod {} d.spin.insts i f } }
/-- Mailbox channel ch. -/
def Dev.boxOf (d : Dev) (ch : Nat) : Chan := tblGet {} d.host.chans ch
/-- Mailbox channel ch changed by f. -/
def Dev.modBox (d : Dev) (ch : Nat) (f : Chan → Chan) : Dev :=
  { d with host := { d.host with chans := tblMod {} d.host.chans ch f } }
/-- The banked interrupt words of an identity. -/
def Dev.intOf (d : Dev) (id : Nat) : IntBank := tblGet {} d.host.ints id
/-- The banked words of an identity changed by f. -/
def Dev.modInt (d : Dev) (id : Nat) (f : IntBank → IntBank) : Dev :=
  { d with host := { d.host with ints := tblMod {} d.host.ints id f } }
/-- PCIe function f. -/
def Dev.fnOf (d : Dev) (f : Nat) : PcieFn := tblGet {} d.host.pcie f
/-- PCIe function n changed by f. -/
def Dev.modFn (d : Dev) (n : Nat) (f : PcieFn → PcieFn) : Dev :=
  { d with host := { d.host with pcie := tblMod {} d.host.pcie n f } }
/-- Fault source n. -/
def Dev.srcOf (d : Dev) (n : Nat) : FaultSrc := tblGet {} d.flt.srcs n
/-- Fault source n changed by f. -/
def Dev.modSrc (d : Dev) (n : Nat) (f : FaultSrc → FaultSrc) : Dev :=
  { d with flt := { d.flt with srcs := tblMod {} d.flt.srcs n f } }
/-- Cut group g. -/
def Dev.groupOf (d : Dev) (g : Nat) : CutGroup := tblGet {} d.cut.groups g
/-- CAN controller c. -/
def Dev.canOf (d : Dev) (c : Nat) : Can := tblGet {} d.cans c
/-- CAN controller c changed by f. -/
def Dev.modCan (d : Dev) (c : Nat) (f : Can → Can) : Dev := { d with cans := tblMod {} d.cans c f }
/-- Ethernet port p. -/
def Dev.portOf (d : Dev) (p : Nat) : EthPort := tblGet {} d.eth.ports p
/-- Ethernet port p changed by f. -/
def Dev.modPort (d : Dev) (p : Nat) (f : EthPort → EthPort) : Dev :=
  { d with eth := { d.eth with ports := tblMod {} d.eth.ports p f } }
/-- Converter c. -/
def Dev.adcOf (d : Dev) (c : Nat) : Adc := tblGet {} d.adcs.convs c
/-- Converter c changed by f. -/
def Dev.modAdc (d : Dev) (c : Nat) (f : Adc → Adc) : Dev :=
  { d with adcs := { d.adcs with convs := tblMod {} d.adcs.convs c f } }
/-- Accumulator q. -/
def Dev.accOf (d : Dev) (q : Nat) : Acc := tblGet {} d.meter.accs q
/-- Accumulator q changed by f. -/
def Dev.modAcc (d : Dev) (q : Nat) (f : Acc → Acc) : Dev :=
  { d with meter := { d.meter with accs := tblMod {} d.meter.accs q f } }
/-- Zone z. -/
def Dev.zoneOf (d : Dev) (z : Nat) : Zone := tblGet {} d.isl.zones z
/-- Zone z changed by f. -/
def Dev.modZone (d : Dev) (z : Nat) (f : Zone → Zone) : Dev :=
  { d with isl := { d.isl with zones := tblMod {} d.isl.zones z f } }

/-- Strands of the part (R1). -/
def Dev.strandCount (d : Dev) : Nat := match d.part with | .t9256 => 256 | .t9128 => 128

/-- Skeins of the part (R1). -/
def Dev.skeinCount (d : Dev) : Nat := d.strandCount / 16

/-- Ethernet ports of the part (R1). -/
def Dev.portCount (d : Dev) : Nat := match d.part with | .t9256 => 2 | .t9128 => 1

/-- f applied for each number of a list, in order. -/
def forEach (l : List Nat) (f : Nat → Dev → Dev) (d : Dev) : Dev := l.foldl (fun d i => f i d) d

/-! ### Time -/

/-- Core cycles of one tick (R32). -/
def Dev.tickCycles (d : Dev) : Nat := 4 + 8 * d.tk.tickSteps

/-- Core cycle within the tick, or within the counted period before the first boundary (R486). -/
def Dev.cyc (d : Dev) : Nat := d.now - d.tk.tickStart

/-- The device is in the guard window of the present tick (R38, R39). -/
def Dev.inGuard (d : Dev) : Bool :=
  d.tk.seqRun && (d.tk.guardDone || decide (d.tickCycles ≤ d.cyc + d.tk.guardLen))

/-- Less than 16 core cycles are left before the boundary (R16). -/
def Dev.late16 (d : Dev) : Bool := decide (d.tickCycles < d.cyc + 16)

/-- The device is the active of a ply, so that its writes wait for the mirror seal (R80, R432). -/
def Dev.sealsWrites (d : Dev) : Bool :=
  (d.ply.role == .memberA || d.ply.role == .memberB) && d.ply.pstate == .active

/-- The device's main logic takes the first action of a safety limit: in a ply, the active's only (R277). -/
def Dev.firstActs (d : Dev) : Bool := !(d.ply.role == .memberA || d.ply.role == .memberB) || d.ply.pstate == .active

/-- Boundaries that a write accepted now lets pass before it lands: one where less than 16 cycles are left (R16),
or where a ply active is in its guard window (R80, R432). -/
def Dev.landSkip (d : Dev) : Nat := if d.sealsWrites && d.inGuard || d.late16 then 1 else 0

/-- A write accepted now, with the boundaries it lets pass whatever its time. -/
def Dev.acceptedNow (d : Dev) (skip : Nat) : Accepted := { skip := skip, since := some d.now }

/-- A waiting write lands at a boundary now: it has no boundary left to pass, and it was accepted at least 16 core cycles
ago (R16, R486). -/
def Dev.isDue (d : Dev) (a : Accepted) : Bool :=
  a.skip == 0 && (match a.since with | none => true | some t => decide (t + 16 ≤ d.now))

/-- A waiting write that a boundary passes by. -/
def Accepted.pass (a : Accepted) : Accepted := { a with skip := a.skip - 1 }

/-- A write put into the list of those that land at tick, in order of acceptance (R431). -/
def Dev.land (d : Dev) (l : Landing) : Dev :=
  { d with landing := d.landing ++ [(l, d.acceptedNow (b1 (d.sealsWrites && d.inGuard)))] }

/-- The channel and word 1 of a request, by which a discard finds what it has brought about (R403). -/
def askerOf (r : Req) : Nat × Word := (r.chan.val, r.w1)

/-- Units of 64 bytes that a log entry takes: one for the request block and those of its image (note 135). -/
def LogEntry.units (e : LogEntry) : Nat := 1 + (e.image.length + 15) / 16

/-- Ticks by which the seal of a write that a ply active takes now is put off: 16 units go with each seal, and the units that
wait before it come first (R219). -/
def Dev.sealCarry (d : Dev) : Nat :=
  if d.sealsWrites && d.tk.seqRun then ((d.ply.log.map LogEntry.units).sum - d.ply.logPart) / 16 else 0

/-- Writes that reach the standby in the write log: all but those that every member takes for itself (R219, R430). -/
def Landing.logged : Landing → Bool
  | .tbSet _ _ _ | .tbStep _ _ | .tbSlew _ _ | .tbRate _ _ | .tbState _ _ | .tbHoldLimit _ _ => false
  | .port _ _ _ | .ptp _ | .testMode _ | .loopback _ _ | .inject _ _ _ _ | .capture _ _ | .telemetry _ _ | .snapReq => false
  | _ => true

/-- Boundaries that a write lets pass beside those of its time: it lands on a ply active at the boundary at which the standby
lands it, the one after the seal that closes it (R80, R219). -/
def Dev.carryOf (d : Dev) (l : Landing) : Nat := if l.logged then d.sealCarry else 0

/-- A command's write put into that list. -/
def Dev.landFor (d : Dev) (r : Req) (l : Landing) : Dev :=
  let a := d.acceptedNow (b1 (d.sealsWrites && d.inGuard) + d.carryOf l)
  { d with landing := d.landing ++ [(l, { a with asker := some (askerOf r) })] }

/-- LAND_TICK of what takes effect at the next boundary (R411, R486). -/
def Dev.landTick (d : Dev) : Word :=
  if d.tk.seqRun then word (d.tk.tick + 1 + d.landSkip) else 0

/-- LAND_TICK of a write that lands at tick (R80, R411, R486). -/
def Dev.landTickOf (d : Dev) (l : Landing) : Word :=
  if d.tk.seqRun then word (d.tk.tick + 1 + d.landSkip + d.carryOf l) else 0

/-- LAND_TICK of a write that lands at once (R411). -/
def Dev.nowTick (d : Dev) : Word := if d.tk.seqRun then word d.tk.tick else 0

/-- A rational rounded where the spec does not say how (note 22): freely at each place e, and alike for one value (R62). -/
def roundFree (x : Rat) (e : Nat) : Int := roundTo x (b1 (Config.roundsUp e x))

/-- A rational rounded to the nearest whole number; which way a tie goes is free where the spec does not say
(note 22). -/
def roundNear (x : Rat) (e : Nat) : Int :=
  if (2 * x).den = 1 then roundFree x e else (x + 1 / 2).floor

/-- A rational rounded down where its rest is less than a half, and else freely. -/
def roundDownHalf (x : Rat) (e : Nat) : Int := if x - (x.floor : Rat) < 1 / 2 then x.floor else roundFree x e

/-- One free value taken. -/
def Dev.useFresh (d : Dev) : Dev := { d with fresh := d.fresh + 1 }

/-! ### Interrupt causes -/

/-- The PCIe function of an identity (R390). -/
def fnOfId (id : Nat) : Option Nat := if id = 1 then some 0 else if id = 2 then some 1 else none

/-- An MSI-X message of vector b towards an identity, where it is a PCIe function in D0 and the cause is
enabled (R409, R392). -/
def Dev.message (d : Dev) (id b : Nat) : Dev :=
  match fnOfId id with
  | none => d
  | some n =>
    if bit (d.intOf id).en b && !(d.fnOf n).d3hot then d.modFn n (fun f => { f with sent := f.sent ++ [b] }) else d

/-- A latched cause set for an identity (R408). -/
def Dev.raise (d : Dev) (id b : Nat) : Dev :=
  let old := bit (d.intOf id).cause b
  let d' := d.modInt id (fun i => { i with cause := i.cause ||| word (2 ^ b) })
  if old then d' else d'.message id b

/-- The host identities and the management processor (R244, R396). -/
def noticeIds : List Nat := [0x01, 0x02, 0x10, 0x20]

/-- A latched cause set for every host port and the management processor. -/
def Dev.raiseAll (d : Dev) (b : Nat) : Dev := noticeIds.foldl (fun d id => d.raise id b) d

/-- A level cause whose condition has just become true sends its message (R409). -/
def Dev.levelUp (d : Dev) (b : Nat) : Dev := [0x01, 0x02].foldl (fun d id => d.message id b) d

/-- REQ_ID of a channel: its binding's, or none while it is not VALID (R398). -/
def Chan.reqId (c : Chan) : Nat := bits c.bind0 15 8
/-- RSP_ID of a channel. -/
def Chan.rspId (c : Chan) : Nat := bits c.bind0 7 0
/-- VALID of a channel. -/
def Chan.valid (c : Chan) : Bool := bit c.bind0 31
/-- GROUPS of a channel. -/
def Chan.groups (c : Chan) : Nat := bits c.bind1 15 0

/-- Requester identities of a channel's queues: by its binding once the table is locked; before that
every host identity on channel 0 (R398, R407). -/
def Dev.requesters (d : Dev) (ch : Nat) : List Nat :=
  if d.host.bindLocked then (if (d.boxOf ch).valid then [(d.boxOf ch).reqId] else [])
  else if ch = 0 then [0x01, 0x02, 0x10] else []

/-- Responder identities of a channel's queues (R398, R407). -/
def Dev.responders (d : Dev) (ch : Nat) : List Nat :=
  if d.host.bindLocked then (if (d.boxOf ch).valid then [(d.boxOf ch).rspId] else [])
  else if ch = 0 then [0x20] else []

/-- A CAN controller's level cause (R387, R408). -/
def Can.levelCause (c : Can) : Bool := decide (c.events &&& c.eventEn ≠ 0)

/-- The level causes of an identity (R408): FBQ, CAN_0 to CAN_3, TSQ and SNAP. -/
def Dev.levels (d : Dev) (id : Nat) : Nat :=
  let fbq := (List.range 32).any (fun ch =>
    ((d.requesters ch).contains id && !(d.boxOf ch).back.isEmpty) ||
    ((d.responders ch).contains id && !(d.boxOf ch).fwd.isEmpty))
  let tsq := (List.range d.portCount).any (fun p => (d.portOf p).ts.any (fun e =>
    (decide (e.domain.toNat = d.eth.dom0) && d.eth.host0) || (decide (e.domain.toNat = d.eth.dom1) && d.eth.host1)))
  b1 fbq * 8 + maskOf 4 (fun c => (d.canOf c).levelCause) * 16 + b1 tsq * 256 + b1 d.meter.snapReady * 512

/-- A level cause b that has become true in a change sends its message; one that was true sends none (R409). -/
def Dev.edge (before after : Dev) (b : Nat) : Dev :=
  [0x01, 0x02].foldl (fun d id => if !nbit (before.levels id) b && nbit (after.levels id) b then d.message id b else d) after

/-- A word pushed into a channel's BACK queue by the responder: a full queue sets BACK_OVF (R406), and FBQ may become true
(R408). -/
def Dev.pushBack (d : Dev) (ch : Nat) (w : Word) : Dev :=
  if 8 ≤ (d.boxOf ch).back.length then d.modBox ch (fun c => { c with backOvf := true })
  else d.edge (d.modBox ch (fun c => { c with back := c.back ++ [w] })) 3

/-- A word pushed into a channel's FWD queue by the requester (R406). -/
def Dev.pushFwd (d : Dev) (ch : Nat) (w : Word) : Dev :=
  if 8 ≤ (d.boxOf ch).fwd.length then d.modBox ch (fun c => { c with fwdOvf := true })
  else d.edge (d.modBox ch (fun c => { c with fwd := c.fwd ++ [w] })) 3

/-- BOOT_STAGE takes a value; a change raises the BOOT cause at every identity that takes causes, and until the binding is
locked the boot ROM or the recovery firmware reports it in BACK of channel 0, in a word whose coding is free (R407, R408,
note 184). -/
def Dev.setStage (d : Dev) (n : Nat) : Dev :=
  if d.host.bootStage = n then d
  else
    let e := (({ d with host := { d.host with bootStage := n } } : Dev).raiseAll 10).raise 0x30 10
    if d.host.bindLocked then e else e.useFresh.pushBack 0 (Config.freeWord d.fresh)

/-! ### FRAM (R306) -/

/-- Addresses of the close record, the ply record and the image slots. -/
def closeAddr : Nat := 0x0000
/-- See `closeAddr`. -/
def plyAddr : Nat := 0x0040
/-- See `closeAddr`. -/
def slotAddr (n : Nat) : Nat := 0x0100 + 0x0800 * n

/-- The bytes of an SPI command with its 16-bit address, high byte first (note 148). -/
def spiCommand (op addr : Nat) : List Byte := [byte op, byte (addr / 256), byte addr]

/-- WREN, WRITE and READ of bytes at an address: a write and its read-back. -/
def spiStore (addr : Nat) (bs : List Byte) : List (List Byte) :=
  [[byte 0x06], spiCommand 0x02 addr ++ bs, spiCommand 0x03 addr]

/-- The ply record written; a FRAM that is absent keeps none (R224, R306). -/
def Fram.putPly (f : Fram) (last max : Word) : Fram :=
  if f.present && decide (f.plyRec ≠ (last, max)) then
    { f with plyRec := (last, max), spi := spiStore plyAddr (wordsBytes [last, max]) }
  else f

/-- The ply record that stands in the FRAM; none has been kept in one that is absent (R224, R306). -/
def Fram.plyRecord (f : Fram) : Word × Word := if f.present then f.plyRec else (0, 0)

/-- Words 0 to 14 of a close record (R308). -/
def CloseRec.body (c : CloseRec) : List Word :=
  [pack [(24, c.typ), (16, c.cause), (12, c.sensor)], word c.saveSeq, word c.lastTick] ++
    (List.range 6).flatMap (fun u => [word (tblGet 0 c.totals u), word (tblGet 0 c.totals u / 2 ^ 32)])

/-- A close record with its CRC (R308). -/
def CloseRec.sign (c : CloseRec) : CloseRec := { c with crc := crc32 (wordsBytes c.body) }

/-- A valid close record: TYPE 0xC1 and a good CRC (R309). -/
def CloseRec.valid (c : CloseRec) : Bool := c.typ == 0xC1 && c.crc == crc32 (wordsBytes c.body)

/-- The close record written, in `n` attempts; an absent FRAM takes none (R308). -/
def Fram.putClose (f : Fram) (c : CloseRec) (n : Nat) : Fram :=
  if f.present then
    { f with close := c, spi := (List.replicate n (spiStore closeAddr (wordsBytes (c.body ++ [c.crc])))).flatten }
  else f

/-! ### Cut path -/

/-- The matrix row of a source: 0 to 255 strands, 256 TRIM_DUAL, 257 CUT_IN, 258 PLY_CUT, 259 SEVERITY5
(R189). Rows of absent strands read zero. -/
def Dev.matrixRow (d : Dev) (r : Nat) : Nat :=
  if r < 256 ∧ d.strandCount ≤ r then 0 else tblGet 0xFFFF d.cut.matrix r

/-- Some group of a mask satisfies p. -/
def anyGroup (m : Nat) (p : Nat → Bool) : Bool := (maskBits 16 m).any p

/-- A strand is the target of some group of a mask. -/
def Dev.maskTargetsStrand (d : Dev) (m k : Nat) : Bool :=
  anyGroup m (fun g => bit (wat (d.groupOf g).strands (k / 32)) (k % 32))

/-- A trim channel is the target of some group of a mask. -/
def Dev.maskTargetsTrim (d : Dev) (m n : Nat) : Bool := anyGroup m (fun g => bit (d.groupOf g).trims n)

/-- Strand k is under a cut (R190). -/
def Dev.strandCut (d : Dev) (k : Nat) : Bool := d.maskTargetsStrand d.cut.active k

/-- Trim channel n is under a cut (R190). -/
def Dev.trimCut (d : Dev) (n : Nat) : Bool := d.maskTargetsTrim d.cut.active n

/-- CUT_OUT_N is asserted: some cut group targets it that was not fired only by CUT_IN (R190). -/
def Dev.cutOutLvl (d : Dev) : Bool :=
  anyGroup d.cut.active (fun g => (d.groupOf g).cutOut && nbit d.cut.notCutIn g)

/-- PLY_CUT_OUT is driven high (R190). -/
def Dev.plyCutOutLvl (d : Dev) : Bool :=
  anyGroup d.cut.active (fun g => (d.groupOf g).plyOut && nbit d.cut.notPlyCut g)

/-! ### Pre-charge pulses of a trim driver (R203, R204, R208) -/

/-- Core cycles of a pre-charge pulse and of its gap (R210). -/
def Trim.preWidth (t : Trim) : Nat := 125 * t.drv.preW

/-- The start of the last pre-charge pulse up to now (R208). -/
def Trim.pulseStart (t : Trim) (now : Nat) : Nat :=
  t.preAt + min ((now - t.preAt) / (2 * t.preWidth)) (t.drv.preN - 1) * (2 * t.preWidth)

/-- The cycle from which the last pulse up to now has been driven: its start, or later where the opposite gate, the dead time or a
latched fault held it up; none where it has not been driven (R203, R206). -/
def Trim.preDriven (t : Trim) (now : Nat) : Option Nat :=
  let seen := if t.latched then min now (t.latchAt - 1) else now
  let start := t.pulseStart seen
  let on_ := max start t.preFrom
  if t.prechg && !t.vgsH && !t.lockout && decide (on_ ≤ seen) && decide (on_ < start + t.preWidth) then some on_ else none

/-- A pre-charge pulse drives the low side now (R208), not while a fault is latched or the channel is locked out (R206). -/
def Trim.prePulse (t : Trim) (now : Nat) : Bool :=
  !t.latched && (t.preDriven now).isSome && decide (now < t.pulseStart now + t.preWidth)

/-- The turn-on of the pulse driven last, kept as that of the low gate (R204). -/
def Trim.notePre (t : Trim) (now : Nat) : Trim :=
  match t.preDriven now with
  | some on_ => if on_ = t.onAt then t else { t with onAt := on_, onWas := t.onAt }
  | none => t

/-- Pre-charge ends, or is abandoned: the low side's turn-off command is the end of its last pulse, and its gate has yet to fall
below VGS_TH where it has not since that pulse began (R203). -/
def Trim.endPre (t : Trim) (now : Nat) : Trim :=
  match t.preDriven now with
  | some on_ =>
    { t.notePre now with
      prechg := false, offL := max t.offL (min now (t.pulseStart now + t.preWidth) + 1)
      vgsL := t.vgsL || decide (t.lowFell ≤ on_) }
  | none => { t with prechg := false }

/-- What a cut does to a targeted trim driver: both gates off, and a pre-charge under way is abandoned
until the release (R190, R208). -/
def Trim.cutOff (t : Trim) (now : Nat) : Trim :=
  { t.endPre now with gateH := false, gateL := false, preWait := t.preWait || t.prechg }

/-- The transmitter still has symbols to send at core cycle `now` (R158). -/
def Strand.sending (s : Strand) (now : Nat) : Bool := decide (64 * now < s.txAt + 256 * s.txLine.length)

/-- The first symbol of the strand's transmit grid at or after an instant in units of 12.5 ps: the grid is shifted by COMP
against the boundaries, one of which came at core cycle `start` (R165). -/
def Strand.gridFrom (s : Strand) (start t : Nat) : Nat :=
  t + (((64 * start : Nat) - (s.comp : Int) - (t : Int)) % 256).toNat

/-- A frame in flight is abandoned without EOF (R160, R187). -/
def Strand.abandon (s : Strand) (now : Nat) : Strand :=
  if s.sending now then
    { s with txFrame := [], txBulk := [], withheld := none, txLine := s.txLine.take ((64 * now - s.txAt + 255) / 256) }
  else { s with withheld := none }

/-- The transmitter of a strand turns to CUT (R160): a frame in flight is abandoned, and rest ends with 16 COMMAs, valid at
the pin within 120 ns (R179). -/
def Strand.startCut (s : Strand) (start now : Nat) : Strand :=
  if s.txRest then
    { s with txRest := false, txLine := List.replicate 16 .comma ++ [.cut, .cut], txAt := s.gridFrom start (64 * (now + 150) - 255)
             withheld := none }
  else if s.sending now then let s := s.abandon now; { s with txLine := s.txLine ++ [.cut, .cut] }
  else { s.abandon now with txLine := [.cut, .cut], txAt := s.gridFrom start (64 * now) }

/-- A strand in this state sends (R190): in OFF, DEEP and FAILED it does not. -/
def StrandState.sends : StrandState → Bool
  | .off | .deep | .failed => false
  | .detect | .train | .lock | .caps | .active => true

/-- Key of a lane's test record: class × 256 + lane (R461). -/
def laneKey (cls lane : Nat) : Nat := cls * 256 + lane

/-- Test record of a lane by its key. -/
def Dev.laneTest (d : Dev) (key : Nat) : LaneTest := tblGet {} d.test.lanes key

/-- A lane runs under a test mode. -/
def Dev.underTest (d : Dev) (cls lane : Nat) : Bool := decide ((d.laneTest (laneKey cls lane)).mode ≠ 0)

/-- Strand k sends something that CUT pre-empts: what its state sends, or a far-end echo (R160, R190, R458). -/
def Dev.sendsOn (d : Dev) (k : Nat) : Bool := (d.strandOf k).state.sends || decide ((d.laneTest (laneKey 0 k)).mode = 2)

/-- A cut as its targets feel it: trim gates off, strands that send turn to CUT (R160, R190, R458). -/
def Dev.holdTargets (d : Dev) (g : Nat) : Dev :=
  let d2 := forEach ((List.range 32).filter (d.maskTargetsTrim g)) (fun n d => d.modTrim n (fun t => t.cutOff d.now)) d
  forEach ((List.range d.strandCount).filter (fun k => d2.maskTargetsStrand g k))
    (fun k d => if d.sendsOn k then d.modStrand k (fun s => s.startCut d.tk.tickStart d.now) else d) d2

/-- The word of R201 at 0x8C. -/
def lastCutWord (cls idx groups : Nat) : Word := pack [(28, cls % 16), (16, idx % 512), (0, groups % 65536)]

/-- A source of a class and index fires a group mask (R189, R190, R194): the groups become cut, the
firers join, a firing from uncut is recorded in LAST_CUT, and a class that the capture mask names starts the count of
post-cut ticks (R429). -/
def Dev.cutGroups (d : Dev) (cls idx groups : Nat) : Dev :=
  let g := groups % 65536
  let new := g &&& (65535 ^^^ d.cut.active)
  let c := { d.cut with
    active := d.cut.active ||| g
    notCutIn := if cls = 3 then d.cut.notCutIn else d.cut.notCutIn ||| g
    notPlyCut := if cls = 4 then d.cut.notPlyCut else d.cut.notPlyCut ||| g
    lastClass := if new = 0 then d.cut.lastClass else cls
    lastIndex := if new = 0 then d.cut.lastIndex else idx
    lastGroups := if new = 0 then d.cut.lastGroups else new
    lastTick := if new = 0 then d.cut.lastTick else d.tk.tick % 2 ^ 32 }
  let freezes := decide (new ≠ 0) && nbit d.test.capMask cls && d.test.capLeft.isNone
  let d1 := { d with cut := c, test := { d.test with capLeft := if freezes then some d.test.postCut else d.test.capLeft } }
  d1.holdTargets g

/-- Groups of a mask that are not cut yet. -/
def Dev.newGroups (d : Dev) (groups : Nat) : Nat := (groups % 65536) &&& (65535 ^^^ d.cut.active)

/-! ### Fault sources -/

/-- Default and minimum severity of the listed sources (R243). -/
def sevTable1 : List (Nat × Nat × Nat) :=
  [(0x000, 4, 0), (0x001, 2, 0), (0x002, 2, 0), (0x008, 4, 0), (0x009, 1, 0), (0x00A, 2, 0),
   (0x010, 2, 0), (0x011, 1, 0), (0x018, 1, 0), (0x019, 2, 0), (0x020, 2, 0), (0x021, 2, 0),
   (0x022, 1, 0), (0x023, 1, 0), (0x024, 2, 0), (0x025, 2, 0), (0x026, 1, 0), (0x027, 2, 0),
   (0x028, 3, 0), (0x029, 1, 0), (0x040, 1, 0), (0x041, 4, 4), (0x042, 4, 4), (0x048, 1, 0),
   (0x049, 2, 0), (0x04A, 3, 0), (0x04B, 3, 0), (0x04C, 2, 0), (0x04D, 3, 0), (0x04E, 3, 0)]

/-- The rest of the table of R243, but for the firmware-defined range. -/
def sevTable2 : List (Nat × Nat × Nat) :=
  [(0x050, 2, 0), (0x051, 3, 0), (0x052, 2, 0), (0x053, 3, 0), (0x054, 3, 0), (0x055, 1, 0),
   (0x060, 4, 0), (0x061, 3, 0), (0x062, 2, 0), (0x063, 1, 0), (0x064, 2, 0), (0x070, 1, 0),
   (0x071, 4, 4), (0x072, 4, 4), (0x078, 2, 0), (0x079, 2, 0), (0x07A, 1, 0), (0x07B, 5, 4),
   (0x080, 4, 4), (0x081, 3, 0), (0x082, 3, 0), (0x083, 2, 0), (0x084, 2, 0), (0x090, 2, 0),
   (0x091, 2, 0), (0x092, 1, 0), (0x093, 1, 0), (0x098, 3, 0), (0x099, 2, 0), (0x0A0, 2, 0),
   (0x0A1, 1, 0), (0x0A8, 2, 0), (0x0A9, 1, 0), (0x0AA, 1, 0), (0x0B0, 2, 0), (0x0B1, 1, 0),
   (0x0B2, 1, 0), (0x0C0, 4, 0), (0x0C1, 3, 0)]

/-- Default and minimum severity of a source; none for a reserved number (R240, R243). -/
def sevDefault (n : Nat) : Option (Nat × Nat) :=
  if 0x1C0 ≤ n ∧ n < 0x200 then some (1, 0)
  else ((sevTable1 ++ sevTable2).find? (fun r => r.1 == n)).map (fun r => r.2)

/-- The severity of a source in force (R242). -/
def Dev.sevOf (d : Dev) (n : Nat) : Nat :=
  match (d.srcOf n).sev with
  | some s => s
  | none => ((sevDefault n).map (·.1)).getD 0

/-- An occurrence waiting to be recorded: source, severity and detail. -/
structure Occ where
  src : Nat
  sev : Nat
  detail : Word
  deriving DecidableEq, Repr

/-- The order of R250: descending severity, then ascending source. -/
def Occ.before (a b : Occ) : Bool := decide (b.sev < a.sev) || (a.sev == b.sev && decide (a.src ≤ b.src))

/-- An occurrence put into its place in the order of R250. -/
def occInsert (o : Occ) : List Occ → List Occ
  | [] => [o]
  | x :: xs => if Occ.before o x then o :: x :: xs else x :: occInsert o xs

/-- The first-error register and the hank queue take one occurrence (R248, R250). -/
def Dev.recordOcc (d : Dev) (o : Occ) : Dev :=
  let r : HankRec :=
    { seq := 0, cycle := if d.tk.seqRun then d.cyc % 65536 else 0,
      tick := if d.tk.seqRun then d.tk.tick else 0, sev := o.sev, source := o.src, detail := o.detail }
  let f := d.flt
  { d with flt := { f with
      fe := if f.fe.isSome then f.fe else some r
      feLast := if f.fe.isSome then f.feLast else r
      queue := if f.queue.length < 64 then f.queue ++ [r] else f.queue
      hankLost := if f.queue.length < 64 then f.hankLost else satInc 16 f.hankLost } }

/-- RAW of a source set or cleared. -/
def Dev.setRaw (d : Dev) (n : Nat) (b : Bool) : Dev := d.modSrc n (fun s => { s with raw := b })

/-- Some source with STATUS set has an occurrence severity at or above STOP_TH (R246). -/
def Dev.stopping (d : Dev) : Bool :=
  d.flt.srcs.any (fun p => p.2.status && decide (d.flt.stopTh ≤ p.2.occSev))

/-- The device after a change of STATUS, with the core cycle noted where it changes whether some source stops FAULT_ALIVE
(R246). -/
def Dev.noteStop (was : Bool) (d : Dev) : Dev :=
  if d.stopping == was then d
  else { d with flt := { d.flt with stopFlips := d.now :: d.flt.stopFlips.filter (fun t => decide (d.now < t + 16)) } }

/-- Steps (R244, R246) that one occurrence starts beside its record: STATUS with its severity, which a re-occurrence does not
lower (R251), the fault interrupt, and the pulse to the island. A clear of this core cycle has not taken effect (R12, R257). -/
def Dev.reactOcc (d : Dev) (o : Occ) : Dev :=
  let was := d.stopping
  let back := (d.srcOf o.src).clearedAt == some d.now
  let d := if back then { d with flt := { d.flt with returning := d.flt.returning - 1 } } else d
  let d := d.modSrc o.src (fun s =>
    { s with clearedAt := none, occAt := some d.now, status := true, occSev := if s.status then max s.occSev o.sev else o.sev, detail := o.detail })
  let d := d.noteStop was
  let d := d.recordOcc o
  let d := if 2 ≤ o.sev then d.raiseAll 0 else d
  if 5 ≤ o.sev then { d with flt := { d.flt with sev5Pulses := d.flt.sev5Pulses + 1 } } else d

/-- The order of R250 among records. -/
def HankRec.before (a b : HankRec) : Bool := decide (b.sev < a.sev) || (a.sev == b.sev && decide (a.source ≤ b.source))

/-- A record put into its place in the order of R250. -/
def recInsert (r : HankRec) : List HankRec → List HankRec
  | [] => [r]
  | x :: xs => if HankRec.before r x then r :: x :: xs else x :: recInsert r xs

/-- What a command made of `before` in one core cycle, classified together: its hank entries stand in the order of R250, and
the first of them is the first error where there was none. -/
def Dev.oneCycle (before d : Dev) : Dev :=
  let f := d.flt
  let n := before.flt.queue.length
  let new := (f.queue.drop n).foldr recInsert []
  let first := if before.flt.fe.isSome then f.fe else
    match f.fe with
    | some r => (recInsert r new).head?
    | none => none
  { d with flt := { f with queue := f.queue.take n ++ new, fe := first, feLast := first.getD f.feLast } }

/-- The occurrences that conditions of one core cycle make (R241): sources with severity 1 or more
whose STATUS is clear, in the order of R250. -/
def Dev.occsOf (d : Dev) (l : List (Nat × Word)) : List Occ :=
  l.foldl (fun acc p =>
    if (d.srcOf p.1).status || decide (d.sevOf p.1 = 0) || acc.any (fun o => o.src == p.1) then acc
    else occInsert { src := p.1, sev := d.sevOf p.1, detail := p.2 } acc) []

/-! ### Discard -/

/-- A calibration of an input abandoned, whichever converter runs it (R323). -/
def Dev.dropCal (d : Dev) (input : Nat) : Dev :=
  forEach (List.range 8) (fun c d =>
    if ((d.adcOf c).cal.map (·.input)) = some input then d.modAdc c (fun x => { x with cal := none }) else d) d

/-- A host's command towards an endpoint is over: one not yet sent is dropped, one in the slot goes on
being repeated until its acknowledgement (R187, R253). -/
def Strand.dropHost (s : Strand) : Strand :=
  { s with cmd := { s.cmd with host := false }, devCmds := s.devCmds.filter (fun c => !c.host) }

/-- A recipe slot in force, or named by an armed or committed RECIPE change (R86). -/
def Dev.slotTaken (d : Dev) (n : Nat) : Bool :=
  d.recipes.inForce == n || (d.tk.commit != .idle && nbit d.tk.set 3 && d.recipes.armed == some n)

/-- The object of an abandoned load is left invalid (R253, R434); a load that only checks has none (R418), and a slot or
bank that has come into force since is out of its reach (R254). -/
def Dev.abandonLoad (d : Dev) (op : Nat) (r : Req) : Dev :=
  let a := bits (wat r.args 0) 31 0
  if r.flags.getLsbD 0 then d
  else if op = 0x0101 then { d with mapStaged := none }
  else if op = 0x0201 then
    if d.slotTaken a then d else { d with recipes := { d.recipes with slots := tblSet {} d.recipes.slots a {} } }
  else if op = 0x0306 then { d with spin := { d.spin with stagedCoef := none } }
  else if op = 0x0704 then
    if d.tk.seqRun && !d.tk.noBank && d.tk.runBank == a then d
    else if a = 0 then { d with tk := { d.tk with bank0 := { d.tk.bank0 with valid := false } } }
    else { d with tk := { d.tk with bank1 := { d.tk.bank1 with valid := false } } }
  else if op = 0x0F01 then { d with flash := { d.flash with staged := false } }
  else if op = 0x010A then d.modStrand (a % 256) Strand.dropHost
  else if op = 0x0506 then d.modAdc (a % 8) (fun c => { c with urgent := none })
  else if op = 0x0507 then d.dropCal (a % 32)
  else d

/-- The completion notice of R416: two words into the channel's BACK queue. -/
def Dev.notice (d : Dev) (ch tag status op : Nat) : Dev :=
  (d.pushBack ch (pack [(28, 0xA), (0, tag % 65536)])).pushBack ch (pack [(16, status % 65536), (0, op % 65536)])

/-- TAG of a request (R410). -/
def tagOf (r : Req) : Nat := bits r.w1 31 16

/-- Every running long-running command ends DISCARDED, with its notice and one discard notice on each
channel whose command it ended (R416). -/
def Dev.discardLongs (d : Dev) : Dev :=
  let run := d.host.longs.filter (fun l => l.state == .running)
  let ended := d.host.longs.map (fun l =>
    if l.state == .running then { l with state := .complete 0x0201 [] } else l)
  let lost := fun (e : LogEntry) => run.any (fun l => l.op == e.op && l.req == e.req)
  let d1 := { d with host := { d.host with longs := ended }
                     ply := { d.ply with log := d.ply.log.filter (fun e => e.image.isEmpty || !lost e) } }
  let d2 := run.foldl (fun d l => (d.abandonLoad l.op l.req).notice l.req.chan.val (tagOf l.req) 0x0201 l.op) d1
  let w := pack [(28, 0xD), (0, d2.flt.discardCnt % 65536)]
  forEach ((List.range 32).filter (fun ch => run.any (fun l => l.req.chan.val == ch)))
    (fun ch d => d.pushBack ch w) d2

/-- A channel in POSTED or PICKED as a discard leaves it (R403). -/
def Chan.discarded (c : Chan) : Chan :=
  { c with
    rep := [pack [(16, 0x0201), (0, bits (wat c.req 0) 15 0)], wat c.req 1] ++ List.replicate 14 0
    done := true, disc := true, go := false, picked := false }

/-- An accepted open or close, which no discard cancels (R77, R254). -/
def Landing.isOpenClose : Landing → Bool
  | .openClose _ _ => true
  | _ => false

/-- What a command has brought about that has not landed, gone with its discard (R99, R253, R403); an accepted open or close
stays (R254). -/
def Dev.dropAsked (d : Dev) (a : Nat × Word) : Dev :=
  let mine := fun (r : Req) => askerOf r == a
  { d with
    landing := d.landing.filter (fun p => p.2.asker != some a || p.1.isOpenClose)
    recipes := { d.recipes with stepWrites := d.recipes.stepWrites.filter (fun w => w.asker != some a) }
    test := { d.test with stops := d.test.stops.filter (fun x => !mine x.req) }
    ply := { d.ply with
      answers := d.ply.answers.filter (fun x => !mine x.req), deferred := d.ply.deferred.filter (fun x => !mine x.req)
      log := d.ply.log.filter (fun x => !mine x.req || x.op == 0x0303) } }

/-- The discard of one mailbox channel: what the message picked up has brought about goes with it, but for a message that repeats
one that had been answered, which stands with its reply (R403, R413, R434). -/
def Dev.discardBox (d : Dev) (ch : Nat) : Dev :=
  let c := d.boxOf ch
  let w1 := wat c.req 1
  let d := if c.picked && !c.again then d.dropAsked (ch, w1) else d
  (d.modBox ch (fun c =>
    { c.discarded with
      stored := if c.picked && !c.again && (c.stored.map (·.1)) == some w1 then none else c.stored })).raise c.reqId 1

/-- The discard of the mailbox channels (R403). -/
def Dev.discardBoxes (d : Dev) : Dev :=
  forEach ((List.range 32).filter (fun ch => (d.boxOf ch).go && !(d.boxOf ch).landed)) (fun ch d => d.discardBox ch) d

/-- A CAN transmit FIFO emptied but for a frame on the bus, which is not retried (R253, R388); the number
dropped is counted. -/
def Can.dropTx (c : Can) : Can :=
  let keep := if c.onBus then 1 else 0
  { c with
    txFill := min c.txFill keep
    txPut := (c.txHead + min c.txFill keep) % 32
    noRetry := c.noRetry || c.onBus
    headTries := if c.onBus then c.headTries else 0
    discDrop := satAdd 16 c.discDrop (c.txFill - keep) }

/-- Events of CAN controller c set; its cause follows (R387, R408). -/
def Dev.canEvent (d : Dev) (c m : Nat) : Dev :=
  let old := d.canOf c
  let d := d.modCan c (fun x => { x with events := x.events ||| m })
  if old.events &&& old.eventEn = 0 ∧ m &&& old.eventEn ≠ 0 then d.levelUp (4 + c) else d

/-- A discard empties the transmit FIFO of controller c (R388). -/
def Dev.discardCan (d : Dev) (c : Nat) : Dev :=
  let had := decide ((d.canOf c).txFill ≠ 0)
  let d := d.modCan c Can.dropTx
  d.canEvent c (0x8000 + 0x200 * b1 (had && decide ((d.canOf c).txFill = 0)))

/-- A discard is under way: it takes at most 64 core cycles from its start (R253). -/
def Dev.discarding (d : Dev) : Bool :=
  match d.flt.discardAt with
  | some c => decide (d.now < c + 64)
  | none => false

/-- The first core cycle of the last discard has not passed, so that a GO set now is discarded with the rest (R257). -/
def Dev.discardOpen (d : Dev) : Bool :=
  match d.flt.discardAt with
  | some c => decide (d.now ≤ c)
  | none => false

/-- The delay by which replies and reports are spread, in core cycles (R366). -/
def Dev.coordDelay (d : Dev) : Nat := d.cfg.devId % 1024 * 11250

/-- The reply to an ARM or ABORT frame with status, reason and RESULT, which leaves after the delay (R364, R366). -/
def Dev.coordOut (d : Dev) (w : CoordWait) (status reason result : Nat) : CoordOut :=
  let n := if d.tk.seqRun then d.tk.tick else 0
  { typ := 0x80 + bits (wat w.words 0) 23 16
    body := [wat w.words 4, pack [(16, status), (8, reason), (0, result)], word n, word (n / 2 ^ 32 % 65536), d.tk.appliedEpoch]
    dst := bits (wat w.words 2) 31 16, mac := w.mac, time := d.now + d.coordDelay, port := w.port }

/-- A report owed (R58, R366). -/
def Dev.owe (d : Dev) (c : ReportCause) (at_ : Option Nat) : Dev := { d with eth := { d.eth with owed := d.eth.owed ++ [(c, at_)] } }

/-- The owed reports whose time no boundary has fixed count from a boundary at core cycle t (R366). -/
def Dev.oweFrom (d : Dev) (t : Nat) : Dev :=
  { d with eth := { d.eth with owed := d.eth.owed.map (fun p => (p.1, some (p.2.getD (t + d.coordDelay)))) } }

/-- A discard at a claiming or yielding boundary counts from that boundary (R366). -/
def Dev.owedFromTick (d : Dev) : Dev := d.oweFrom d.tk.tickStart

/-- The discard of work in flight (R253), complete in itself. -/
def Dev.discardWork (d : Dev) : Dev :=
  let d := { d with flt := { d.flt with discardCnt := satInc 16 d.flt.discardCnt, discardAt := some (d.now + 2) } }
  let d := d.discardBoxes
  let d := d.discardLongs
  let d := if d.tk.commit == .armed then
      { d with tk := { d.tk with commit := .idle, discardedEpoch := d.tk.epoch, epoch := 0, target := 0,
                                 set := 0, campus := false },
               eth := { d.eth with discardReport := true } }
    else d
  let d := forEach [0, 1, 2, 3] (fun c d => d.discardCan c) d
  let waiting := fun (p : Nat) => (d.eth.reports.filter (fun r => r.port == p)).length
  let d := forEach ((d.strands.filter (fun p => p.2.fwRun)).map (·.1)) (fun k d =>
    d.modStrand k (fun s => { s with fwRun := false, txBulk := [] })) d
  let d := forEach (List.range d.portCount) (fun p d => d.modPort p (fun e =>
    { e with queue := [], launchDrop := satAdd 16 e.launchDrop (e.queue.length + waiting p) })) d
  let out := d.eth.coordWait.map (fun w => d.coordOut w 0x0201 0 0)
  ({ d with eth := { d.eth with reports := out, coordWait := [] } }).owe .discard none

/-- A discard; one that starts while another is under way merges into it (R251, R253). -/
def Dev.discard (d : Dev) : Dev := if d.discarding then d else d.discardWork

/-- The discard of a claiming or yielding boundary, which starts with the boundary (R226, R234, R253). -/
def Dev.discardHere (d : Dev) : Dev :=
  if d.discarding then d
  else
    let q := d.discardWork
    { q with flt := { q.flt with discardAt := some d.now } }

/-! ### Occurrences and cuts together -/

/-- A cut fired by a class and index, with the occurrence it makes recorded but its own further cut left
to the caller (R194). -/
def Dev.fireBase (d : Dev) (cls idx groups : Nat) : Dev × List Occ :=
  let new := d.newGroups groups
  let d1 := d.cutGroups cls idx groups
  if new = 0 then (d1, [])
  else
    let os := d1.occsOf [(0x040, lastCutWord cls idx new)]
    (os.foldl Dev.reactOcc d1, os)

/-- The SEVERITY5 row fires for each occurrence at severity 5, with the source number as the index; the
cut fired source may itself be at severity 5, once (R188, R244). -/
def Dev.fireSev5 (d : Dev) (os : List Occ) : Dev × List Occ :=
  os.foldl (fun (p : Dev × List Occ) o =>
    if 5 ≤ o.sev then
      let q := p.1.fireBase 6 o.src (p.1.matrixRow 259)
      (q.1, p.2 ++ q.2) else p) (d, [])

/-- Reactions of a list of occurrences of one core cycle: records and severity reactions, the cuts of
severity 5, and one discard where any reaches severity 4 (R244, R250, R251). -/
def Dev.react (d : Dev) (os : List Occ) : Dev :=
  let d1 := os.foldl Dev.reactOcc d
  let p := d1.fireSev5 os
  let q := p.1.fireSev5 p.2
  if (os ++ p.2 ++ q.2).any (fun o => 4 ≤ o.sev) then q.1.discard else q.1

/-- The instance that a detail word names, by the table of R243; none for a source without instances. -/
def instanceOf (src : Nat) (w : Word) : Option Nat :=
  if 0x020 ≤ src ∧ src ≤ 0x029 then some (bits w 7 0)
  else if 0x048 ≤ src ∧ src ≤ 0x04D then some (bits w 4 0)
  else if src = 0x083 then some (bits w 2 0)
  else if src = 0x0B2 then some (bits w 1 0)
  else if [0x008, 0x009, 0x00A, 0x062, 0x064, 0x078, 0x07A, 0x081, 0x082, 0x084, 0x091, 0x092, 0x093, 0x098, 0x099, 0x0A8,
      0x0A9, 0x0AA, 0x0B0, 0x0B1].contains src then some w.toNat
  else none

/-- A detail word put into the records of an occurrence of this core cycle. -/
def Dev.setDetail (d : Dev) (src : Nat) (old new : Word) : Dev :=
  let fix := fun (r : HankRec) =>
    if r.source = src ∧ r.detail = old ∧ (!d.tk.seqRun || r.tick == d.tk.tick && r.cycle == d.cyc % 65536) then { r with detail := new } else r
  let d := d.modSrc src (fun s => { s with detail := new })
  { d with flt := { d.flt with queue := d.flt.queue.map fix, fe := d.flt.fe.map fix, feLast := if d.flt.fe.isSome then fix d.flt.feLast else d.flt.feLast } }

/-- A further instance of a source that has occurred in this core cycle: the detail word is that of the lowest (R241). -/
def Dev.lowerDetail (d : Dev) (p : Nat × Word) : Dev :=
  let s := d.srcOf p.1
  match instanceOf p.1 p.2, instanceOf p.1 s.detail with
  | some n, some m => if s.status && s.occAt == some d.now && decide (n < m) then d.setDetail p.1 s.detail p.2 else d
  | _, _ => d

/-- Events of one core cycle (R241): each source is in its condition for that cycle only. -/
def Dev.events (d : Dev) (l : List (Nat × Word)) : Dev := (l.foldl Dev.lowerDetail d).react (d.occsOf l)

/-- One event source. -/
def Dev.event (d : Dev) (src : Nat) (detail : Word) : Dev := d.events [(src, detail)]

/-- A level source enters its condition: RAW sets and stays (R241). -/
def Dev.level (d : Dev) (src : Nat) (detail : Word) : Dev := (d.setRaw src true).event src detail

/-- The delay-line source's second occurrence at one more than its configured severity, 0 among them (R251). -/
def Dev.reoccur (d : Dev) (src : Nat) (detail : Word) : Dev :=
  d.react [{ src := src, sev := min 5 (d.sevOf src + 1), detail := detail }]

/-- A cut source asserts and fires a group mask (R188, R194). -/
def Dev.fire (d : Dev) (cls idx groups : Nat) : Dev :=
  if groups % 65536 = 0 then d
  else
    let p := d.fireBase cls idx groups
    let q := p.1.fireSev5 p.2
    if (p.2 ++ q.2).any (fun o => 4 ≤ o.sev) then q.1.discard else q.1

/-- A CUT_FIRE write (R201), with the groups that it holds against a release of its core cycle (R212). -/
def Dev.cutFire (d : Dev) (g : Nat) : Dev :=
  let was := if d.cut.firedAt = d.now + 1 then d.cut.fired else 0
  ({ d with cut := { d.cut with fired := was ||| g, firedAt := d.now + 1 } }).fire 5 1 g

/-- FAULT_STEPS: the sources that hold a fault step, those still returning among them, capped at 4 (R245). -/
def Dev.heldSteps (d : Dev) : Nat :=
  min 4 ((d.flt.srcs.filter (fun p => p.2.status && decide (3 ≤ p.2.occSev))).length + d.flt.returning)

/-- MAX_SEV (R256). -/
def Dev.maxSev (d : Dev) : Nat :=
  d.flt.srcs.foldl (fun m p => if p.2.status then max m p.2.occSev else m) 0

end Sys2Proof.Machine
end

