-- ==== Sys2Proof/Machine/Operands.lean ====
section
/-!
DEFINITION. The operand forms of the Iapin commands (R410 to R421): replies and status codes, the record
access form REC, the image form IMG, the way every command is taken or answered (R413, R414, R430), and
long-running commands (R416).
-/

namespace Sys2Proof.Machine

/-! ### Requests (R410) -/

/-- Argument word i of a request, i from 2 (R410). -/
def arg (r : Req) (i : Nat) : Word := wat r.args (i - 2)

/-- A request as a channel's request block holds it (R410); R412 gives the direction of a record access no bit, so it comes
with the request (note 12). -/
def Req.ofBlock (ch : Fin 32) (write : Bool) (ws : List Word) : Req :=
  { chan := ch, flags := BitVec.ofNat 16 (bits (wat ws 0) 31 16), w1 := wat ws 1, args := (fit 16 0 ws).drop 2, write := write }

/-- OPCODE of a request block (R410). -/
def opcodeOf (ws : List Word) : Nat := bits (wat ws 0) 15 0

/-- TB_CORRECT: the kind in word 2 is the command's; every one that the row does not list is taken by the first of them, which
answers BAD_ARG (R429). -/
def tbCommand (r : Req) : Instr :=
  match bits (arg r 2) 3 0 with
  | 1 => .tbStep r
  | 2 => .tbSlew r
  | 3 => .tbRate r
  | 4 => .tbState r
  | 5 => .tbHoldLimit r
  | _ => .tbSet r

/-- The command that an opcode names; none for one that no group table lists (R414, R422 to R429). -/
def commandOf (op : Nat) (r : Req) : Option Instr :=
  match op with
  | 0x0000 => some (.nop r)
  | 0x0001 => some (.info r)
  | 0x0002 => some (.query r)
  | 0x0010 => some (.severity r)
  | 0x0011 => some (.stopTh r)
  | 0x0012 => some (.thermal r)
  | 0x0020 => some (.cutMatrix r)
  | 0x0021 => some (.cutGroup r)
  | 0x0022 => some (.cut r)
  | 0x0023 => some (.cutRelease r)
  | 0x0030 => some (.port r)
  | 0x00FE => some (.deviceReset r)
  | 0x0101 => some (.mapLoad r)
  | 0x0102 => some (.mapRead r)
  | 0x0103 => some (.sectionStatus r)
  | 0x0104 => some (.encoder r)
  | 0x0105 => some (.strand r)
  | 0x0106 => some (.auxOut r)
  | 0x0107 => some (.returnCell r)
  | 0x0108 => some (.deepRest r)
  | 0x0109 => some (.wake r)
  | 0x010A => some (.endpointCmd r)
  | 0x010B => some (.bulkRing r)
  | 0x0201 => some (.recipeLoad r)
  | 0x0202 => some (.chanStage r)
  | 0x0203 => some (.localOffset r)
  | 0x0204 => some (.scale r)
  | 0x0205 => some (.dlTimeout r)
  | 0x0206 => some (.target r)
  | 0x0207 => some (.report r)
  | 0x0208 => some (.trim r)
  | 0x0209 => some (.trimPair r)
  | 0x020A => some (.trimStage r)
  | 0x020B => some (.trimDriver r)
  | 0x020C => some (.lockoutClear r)
  | 0x0301 => some (.coefWrite r)
  | 0x0302 => some (.coefRead r)
  | 0x0303 => some (.openClose r)
  | 0x0304 => some (.hold r)
  | 0x0305 => some (.flagClear r)
  | 0x0306 => some (.coefStage r)
  | 0x0307 => some (.allocStage r)
  | 0x0401 => some (.plyStart r)
  | 0x0402 => some (.claimStart r)
  | 0x0403 => some (.refereeTick r)
  | 0x0404 => some (.refereeStart r)
  | 0x0501 => some (.meterParam r)
  | 0x0502 => some (.pulseIn r)
  | 0x0503 => some (.pulseOut r)
  | 0x0504 => some (.meterClear r)
  | 0x0505 => some (.adc r)
  | 0x0506 => some (.adcUrgent r)
  | 0x0507 => some (.adcCal r)
  | 0x0508 => some (.adcCoef r)
  | 0x0601 => some (.safetyLoad r)
  | 0x0602 => some (.safetyConfirm r)
  | 0x0603 => some (.zoneRequest r)
  | 0x0604 => some (.resetArm r)
  | 0x0605 => some (.safetyStatus r)
  | 0x0701 => some (.arm r)
  | 0x0702 => some (.abort r)
  | 0x0703 => some (.tickConfig r)
  | 0x0704 => some (.warpLoad r)
  | 0x0705 => some (.seqStart r)
  | 0x0706 => some (.unstage r)
  | 0x0711 => some (.tb2Lane r)
  | 0x0712 => some (.ptp r)
  | 0x0713 => some (.frameSend r)
  | 0x0801 => some (.testMode r)
  | 0x0802 => some (.loopback r)
  | 0x0803 => some (.inject r)
  | 0x0804 => some (.capture r)
  | 0x0805 => some (.telemetry r)
  | 0x0F01 => some (.fwStage r)
  | 0x0F02 => some (.fwActivate r)
  | 0x0710 => some (tbCommand r)
  | _ => none

/-! ### Replies -/

/-- A reply before it is laid out: status code (R415) and words 2 onwards (R411). -/
structure Rep where
  status : Nat
  words  : List Word := []
  deriving DecidableEq, Repr

/-- OK with results. -/
def Rep.ok (ws : List Word) : Rep := ⟨0x0000, ws⟩
/-- ACCEPTED with TAG in word 2 (R416). -/
def Rep.accepted (r : Req) : Rep := ⟨0x0001, [word (tagOf r)]⟩
/-- BAD_ARG naming an argument word (R411). -/
def Rep.badArg (i : Nat) : Rep := ⟨0x0102, [word i]⟩
/-- BAD_ARG of an image that failed its checks, with the failing image word and more (R418). -/
def Rep.badImage (i : Nat) (more : List Word := []) : Rep := ⟨0x0102, word 0xFF :: word i :: more⟩
/-- BAD_OPCODE (R414, R415). -/
def Rep.badOpcode : Rep := ⟨0x0101, []⟩
/-- WRONG_STATE with a reason, or zero (R411). -/
def Rep.wrongState (reason : Nat := 0) : Rep := ⟨0x0103, [word reason]⟩
/-- BUSY (R415). -/
def Rep.busy : Rep := ⟨0x0104, []⟩
/-- NOT_BOUND (R398). -/
def Rep.notBound : Rep := ⟨0x0202, []⟩
/-- SAFETY_LOCKED with the LOCK_CAUSE code where one applies (R415). -/
def Rep.safetyLocked (cause : Nat := 0) : Rep := ⟨0x0301, [word cause]⟩
/-- NOT_ACTIVE (R430). -/
def Rep.notActive : Rep := ⟨0x0401, []⟩

/-- The 16 words of a reply block (R411). -/
def Rep.block (op : Nat) (r : Req) (p : Rep) : List Word :=
  fit 16 0 (pack [(16, p.status % 65536), (0, op % 65536)] :: r.w1 :: p.words)

/-- The body of a command: what it does once it is taken, and its reply. -/
abbrev Body := Req → Dev → Rep × Dev

/-- A body that answers and changes nothing. -/
def Dev.say (d : Dev) (p : Rep) : Rep × Dev := (p, d)

/-- OK for a write that landed at once (R411). -/
def Dev.doneNow (d : Dev) : Rep × Dev := (Rep.ok [d.nowTick], d)

/-- A write that lands at tick, with its LAND_TICK (R411). -/
def Dev.doneAtTick (d : Dev) (r : Req) (l : Landing) : Rep × Dev := (Rep.ok [d.landTickOf l], d.landFor r l)

/-- OK for a staged write (R411). -/
def Dev.doneStaged (d : Dev) : Rep × Dev := (Rep.ok [0xFFFFFFFF], d)

/-! ### How a command is taken -/

/-- The device is a member of a ply: role A or B (R213). -/
def Dev.isMember (d : Dev) : Bool := d.ply.role == .memberA || d.ply.role == .memberB

/-- Commands beside reads that a member outside CANDIDATE and ACTIVE takes (R430): PLY_START and CLAIM_START, for which R426 has an
answer of its own in every state, among them (note 49). -/
def takenOutside (op : Nat) : Bool :=
  [0x0000, 0x0001, 0x0002, 0x0022, 0x0030, 0x00FE, 0x0401, 0x0402, 0x0710, 0x0712, 0x0713].contains op || op / 256 == 0x06 || op / 256 == 0x08 || op / 256 == 0x0F

/-- Opcode groups a device in the referee role does not serve (R430). -/
def refereeRefuses (op : Nat) : Bool := [0x01, 0x02, 0x03, 0x05, 0x06, 0x07].contains (op / 256)

/-- The image loads, which alone may carry CHECK_ONLY (R410, R418). -/
def isImageLoad (op : Nat) : Bool := [0x0101, 0x0201, 0x0306, 0x0601, 0x0704, 0x0F01].contains op

/-- What a long-running command keeps busy (R431, note 185). -/
inductive Obj where
  | map | coefs | firmware
  | slot (n : Nat)
  | bank (b : Nat)
  | endpoint (k : Nat)
  | converter (c : Nat)
  | input (i : Nat)
  deriving DecidableEq, Repr

/-- The long-running commands (R416). -/
def longOps : List Nat := [0x0101, 0x010A, 0x0201, 0x0306, 0x0506, 0x0507, 0x0704, 0x0F01]

/-- The objects that a command names, among those that a long-running command can keep busy (R431, note 185). -/
def objectsOf (runBank op : Nat) (r : Req) : List Obj :=
  let w := arg r 2
  if op = 0x0101 then [.map]
  else if op = 0x0306 then [.coefs]
  else if op = 0x0F01 ∨ op = 0x0F02 then [.firmware]
  else if op = 0x0201 then [.slot (bits w 3 0)]
  else if op = 0x0704 ∨ op = 0x0705 then [.bank (bits w 0 0)]
  else if [0x0107, 0x0108, 0x0109, 0x010A].contains op then [.endpoint (bits w 7 0)]
  else if op = 0x0505 then [.converter (bits w 31 16)]
  else if op = 0x0506 then [.converter (bits w 2 0)]
  else if op = 0x0507 then [.input (bits w 4 0)]
  else if op = 0x0706 then
    (if bit w 0 then [.bank (1 - runBank)] else []) ++ (if bit w 1 then [.map] else []) ++ (if bit w 2 then [.coefs] else []) ++
    (if bit w 3 then (List.range 16).map Obj.slot else [])
  else []

/-- The long-running commands that still run. -/
def Dev.running (d : Dev) : List LongRun := d.host.longs.filter (fun l => l.state == .running)

/-- A command names an object that is under a running command (R431). -/
def Dev.underRun (d : Dev) (op : Nat) (r : Req) : Bool :=
  d.running.any (fun l => (objectsOf d.tk.runBank l.op l.req).any (fun o => (objectsOf d.tk.runBank op r).contains o))

/-- What refuses a command before its own checks: the channel's binding (R398), the reserved and
CHECK_ONLY bits of word 0 (R410), the role and the ply state (R430), and an object under a running command (R431).
The order is note 11's; a long-running command is judged busy after its arguments (R416). -/
def Dev.refusal (d : Dev) (op : Nat) (read : Bool) (r : Req) : Option Rep :=
  if !nbit (d.boxOf r.chan.val).groups (op / 256) then some .notBound
  else if r.flags.toNat / 2 ≠ 0 ∨ (r.flags.toNat % 2 = 1 ∧ !isImageLoad op) then
    some ⟨0x0102, [Config.freeWord d.fresh]⟩
  else if d.ply.role == .referee && refereeRefuses op then some .wrongState
  else if d.isMember && d.ply.pstate != .candidate && d.ply.pstate != .active && !read &&
      !takenOutside op then some .notActive
  else if !read && !longOps.contains op && d.underRun op r then some .busy
  else none

/-- A reply given: kept as the channel's stored reply unless DISCARDED or ACCEPTED (R413), and put into
the reply block of a channel in PICKED or LANDED (R399). -/
def Dev.answer (d : Dev) (op : Nat) (r : Req) (p : Rep) : Dev :=
  let b := p.block op r
  let d := d.modBox r.chan.val (fun c =>
    { c with
      stored := if p.status = 0x0201 ∨ p.status = 0x0001 then c.stored else some (r.w1, b)
      rep := if c.picked then b else c.rep })
  { d with host := { d.host with lastReply := b } }

/-- The stored reply that answers a repeated request (R413). -/
def Dev.storedReply (d : Dev) (r : Req) : Option (List Word) :=
  match (d.boxOf r.chan.val).stored with
  | some (w1, b) => if w1 = r.w1 then some b else none
  | none => none

/-- A stored reply given again (R413). -/
def Dev.repeatReply (d : Dev) (r : Req) (b : List Word) : Dev :=
  let d := d.modBox r.chan.val (fun c => { c with rep := if c.picked then b else c.rep })
  { d with host := { d.host with lastReply := b } }

/-- Writes that the standby lands from the log: all but those that every member takes for itself (R430) and the
arm, the abort and the cut release, which travel in the seal by themselves (R219). -/
def mirrored (op : Nat) : Bool := !takenOutside op && op != 0x0701 && op != 0x0702 && op != 0x0023

/-- An OK that waits: the device is a ply active whose seal takes the write (R239, R432). -/
def Dev.waitsForSeal (d : Dev) (op : Nat) (read : Bool) (p : Rep) : Bool :=
  d.sealsWrites && d.tk.seqRun && !read && !takenOutside op && p.status == 0

/-- The reply of a command given, or kept until the write has been sealed (R432), or until the stop of an injection has landed
(R462). -/
def Dev.give (d : Dev) (op : Nat) (read : Bool) (r : Req) (p : Rep) : Dev :=
  if op == 0x0803 && d.test.stops.any (fun x => x.req == r) then d
  else if d.waitsForSeal op read p then
    { d with ply := { d.ply with answers := d.ply.answers ++ [{ op := op, req := r, status := p.status, words := p.words }] } }
  else d.answer op r p

/-- A command of the list is complete: its final reply is kept and its notice given (R416). -/
def Dev.closeLong (d : Dev) (op : Nat) (r : Req) (p : Rep) : Dev :=
  let x : LongRun := { op := op, req := r, state := .running }
  if d.host.longs.contains x then
    let done := d.host.longs.map (fun y => if y = x then { y with state := .complete p.status p.words } else y)
    ({ d with host := { d.host with longs := done } } : Dev).notice r.chan.val (tagOf r) p.status op
  else d

/-- The OKs that waited for the seal. -/
def Dev.giveAnswers (d : Dev) : Dev :=
  d.ply.answers.foldl (fun d a => if a.final then d.closeLong a.op a.req ⟨a.status, a.words⟩ else d.answer a.op a.req ⟨a.status, a.words⟩)
    { d with ply := { d.ply with answers := [] } }

/-- The active's write log takes each accepted write (R219); an image load follows when it completes. -/
def Dev.logWrite (d : Dev) (op : Nat) (read : Bool) (r : Req) (p : Rep) : Dev :=
  if d.isMember && d.ply.pstate == .active && !read && mirrored op && (p.status == 0 || op == 0x010A && p.status == 1) then
    { d with ply := { d.ply with log := d.ply.log ++ [{ op := op, req := r }] } }
  else d

/-- Opcodes whose writes a ply active seals within the tick: those that the standby lands from the log or from the
seal (R219). An image load, which is long-running, is logged when it completes. -/
def sealedOps : List Nat :=
  [0x0010, 0x0011, 0x0012, 0x0020, 0x0021, 0x0023, 0x0103, 0x0104, 0x0105, 0x0106, 0x0107, 0x0108, 0x0109, 0x010A, 0x010B,
   0x0202, 0x0203, 0x0204, 0x0205, 0x0208, 0x0209, 0x020A, 0x020B, 0x020C, 0x0301, 0x0303, 0x0304, 0x0305, 0x0307, 0x0501,
   0x0502, 0x0503, 0x0504, 0x0505, 0x0701, 0x0702, 0x0703, 0x0706, 0x0711]

/-- A write that counts as accepted in the next tick: a ply active is in its guard window (R80, R432). -/
def Dev.defers (d : Dev) (op : Nat) (read : Bool) : Bool := d.sealsWrites && d.inGuard && !read && sealedOps.contains op

/-- A command that is taken: the body acts, its reply is given, and an active logs the write. -/
def iapinBody (op : Nat) (read : Bool) (body : Body) (r : Req) (d : Dev) : Dev :=
  let q := body r d
  (q.2.give op read r q.1).logWrite op read r q.1

/-- A request block holds a command: its opcode, TAG and SEQ, flags and arguments (R410). -/
def spells (ws : List Word) (op : Nat) (r : Req) : Bool :=
  opcodeOf ws == op && bits (wat ws 0) 31 16 == r.flags.toNat && wat ws 1 == r.w1 && (fit 16 0 ws).drop 2 == fit 14 0 r.args

/-- The firmware carries a command out: of a channel that holds a message, the one that its request block spells, once it is picked
up (R402, R410, R414); a command of a channel that holds none stands for its message as well (note 207). -/
def Dev.carries (d : Dev) (op : Nat) (r : Req) : Bool :=
  let c := d.boxOf r.chan.val
  !c.go || c.rspId != 0x20 || (c.picked && spells c.req op r)

/-- A command that the firmware carries out: a repeated request is answered from the store (R413); a refusal changes nothing; a
write of a ply active in its guard window waits for the next tick (R432); else the command is taken. -/
def carryOut (op : Nat) (read : Req → Bool) (body : Body) (r : Req) (d : Dev) : Dev :=
  match d.storedReply r with
  | some b => d.repeatReply r b
  | none =>
    match d.refusal op (read r) r with
    | some p => d.useFresh.answer op r p
    | none =>
      if d.defers op (read r) then
        { d with ply := { d.ply with deferred := d.ply.deferred ++ [{ op := op, req := r }] } }
      else iapinBody op (read r) body r d

/-- An Iapin command: nothing before the firmware is ready (BOOT_STAGE 3, R389), nor while its channel holds another message. -/
def iapin (op : Nat) (read : Req → Bool) (body : Body) (r : Req) (d : Dev) : Dev :=
  if d.host.bootStage ≠ 3 ∨ d.carries op r = false then d else carryOut op read body r d

/-- An opcode that only reads (R430). -/
def reads (_ : Req) : Bool := true
/-- An opcode that only writes. -/
def writes (_ : Req) : Bool := false
/-- A record access opcode whose request names the direction (note 12). -/
def readsRec (r : Req) : Bool := !r.write

/-! ### REC -/

/-- A record access that passed its range checks (R412). -/
structure RecForm where
  index : Nat
  first : Nat
  count : Nat
  data  : List Word
  deriving DecidableEq, Repr

/-- The record access of a request, for so many objects of so many words; none completes with BAD_ARG
and word 2 = 2 (R412). -/
def recForm (r : Req) (objs size : Nat) : Option RecForm :=
  let w := arg r 2
  let f : RecForm := { index := bits w 31 16, first := bits w 15 8, count := bits w 7 0, data := r.args.drop 1 }
  if f.count = 0 ∨ 13 < f.count ∨ objs ≤ f.index ∨ size < f.first + f.count then none else some f

/-- The word a record write carries for record word i (R412). -/
def RecForm.wordFor (f : RecForm) (i : Nat) : Option Word :=
  if f.first ≤ i ∧ i < f.first + f.count then some (wat f.data (i - f.first)) else none

/-- Record word i as the write leaves it: the carried word, or `old`. -/
def RecForm.wordOr (f : RecForm) (i : Nat) (old : Word) : Word := (f.wordFor i).getD old

/-- The argument word that carries record word i. -/
def RecForm.argOf (f : RecForm) (i : Nat) : Nat := 3 + i - f.first

/-- The reply of a record read (R411). -/
def RecForm.readReply (f : RecForm) (r : Req) (words : List Word) : Rep :=
  .ok (arg r 2 :: fit f.count 0 (words.drop f.first))

/-- A read-only record. -/
def recRead (objs size : Nat) (words : Dev → Nat → List Word) : Body := fun r d =>
  match recForm r objs size with
  | none => d.say (.badArg 2)
  | some f => d.say (f.readReply r (words d f.index))

/-! ### IMG -/

/-- First and last byte of the converter buffer area (R395). -/
def areaLo : Nat := 0x1000000
/-- The byte after the converter buffer area. -/
def areaEnd : Nat := 0x1380000

/-- The checks of word 3 and word 4 that need no image (R418); `size` is the object's fixed size. -/
def imgArgs (r : Req) (size : Option Nat) : Option Rep :=
  let off := (arg r 3).toNat
  let len := (arg r 4).toNat
  if off % 64 ≠ 0 ∨ off < areaLo ∨ areaEnd < off + len then some (.badArg 3)
  else if len = 0 ∨ len % 4 ≠ 0 ∨ (size ≠ none ∧ size ≠ some len) then some (.badArg 4)
  else none

/-- The image's words (R418). -/
def Dev.image (d : Dev) (r : Req) : List Word := memWords d.bar2 (arg r 3).toNat ((arg r 4).toNat / 4)

/-- The CRC of the image agrees with word 5 (R418, R168). -/
def Dev.imageCrcOk (d : Dev) (r : Req) : Bool := decide (crc32 (wordsBytes (d.image r)) = arg r 5)

/-- CHECK_ONLY of a request (R410). -/
def checkOnly (r : Req) : Bool := r.flags.getLsbD 0

/-! ### Long-running commands -/

/-- A long-running command accepted, or BUSY when 8 are outstanding or its object is under one (R416,
R431). -/
def Dev.beginLong (d : Dev) (op : Nat) (r : Req) : Rep × Dev :=
  if 8 ≤ d.running.length ∨ d.underRun op r then
    d.say .busy
  else (.accepted r,
    { d with host := { d.host with longs := d.host.longs ++ [{ op := op, req := r, state := .running }] } })

/-- How an image load is taken: the checks of words 2, 3 and 4 in their order, then whether the target may be loaded now, then
long-running (R411, R418). -/
def imgStart (op : Nat) (size : Option Nat) (target : Word → Bool) (taken : Req → Dev → Bool) : Body := fun r d =>
  if !target (arg r 2) then d.say (.badArg 2)
  else match imgArgs r size with
    | some p => d.say p
    | none => if taken r d then d.say .wrongState else d.beginLong op r

/-- The end of an image load: the length that the image's own words give, where it does, and the CRC, in the order of the
argument words, then the image's own checks and its effect (R411, R418). -/
def imgFinish (size : List Word → Option Nat) (act : List Word → Body) : Body := fun r d =>
  let n := size (d.image r)
  if n ≠ none ∧ n ≠ some (arg r 4).toNat then d.say (.badArg 4)
  else if !d.imageCrcOk r then d.say (.badArg 5)
  else act (d.image r) r d

end Sys2Proof.Machine
end

