-- ==== Sys2Proof/Machine/Access.lean ====
section
/-!
DEFINITION. Master identities and write access to the register space (R9, R396, R397).
-/

namespace Sys2Proof.Machine

/-- The identity of a master (R396). -/
def masterId : Master → Nat
  | .pcie0 => 0x01
  | .pcie1 => 0x02
  | .qspi => 0x10
  | .mgmt => 0x20
  | .island => 0x30
  | .partner => 0x40
  | .referee => 0x50

/-- The access table's index of a host identity (R397). -/
def hostIndex (id : Nat) : Option Nat :=
  if id = 0x01 then some 0 else if id = 0x02 then some 1 else if id = 0x10 then some 2 else none

/-- A PCIe lane runs PRBS31, which keeps the PCIe link down (R459). -/
def Dev.pcieDown (d : Dev) : Bool := d.test.lanes.any (fun p => p.1 / 256 == 3 && p.2.mode != 0)

/-- The PCIe link trains anew: its lanes and its rate are the link partner's, and free (R390, R460, note 183). -/
def Dev.retrainPcie (d : Dev) : Dev :=
  { d with host := { d.host with
      linkLanes := 1 + Config.freeNat d.fresh % 2, linkRate := Config.freeNat (d.fresh + 1) % 3 }, fresh := d.fresh + 2 }

/-- The PCIe function a master stands for is in D3hot, or no request of it can arrive, so its BAR requests are not served (R392,
R459). -/
def Dev.asleep (d : Dev) (m : Master) : Bool :=
  match fnOfId (masterId m) with
  | some n => (d.fnOf n).d3hot || d.pcieDown
  | none => false

/-- A BAR request that completes with Unsupported Request, which AER records (R390, R391, R392, note 183); over a link that is down
none arrives (R459). -/
def Dev.unsupported (d : Dev) (m : Master) : Dev :=
  match fnOfId (masterId m) with
  | some n => if d.pcieDown then d else d.modFn n (fun f => { f with urs := f.urs + 1, aer := f.aer ||| 0x00100000 })
  | none => d

/-- A write request beyond the maximum payload size, which is malformed: the endpoint drops it, and AER records it (R390, note
183). -/
def Dev.malformed (d : Dev) (m : Master) : Dev :=
  match fnOfId (masterId m) with
  | some n => if d.pcieDown then d else d.modFn n (fun f => { f with aer := f.aer ||| 0x00040000 })
  | none => d

/-- A master may write a block of the access table (R397): the management processor always, a host
identity by its WR_EN bit. -/
def Dev.mayWrite (d : Dev) (m : Master) (block : Nat) : Bool :=
  masterId m == 0x20 ||
  (match hostIndex (masterId m) with
   | some i => nbit (tblGet {} d.host.wrEn i).value block
   | none => false)

/-- A refused write counted in the writer's ACC_VIOL (R397). -/
def Dev.violation (d : Dev) (m : Master) : Dev :=
  d.modInt (masterId m) (fun b => { b with viol := satInc 16 b.viol })

/-- A register write by a master to a block of the access table: served only while the main logic runs and
the port is awake; a write that is not permitted is ignored and counted (R392, R397). -/
def Dev.guarded (d : Dev) (m : Master) (block : Nat) (f : Dev → Dev) : Dev :=
  if d.asleep m then d.unsupported m else if d.mayWrite m block then f d else d.violation m

/-- A register read by a master: every host identity may read every block (R397). -/
def Dev.served (d : Dev) (m : Master) (f : Dev → Dev) : Dev := if d.asleep m then d.unsupported m else f d

/-- The addressed bytes of a word, in the low bytes of the result (R9). -/
def readBytes (b : ReadBytes) (w : Word) : Word := word (nbits w.toNat (8 * (b.first.val + b.count.val) - 1) (8 * b.first.val))

/-- The word a whole read returns, kept as the model's image of the read port. -/
def Dev.giveRead (d : Dev) (w : Word) : Dev := { d with host := { d.host with readData := w } }

/-- A read of some bytes of a word: it returns those, and everything else it does is what a read of the whole word does
(R9). -/
def Dev.giveBytes (d : Dev) (b : ReadBytes) (w : Word) : Dev := d.giveRead (readBytes b w)

end Sys2Proof.Machine
end

