-- ==== Sys2Proof/Machine/FaultCut.lean ====
section
/-!
DEFINITION. Commands of the fault collector (R240 to R257) and of the cut path (R188 to R201): severities,
clears, the hank, cut sources, matrix and groups, firing and releasing.
-/

namespace Sys2Proof.Machine

/-! ### Severities -/

/-- SEVERITY (R242). -/
def bodySeverity : Body := fun r d =>
  let src := bits (arg r 2) 8 0
  let sev := bits (arg r 3) 2 0
  match sevDefault src with
  | none => d.say (.badArg 2)
  | some (_, lo) => if 5 < sev ∨ sev < lo then d.say (.badArg 3) else d.doneAtTick r (.severity src sev)

/-- SEVERITY command. -/
def execSeverity (r : Req) (s : State) : Host.Outcome State Fault Refusal :=
  onMain (iapin 0x0010 writes bodySeverity r) s

/-- STOP_TH (R242). -/
def bodyStopTh : Body := fun r d =>
  let v := bits (arg r 2) 2 0
  if v = 0 ∨ 5 < v then d.say (.badArg 2) else d.doneAtTick r (.stopTh v)

/-- STOP_TH command. -/
def execStopTh (r : Req) (s : State) : Host.Outcome State Fault Refusal :=
  onMain (iapin 0x0011 writes bodyStopTh r) s

/-! ### Leaving the fault state -/

/-- STATUS of one source written 1: it clears if RAW is clear, and a fault step it held starts to return
(R245, R252). -/
def Dev.clearStatus (d : Dev) (n : Nat) : Dev :=
  let s := d.srcOf n
  if s.status && !s.raw then
    let was := d.stopping
    let d := d.modSrc n (fun x => { x with status := false, occSev := 0, clearedAt := if 3 ≤ s.occSev then some d.now else none })
    let d := d.noteStop was
    if 3 ≤ s.occSev then { d with flt := { d.flt with returning := d.flt.returning + 1 } } else d
  else d

/-- STATUS_CLEAR: a write of word w of STATUS (R252, R256). -/
def execStatusClear (m : Master) (w : Fin 16) (v : Word) (s : State) : Host.Outcome State Fault Refusal :=
  onMain (fun d => d.guarded m 1 (fun d =>
    forEach (maskBits 32 v.toNat) (fun b d => d.clearStatus (32 * w.val + b)) d)) s

/-- HANK_ACK (R249): entries up to SEQ a no longer count as unacknowledged. -/
def Dev.ackHank (d : Dev) (a : Nat) : Dev :=
  let left := (d.flt.lastSeq + 65536 - a) % 65536
  { d with flt := { d.flt with hankAck := a, hankCount := min d.flt.hankCount left } }

/-- HANK_ACK write. -/
def execHankAck (m : Master) (v : Word) (s : State) : Host.Outcome State Fault Refusal :=
  onMain (fun d => d.guarded m 1 (fun d => d.ackHank (bits v 31 16))) s

/-- FE_VALID written 1 (R248). -/
def execFeValidClear (m : Master) (v : Word) (s : State) : Host.Outcome State Fault Refusal :=
  onMain (fun d => d.guarded m 1 (fun d =>
    if bit v 31 then { d with flt := { d.flt with fe := none } } else d)) s

/-- The head of the hank queue takes the next sequence number and its slot (R249, R250). -/
def Dev.hankStep (d : Dev) : Dev :=
  match d.flt.queue with
  | [] => d
  | r :: rest =>
    let f := d.flt
    let q := (f.lastSeq + 1) % 65536
    { d with flt := { f with
        queue := rest, lastSeq := q
        slots := tblSet {} f.slots (q % 32) { r with seq := q }
        hankOvf := if 32 ≤ f.hankCount then satInc 16 f.hankOvf else f.hankOvf
        hankCount := min 32 (f.hankCount + 1) } }

/-- HANK_ENTRY: one core cycle of the hank (R250). -/
def execHankEntry (s : State) : Host.Outcome State Fault Refusal := onMain Dev.hankStep s

/-- WATCHDOG_EXPIRY (R243); the time of WDOG_RESET runs from it (R439). -/
def execWatchdogExpiry (s : State) : Host.Outcome State Fault Refusal :=
  onMain (fun d => { d with pwr := { d.pwr with wdogAt := some d.now } }.event 0x0C0 0) s

/-! ### Cut sources -/

/-- CUT_IN_N low (R188). -/
def execCutIn (s : State) : Host.Outcome State Fault Refusal :=
  onMain (fun d =>
    if d.cut.cutIn then d
    else ({ d with cut := { d.cut with cutIn := true } }).fire 3 0 (d.matrixRow 257)) s

/-- CUT_IN_N high again (R188). -/
def execCutInDeassert (s : State) : Host.Outcome State Fault Refusal :=
  onMain (fun d => { d with cut := { d.cut with cutIn := false } }) s

/-- PLY_CUT_IN high (R188). -/
def execPlyCutIn (s : State) : Host.Outcome State Fault Refusal :=
  onMain (fun d =>
    if d.cut.plyCutIn then d
    else ({ d with cut := { d.cut with plyCutIn := true } }).fire 4 0 (d.matrixRow 258)) s

/-- PLY_CUT_IN low again (R188). -/
def execPlyCutInDeassert (s : State) : Host.Outcome State Fault Refusal :=
  onMain (fun d => { d with cut := { d.cut with plyCutIn := false } }) s

/-- A strand listens for CUT symbols in DETECT, TRAIN, LOCK, CAPS and ACTIVE (R188). -/
def StrandState.hearsCut : StrandState → Bool
  | .detect | .train | .lock | .caps | .active => true
  | .off | .deep | .failed => false

/-- Two consecutive CUT symbols on a strand (R188); one under a test mode is no cut source (R458). -/
def execCutSymbols (k : Fin 256) (s : State) : Host.Outcome State Fault Refusal :=
  onMain (fun d =>
    let st := d.strandOf k.val
    if d.strandCount ≤ k.val || !st.state.hearsCut || st.cutSrc || d.underTest 0 k.val then d
    else (d.modStrand k.val (fun x => { x with cutSrc := true })).fire 1 k.val (d.matrixRow k.val)) s

/-- One tick after the last CUT symbol the STRAND source deasserts (R188). -/
def execStrandSourceEnd (k : Fin 256) (s : State) : Host.Outcome State Fault Refusal :=
  onMain (fun d => d.modStrand k.val (fun x => { x with cutSrc := false })) s

/-- CUT_FIRE by a host (R201). -/
def execCutFire (m : Master) (v : Word) (s : State) : Host.Outcome State Fault Refusal :=
  onMain (fun d => d.guarded m 0 (fun d => d.cutFire (bits v 15 0))) s

/-- CUT (R190): a FIRMWARE source with index 0. -/
def bodyCut : Body := fun r d => (d.fire 5 0 (bits (arg r 2) 15 0)).doneNow

/-- CUT command. -/
def execCut (r : Req) (s : State) : Host.Outcome State Fault Refusal :=
  onMain (iapin 0x0022 writes bodyCut r) s

/-! ### Release -/

/-- Groups that some asserted level or strand source maps to (R195). -/
def Dev.assertedGroups (d : Dev) : Nat :=
  (List.range d.strandCount).foldl (fun m k => if (d.strandOf k).cutSrc then m ||| d.matrixRow k else m)
    ((if d.cut.cutIn then d.matrixRow 257 else 0) ||| (if d.cut.plyCutIn then d.matrixRow 258 else 0))

/-- Boundaries that a release accepted now lets pass before it lands (R195: the guard window holds on every
device). -/
def Dev.releaseSkip (d : Dev) : Nat := if d.inGuard || d.late16 then 1 else 0

/-- CUT_RELEASE (R195): refused while a mapped source is asserted, else it lands at a later boundary. -/
def bodyCutRelease : Body := fun r d =>
  let g := bits (arg r 2) 15 0
  if d.assertedGroups &&& g ≠ 0 then d.say (.wrongState 2)
  else
    let t := if d.tk.seqRun then word (d.tk.tick + 1 + d.releaseSkip) else 0
    (.ok [t], { d with cut := { d.cut with releases := d.cut.releases ++ [(g, d.acceptedNow (b1 d.inGuard))] } })

/-- CUT_RELEASE command. -/
def execCutRelease (r : Req) (s : State) : Host.Outcome State Fault Refusal :=
  onMain (iapin 0x0023 writes bodyCutRelease r) s

/-! ### Matrix and groups -/

/-- CUT_MATRIX (R189). DESIGN CHOICE (note 170): a row that now names an uncut group fires nothing for a source that is asserted
already; the source fires when it asserts anew. -/
def bodyCutMatrix : Body := fun r d =>
  match recForm r 260 1 with
  | none => d.say (.badArg 2)
  | some f =>
    if !r.write then d.say (f.readReply r [word (d.matrixRow f.index)])
    else if f.index < 256 ∧ d.strandCount ≤ f.index then d.say (.badArg 2)
    else if d.tk.seqRun then d.say (.wrongState 1)
    else
      let m := tblSet 0xFFFF d.cut.matrix f.index (bits (f.wordOr 0 0) 15 0)
      Dev.doneNow { d with cut := { d.cut with matrix := m } }

/-- CUT_MATRIX command. -/
def execCutMatrix (r : Req) (s : State) : Host.Outcome State Fault Refusal :=
  onMain (iapin 0x0020 readsRec bodyCutMatrix r) s

/-- The ten words of a group record (R189); masks of absent strands read zero. -/
def Dev.groupWords (d : Dev) (g : Nat) : List Word :=
  let c := d.groupOf g
  (List.range 8).map (fun w => if d.strandCount ≤ 32 * w then 0 else wat c.strands w) ++
    [c.trims, pack [(1, b1 c.plyOut), (0, b1 c.cutOut)]]

/-- A group record with the carried words in place. -/
def CutGroup.write (c : CutGroup) (f : RecForm) : CutGroup :=
  let w9 := f.wordOr 9 (pack [(1, b1 c.plyOut), (0, b1 c.cutOut)])
  { strands := (List.range 8).map (fun w => f.wordOr w (wat c.strands w))
    trims := f.wordOr 8 c.trims, plyOut := bit w9 1, cutOut := bit w9 0 }

end Sys2Proof.Machine
end

