-- ==== Sys2Proof/Machine/Clocks.lean ====
section
/-!
DEFINITION. Clocks and time bases (R327 to R347): the PLL states, the time bases with their corrections
and captures, TB2 and its lane (R84), the tick alignment (R37) and the sync chain (R150, R151).
-/

namespace Sys2Proof.Machine

/-! ### PLLs (R328, R333 to R335) -/

/-- A PLL of the device. -/
def Dev.pll (d : Dev) (p : PllId) : Pll := match p with | .a => d.clk.pllA | .b => d.clk.pllB

/-- A PLL changed by f. -/
def Dev.modPll (d : Dev) (p : PllId) (f : Pll → Pll) : Dev :=
  match p with
  | .a => { d with clk := { d.clk with pllA := f d.clk.pllA } }
  | .b => { d with clk := { d.clk with pllB := f d.clk.pllB } }

/-- The nominal VCO frequency in Hz (R329, R330). -/
def vcoHz : PllId → Nat
  | .a => 12500000000
  | .b => 10312500000

/-- N in units of 2^-32 for a reference frequency, to the nearest (R328). -/
def fbWord (p : PllId) (refHz : Nat) : Nat := (2 * vcoHz p * 2 ^ 32 + refHz) / (2 * refHz)

/-- The number of a PLL in a detail word (R243). -/
def pllNum : PllId → Nat
  | .a => 0
  | .b => 1

/-- The configured N in units of 2^-32, and the one in use. -/
def Pll.cfgN (x : Pll) : Int := (x.fbInt * 2 ^ 32 + x.fbFrac : Nat)
def Pll.offset (x : Pll) : Int := x.steer + x.slewN
def Pll.nowN (x : Pll) : Int := x.cfgN + x.offset

/-- OFF to ACQUIRE, with the divider that the boot ROM computes (R328, R333). -/
def Dev.startPll (d : Dev) (p : PllId) : Dev :=
  if (d.pll p).state == .off && (d.pll p).refOk then
    d.modPll p (fun x => { x with state := .acquire, fbInt := fbWord p d.cfg.refHz / 2 ^ 32
                                  fbFrac := fbWord p d.cfg.refHz % 2 ^ 32 })
  else d

/-- The unlock source of a PLL (R243). -/
def Dev.unlockEvent (d : Dev) (p : PllId) : Dev :=
  d.event (match p with | .a => 0x060 | .b => 0x061) 0

/-- A PLL that has locked: no return slew is sought any more, and what is left of one is left within R331 (R333, R335). -/
def Pll.toLocked (x : Pll) : Pll := { x with state := .locked, lock := true, everLocked := true, slewing := false, slewErr := 0 }

/-- What the first lock of a PLL fixes: the delay that centres the delay line, and the phase of the timestamp clock, both
free (R329, R338, note 177). -/
def Dev.firstLock (d : Dev) (p : PllId) : Dev :=
  if (d.pll p).everLocked then d
  else match p with
    | .a => ({ d with clk := { d.clk with dlDelay := Config.freeNat d.fresh % 64 } }).useFresh
    | .b => ({ d with clk := { d.clk with tsPhase := Config.freeNat d.fresh % 2 ^ 64 } }).useFresh

/-- A PLL in LOCKED: its outputs run from its first lock on, and the first lock of PLL_A ends boot stage 0 (R328, R331, R333,
R442). -/
def Dev.lockPll (d : Dev) (p : PllId) : Dev :=
  let d := (d.firstLock p).modPll p Pll.toLocked
  if p = .a ∧ d.host.bootStage = 0 then d.setStage 1 else d

/-- CLKOUT_0 or CLKOUT_1 runs: enabled, from the first lock of its PLL (R329, R330, R331). -/
def Dev.clkoutRuns (d : Dev) (p : PllId) : Bool :=
  !d.pwr.held && (d.pll p).everLocked && (match p with | .a => d.cfg.clkout0.en | .b => d.cfg.clkout1.en)

/-- The nominal frequency in Hz of CLKOUT_0 or CLKOUT_1 (R329, R330). -/
def Dev.clkoutHz (d : Dev) (p : PllId) : Rat :=
  (vcoHz p : Rat) / ((match p with | .a => d.cfg.clkout0.div | .b => d.cfg.clkout1.div : Nat) : Rat)

/-- The delay in ps of CLKOUT_0 or CLKOUT_1: whole VCO periods of 80 ps or 97 ps (R329, R330). -/
def Dev.clkoutDelay (d : Dev) (p : PllId) : Nat :=
  match p with | .a => 80 * d.cfg.clkout0.delay.val | .b => 97 * d.cfg.clkout1.delay.val

/-- PLL_LOCKED: LOCK has been set for 1 ms in ACQUIRE; the lock of PLL_A ends boot stage 0 (R333, R442). -/
def execPllLocked (p : PllId) (s : State) : Host.Outcome State Fault Refusal :=
  onMain (fun d =>
    if (d.pll p).state == .acquire then d.lockPll p else d) s

/-- LOCK_CLEAR: the comparator clears LOCK; in RETURN it changes no state (R332, R333). -/
def execLockClear (p : PllId) (s : State) : Host.Outcome State Fault Refusal :=
  onMain (fun d =>
    let x := d.pll p
    if x.state == .locked && x.refOk then
      (d.modPll p (fun x => { x with state := .acquire, lock := false, unlockCnt := satInc 16 x.unlockCnt })).unlockEvent p
    else if x.state == .acquire || x.state == .ret then d.modPll p (fun x => { x with lock := false })
    else d) s

/-- ACQUIRE_TIMEOUT: 20 ms in ACQUIRE; the calibration restarts (R333). -/
def execAcquireTimeout (p : PllId) (s : State) : Host.Outcome State Fault Refusal :=
  onMain (fun d =>
    if (d.pll p).state == .acquire && (d.pll p).everLocked then d.unlockEvent p else d) s

/-- The sum of offsets over the core cycles from lo to hi, each times the cycles it stood. -/
def weighOffsets : List (Nat × Int) → Nat → Nat → Int
  | [], _, _ => 0
  | (t, o) :: rest, hi, lo =>
    if t ≤ lo then ((hi - lo : Nat) : Int) * o else ((hi - t : Nat) : Int) * o + weighOffsets rest (min t hi) lo

/-- Core cycles of 256 reference periods. -/
def refWindow (refHz : Nat) : Nat := 256 * 1250000000 / refHz

/-- Entries up to the first that stood already at core cycle lo. -/
def keepSince : List (Nat × Int) → Nat → List (Nat × Int)
  | [], _ => []
  | p :: rest, lo => if p.1 ≤ lo then [p] else p :: keepSince rest lo

/-- The offset of N in use is noted at a core cycle. -/
def Pll.note (x : Pll) (now refHz : Nat) : Pll :=
  { x with recent := keepSince ((now, x.offset) :: x.recent) (now - refWindow refHz) }

/-- The offsets of both PLLs noted after a boundary has moved them. -/
def Dev.notePlls (d : Dev) : Dev :=
  { d with clk := { d.clk with pllA := d.clk.pllA.note d.now d.cfg.refHz, pllB := d.clk.pllB.note d.now d.cfg.refHz } }

/-- The mean offset of N over the last 256 reference periods (R333); how the mean is rounded is free (note 22). -/
def Pll.meanOffset (x : Pll) (now refHz e : Nat) : Int :=
  if refWindow refHz = 0 then x.offset
  else roundFree ((weighOffsets x.recent now (now - refWindow refHz) : Int) / (refWindow refHz : Rat)) e

/-- A PLL that enters HOLDOVER when the reference is lost: its tuning word is frozen at its mean, and steering goes on from there
(R333, R347). -/
def Pll.toHoldover (x : Pll) (now refHz e : Nat) : Pll :=
  match x.state with
  | .locked | .acquire | .ret =>
    let f := x.meanOffset now refHz e
    { x with refOk := false, state := .holdover, slewing := false, slewErr := 0, frozen := f, slewN := f - x.steer, slewStep := 0
             holdoverCnt := satInc 16 x.holdoverCnt }
  | .off | .holdover => { x with refOk := false }

/-- A PLL state from which a lost reference leads to HOLDOVER. -/
def PllState.canHold : PllState → Bool
  | .locked | .acquire | .ret => true
  | .off | .holdover => false

/-- REF_LOST: both PLLs lose their one reference in the same cycle, and one that a reset holds in OFF has none (R333, R334). -/
def execRefLost (s : State) : Host.Outcome State Fault Refusal :=
  onDev (fun d =>
    let a := d.clk.pllA.state.canHold
    let b := d.clk.pllB.state.canHold
    let d := { d with
      clk := { d.clk with pllA := d.clk.pllA.toHoldover d.now d.cfg.refHz d.fresh
                          pllB := d.clk.pllB.toHoldover d.now d.cfg.refHz (d.fresh + 1) }
      fresh := d.fresh + 2 }
    if a then d.event 0x062 0 else if b then d.event 0x062 1 else d) s

/-- A phase error in ps within 1/8 of a reference period (R335). -/
def smallError (refHz : Nat) (e : Int) : Bool := decide (e.natAbs * 8 * refHz ≤ 1000000000000)

/-- A PLL after the reference is valid again with a phase error in ps: RETURN slews a small error out, which stands until then, and
a larger one is built out (R333, R335). -/
def Pll.refBack (x : Pll) (refHz : Nat) (e : Int) : Pll :=
  match x.state with
  | .holdover =>
    if smallError refHz e then { x with refOk := true, state := .ret, slewing := true, slewErr := e * x.cfgN }
    else { x with refOk := true, state := .ret, buildout := satI 32 (x.buildout + e) }
  | .off | .acquire | .locked | .ret => { x with refOk := true }

/-- A PLL builds its phase out on the return of the reference. -/
def Pll.buildsOut (x : Pll) (refHz : Nat) (e : Int) : Bool := x.state == .holdover && !smallError refHz e

/-- REF_VALID with the phase errors measured on entry to RETURN (R334, R335). -/
def execRefValid (errA errB : Int) (s : State) : Host.Outcome State Fault Refusal :=
  onDev (fun d =>
    let hz := d.cfg.refHz
    let a := d.clk.pllA.buildsOut hz errA
    let b := d.clk.pllB.buildsOut hz errB
    let d := { d with clk := { d.clk with pllA := d.clk.pllA.refBack hz errA, pllB := d.clk.pllB.refBack hz errB } }
    if d.pwr.held then d
    else
      let d := if a then d.lockPll .a else d
      let d := if b then d.lockPll .b else d
      let d := (d.startPll .a).startPll .b
      if a then d.event 0x063 (sword (satI 32 errA)) else if b then d.event 0x063 (sword (satI 32 errB)) else d) s

/-- The units of 2^-32 of N that one PLL's N may move in a tick: 50 ppb (R331). -/
def Pll.moveLimit (x : Pll) : Nat := (x.fbInt * 2 ^ 32 + x.fbFrac) * 50 / 1000000000

/-- The most that N may lie off its configured value, 50 ppm (R331). -/
def Pll.offLimit (x : Pll) : Nat := (x.fbInt * 2 ^ 32 + x.fbFrac) * 50 / 1000000

/-- The most that the return slew may be, 0.2 ppm (R331). -/
def Pll.slewMost (x : Pll) : Nat := (x.fbInt * 2 ^ 32 + x.fbFrac) * 2 / 10000000

/-- The phase that one unit of N's offset moves in a tick, in ps times the configured N. -/
def Dev.slewUnit (d : Dev) : Nat := 800 * d.tickCycles

/-- The sum over the ticks of an offset of n units that leaves by lim in each. -/
def leaveSum (n lim : Nat) : Nat :=
  let k := if lim = 0 then 0 else n / lim
  (k + 1) * n - lim * (k * (k + 1) / 2)

/-- The offset that a return slew seeks in the coming tick: towards the error by at most 0.2 ppm, how much is free, and from there
on less where leaving it would carry past the error (R331, R335, note 2). -/
def Pll.slewTarget (x : Pll) (unit e : Nat) : Int :=
  let lim : Int := x.moveLimit
  let want : Int := x.slewErr.sign * (Config.freeNat e % (x.slewMost + 1) : Nat)
  let n := x.slewN + clampI (-lim) lim (want - x.slewN)
  if leaveSum n.natAbs x.moveLimit * unit ≤ x.slewErr.natAbs then n else 0

/-- A PLL at a boundary: the error less what the tick's slew removed, and the offset of the coming tick, which it reaches and
leaves within R331. In HOLDOVER the frozen word stands (R331, R333, R335). -/
def Pll.slew (x : Pll) (unit e : Nat) : Pll :=
  let x := if x.slewing then { x with slewErr := x.slewErr - unit * x.slewN } else x
  let lim : Int := x.moveLimit
  let top : Int := x.offLimit
  let target : Int := if x.slewing then x.slewTarget unit e else if x.state = .holdover then x.slewN else 0
  let n := clampI (-top - x.steer) (top - x.steer) (x.slewN + clampI (-lim) lim (target - x.slewN))
  { x with slewN := n, slewStep := n - x.slewN }

/-- Return slews of both PLLs at a boundary. -/
def Dev.slewPlls (d : Dev) : Dev :=
  { d with
    clk := { d.clk with pllA := d.clk.pllA.slew d.slewUnit d.fresh, pllB := d.clk.pllB.slew d.slewUnit (d.fresh + 1) }
    fresh := d.fresh + 2 }

/-- The return slew has removed the phase error, to less than one unit of N moves in a tick, and N is back at its configured value
(R335). -/
def Dev.slewDone (d : Dev) (p : PllId) : Bool :=
  (d.pll p).slewN == 0 && decide ((d.pll p).slewErr.natAbs < d.slewUnit)

/-- RETURN_SLEW_END: the slew has removed the phase error (R333, R335). -/
def execReturnSlewEnd (p : PllId) (s : State) : Host.Outcome State Fault Refusal :=
  onMain (fun d =>
    if (d.pll p).state == .ret && d.slewDone p then d.lockPll p else d) s

/-! ### Tick alignment (R35, R37, R150, R151) -/

/-- The alignment source is lost: ALIGN_OK clears, with its report (R37). -/
def Dev.alignLost (d : Dev) : Dev :=
  let was := d.tk.alignOk
  let d := { d with tk := { d.tk with alignOk := false, alignBad := 0, alignGood := 0, srcLost := true } }
  if was then d.event 0x001 0x80000000 else d

/-- The steering moves PLL_A's N, with the return slew by at most 50 ppb per tick within ±50 ppm of the configured N; by how much is
not stated (R37, R331, note 2). -/
def Dev.steer (d : Dev) : Dev :=
  let a := d.clk.pllA
  let lim : Int := a.moveLimit
  let delta : Int := (Config.freeNat d.fresh % (2 * a.moveLimit + 1) : Nat) - lim
  let top : Int := a.offLimit
  let move := clampI (-lim - a.slewStep) (lim - a.slewStep) delta
  (d.modPll .a (fun x => { x with steer := clampI (-top - x.slewN) (top - x.slewN) (x.steer + move) })).useFresh

/-- One measured boundary offset in units of 12.5 ps (R37). -/
def Dev.alignMeasured (d : Dev) (off : Int) : Dev :=
  let t := d.tk
  let a := off.natAbs
  let bad := if 16000 < a then t.alignBad + 1 else 0
  let good := if a < 8000 then t.alignGood + 1 else 0
  let d := { d with tk := { t with alignBad := bad, alignGood := good, srcLost := false } }
  let d := d.steer
  if t.alignOk then
    if 16 ≤ bad then
      ({ d with tk := { d.tk with alignOk := false, alignBad := 0, alignGood := 0 } }).event 0x001
        (sword (clampI (-0x7FFFFFFF) 0x7FFFFFFF (roundFree ((off : Rat) / 80) d.fresh)))
    else d
  else if 16 ≤ good then { d with tk := { d.tk with alignOk := true, alignEver := true, alignBad := 0, alignGood := 0 } }
  else d

/-- The time base that is the alignment source (R35). -/
def TickSt.alignBase (t : TickSt) : Option Nat := if t.alignSrc = 1 then some 0 else if t.alignSrc = 2 then some 1 else none

/-- A numbered time base of TB0 to TB2. -/
def Dev.baseOf (d : Dev) (n : Nat) : TimeBase := if n = 0 then d.clk.tb0 else if n = 1 then d.clk.tb1 else d.clk.tb2

/-- A time base changed by f. -/
def Dev.modBase (d : Dev) (n : Nat) (f : TimeBase → TimeBase) : Dev :=
  if n = 0 then { d with clk := { d.clk with tb0 := f d.clk.tb0 } }
  else if n = 1 then { d with clk := { d.clk with tb1 := f d.clk.tb1 } }
  else { d with clk := { d.clk with tb2 := f d.clk.tb2 } }

/-- x brought into (−p/2, p/2] by whole periods p. -/
def centred (x : Int) (p : Nat) : Int :=
  let m := x % (p : Int)
  if (p : Int) < 2 * m then m - p else m

/-- The offset of the boundary now against the instant that a time base gives its tick, in units of 12.5 ps, positive where the
boundary is late (R35, R37). -/
def Dev.baseOffset (d : Dev) (n : Nat) : Int :=
  let past : Int := 5 * (((d.baseOf n).count : Int) - (d.tk.alignOrigin * 1000000000 * 2 ^ 32 : Nat))
  let tick := 4 * 2 ^ 32 * d.tickCycles
  roundFree ((centred (past - (tick * d.tk.tick : Nat)) (tick * 2 ^ 48) * 16 : Int) / ((2 ^ 32 : Nat) : Rat)) d.fresh

/-- The alignment at a boundary (R37, R151, R342): with SYNC from the pulse accepted since the last boundary, with a time base
from the boundary's offset against it, as it stands corrected. -/
def Dev.alignBoundary (d : Dev) : Dev :=
  if d.tk.alignSrc = 0 then d
  else if d.tk.alignSrc = 3 then
    let new := d.tk.syncNew
    let miss := if new then 0 else d.tk.syncMiss + 1
    let d := { d with tk := { d.tk with syncNew := false, syncMiss := miss, syncSeen := d.tk.syncSeen && decide (miss < 16) } }
    if new then d.alignMeasured d.tk.syncOffset
    else if miss = 16 then d.alignLost
    else d
  else
    match d.tk.alignBase with
    | some n => if (d.baseOf n).state == .invalid then d.alignLost else (d.alignMeasured (d.baseOffset n)).useFresh
    | none => d.alignLost

/-! ### Time bases (R338 to R344) -/

/-- VALID of a time base (R339). -/
def TimeBase.valid (t : TimeBase) : Bool := t.state != .invalid

/-- A time base is held by R341. -/
def Dev.aligned (d : Dev) (n : Nat) : Bool := d.tk.seqRun && d.tk.alignBase == some n

/-- A time base becomes INVALID; leaving VALID is reported, and the alignment source may be lost with it
(R339, R347). -/
def Dev.invalidate (d : Dev) (n : Nat) : Dev :=
  let was := (d.baseOf n).valid
  let d := d.modBase n (fun t => { t with state := .invalid, holdCount := 0 })
  let d := if was then d.event 0x064 (word n) else d
  if was && d.aligned n then d.alignLost else d

/-- The count of a time in seconds and nanoseconds, in units of 2^-32 ns. -/
def tbCount (sec ns : Nat) : Nat := (sec * 1000000000 + ns) * 2 ^ 32

/-- The count wraps at 2^48 seconds (R338). -/
def tbWrap (c : Int) : Nat := (c % (tbCount (2 ^ 48) 0 : Nat)).toNat

/-- A set or step lands: an INVALID time base becomes LOCKED (R339). -/
def TimeBase.jump (t : TimeBase) (c : Int) : TimeBase :=
  { t with count := tbWrap c, state := if t.state = .invalid then .locked else t.state, everValid := true }

/-- The most a tick's slew portion may be, in 1/256 ns: 100 ppm of the tick, or 40 ppm less |RATE| (R341). -/
def Dev.slewLimit (d : Dev) (n : Nat) : Nat :=
  let rate := (d.baseOf n).rate.natAbs
  if d.aligned n then (10240000 - rate) * d.tickCycles * 4 / (5 * 1000000000)
  else d.tickCycles * 4 * 256 / (5 * 10000)

/-- The slew portion for the coming tick, taken from SLEW_LEFT (R342). -/
def Dev.takeSlew (d : Dev) (n : Nat) : Dev :=
  let lim : Int := d.slewLimit n
  d.modBase n (fun t =>
    let p := clampI (-lim) lim t.slewLeft
    { t with slewTick := p, slewLeft := t.slewLeft - p })

/-- Nominal mains frequency in Hz (R325). -/
def Dev.mainsHz (d : Dev) : Nat := if d.adcs.mainsNom then 60 else 50

/-- What one cycle of the timestamp clock adds to TB0 or TB1, in units of 2^-32 ns: 3.2 ns × (1 + RATE + slew), the slew portion
spread over the tick's cycles (R338, R342, note 22). -/
def Dev.tbInc (d : Dev) (t : TimeBase) (e : Nat) : Int :=
  roundFree ((16 / 5 * 2 ^ 32 : Rat) * (1 + (t.rate : Rat) / 256000000000) + (t.slewTick : Rat) * (2 ^ 26 : Nat) / (d.tickCycles : Rat)) e

/-- Cycles of the timestamp clock in a core cycle, in units of 2^-64: a quarter, as far as both PLLs run at their configured N
(R329, R330, R338). -/
def Clocks.tsRate (k : Clocks) : Nat :=
  let den := k.pllB.cfgN * k.pllA.nowN
  if den ≤ 0 then 2 ^ 62 else ((2 ^ 62 * (k.pllB.nowN * k.pllA.cfgN)) / den).toNat

/-- The phase of the timestamp clock n core cycles on, in units of 2^-64 of a cycle, its cycles since now counted. -/
def Clocks.tsAfter (k : Clocks) (n : Nat) : Nat := k.tsPhase + n * k.tsRate

/-- What one core cycle adds to TB2: 0.8 ns × ω ÷ nominal (R343). -/
def Dev.tb2Step1 (d : Dev) : Rat :=
  (4 / 5 * 2 ^ 32 : Rat) * ((d.clk.tb2Omega : Rat) * 100 / ((2 ^ 31 : Nat) * d.mainsHz : Nat))

/-- A time base advanced by x units. -/
def TimeBase.advance (t : TimeBase) (x : Int) (cycles : Nat) : TimeBase :=
  { t with count := tbWrap (t.count + x)
           holdCount := if t.state = .holdover then t.holdCount + cycles else 0 }

/-- n core cycles pass: the model's clock and the time bases advance; those on the timestamp clock by its whole cycles, once
PLL_B has locked (R331, R338). -/
def Dev.advance (d : Dev) (n : Nat) : Dev :=
  let k := d.clk
  let on := k.pllB.everLocked
  let m : Int := (k.tsAfter n / 2 ^ 64 : Nat)
  { d with
    now := d.now + n
    clk := { k with
      tsPhase := if on then k.tsAfter n % 2 ^ 64 else k.tsPhase
      tb0 := if on then k.tb0.advance (m * d.tbInc k.tb0 d.fresh) n else k.tb0
      tb1 := if on then k.tb1.advance (m * d.tbInc k.tb1 (d.fresh + 1)) n else k.tb1
      tb2 := if k.tb2.state = .invalid then k.tb2 else k.tb2.advance (roundFree (n * d.tb2Step1) (d.fresh + 2)) n }
    fresh := d.fresh + 3 }

/-- The model's clock moved to a core cycle, unless that has passed. -/
def Dev.advanceUntil (d : Dev) (t : Nat) : Dev := if d.now < t then d.advance (t - d.now) else d

/-- A time that runs out at core cycle t is up, in this tick at the latest: the clock has then reached it. -/
def Dev.timeUp (d : Dev) (t : Nat) : Option Dev :=
  if t ≤ max d.now (d.tk.tickStart + d.tickCycles) then some (d.advanceUntil t) else none

/-! ### The first boundary (R35, R36) -/

/-- Core cycles of 1 ms. -/
def startWait : Nat := 1250000

/-- The tick length in units of 2^-32 ns. -/
def Dev.tickUnits (d : Dev) : Rat := (d.tickCycles * 4 * 2 ^ 32 : Nat) / (5 : Rat)

/-- A time base less ALIGN_ORIGIN, in ticks (R35). -/
def Dev.sourceTicks (d : Dev) (t : TimeBase) : Rat :=
  (((t.count : Int) - ((d.tk.alignOrigin * 1000000000 * 2 ^ 32 : Nat) : Int) : Int) : Rat) / d.tickUnits

/-- Core cycles until TB0 or TB1, n, has gone on by `rest` units of 2^-32 ns. -/
def Dev.cyclesTo (d : Dev) (n : Nat) (rest : Rat) : Nat :=
  let inc := d.tbInc (d.baseOf n) (d.fresh + n)
  if rest ≤ 0 ∨ d.clk.tsRate = 0 ∨ inc ≤ 0 then 0
  else ((((rest / (inc : Rat)).ceil.toNat * 2 ^ 64 - d.clk.tsPhase : Nat) : Rat) / (d.clk.tsRate : Rat)).ceil.toNat

/-- Core cycles until TB0 or TB1, n, less ALIGN_ORIGIN reaches the next whole multiple of the tick length, counted from now
(R36). -/
def Dev.cyclesToMultiple (d : Dev) (n : Nat) : Nat :=
  let x := d.sourceTicks (d.baseOf n)
  d.cyclesTo n ((((x.ceil : Int) : Rat) - x) * d.tickUnits)

/-- The tick number of the first boundary (R35, R36). -/
def Dev.firstTick (d : Dev) : Nat :=
  let n : Int :=
    if d.tk.alignSrc = 1 then (d.sourceTicks d.clk.tb0).floor
    else if d.tk.alignSrc = 2 then (d.sourceTicks d.clk.tb1).floor
    else if d.tk.alignSrc = 3 then (d.sourceTicks d.clk.tb0 + 1 / 2).floor
    else d.tk.startTick
  (n % (2 ^ 48 : Nat)).toNat

/-- A pulse while the sequencer starts: the first at least 1 ms after the start is the first boundary (R36). -/
def Dev.startPulse (d : Dev) : Dev :=
  if d.tk.starting.isSome && d.tk.firstPulse.isNone && decide (d.tk.startAt + startWait ≤ d.now) then
    { d with tk := { d.tk with firstPulse := some (d.now, d.firstTick) } }
  else d

/-- A pulse of a running sequencer at the core cycle and sixty-fourth of it (R151). -/
def Dev.syncPulse (d : Dev) (fine : Nat) : Dev :=
  let x := centred ((64 * d.cyc + fine : Nat) - (64 * d.tk.syncDelay : Nat)) (64 * d.tickCycles)
  if d.tk.alignEver && decide (80000 < x.natAbs) then
    { d with tk := { d.tk with syncStray := true, strayCount := satInc 16 d.tk.strayCount } }
  else { d with tk := { d.tk with syncNew := true, syncSeen := true, syncMiss := 0, syncOffset := -x } }

/-- TICK_SYNC_IN: a pulse in this core cycle and sixty-fourth of it (R36, R151). -/
def execTickSyncIn (fine : Fin 64) (s : State) : Host.Outcome State Fault Refusal :=
  onMain (fun d =>
    if d.tk.alignSrc ≠ 3 then d
    else if d.tk.seqRun then d.syncPulse fine.val
    else d.startPulse) s

/-- MAINS_PERIOD from ω, in 1/128 ns; free where ω is not positive (R343, note 2). -/
def mainsPeriodOf (omega : Int) (e : Nat) : Nat :=
  if omega ≤ 0 then Config.freeNat e % 2 ^ 32
  else ((roundFree ((128000000000 * 2 ^ 31 : Nat) / (100 * omega : Rat)) e).toNat) % 2 ^ 32

/-- TB2 at a boundary (R84, R343): it follows a locked lane, and holds over without one. -/
def Dev.tb2Boundary (d : Dev) : Dev :=
  match d.spin.tb2Lane with
  | none => d
  | some (i, l) =>
    let lane := tblGet {} (d.instOf i).lanes l
    let t := d.clk.tb2
    if lane.locked then
      let p : Rat := (10 ^ 9 * 2 ^ 32 : Nat) / (d.mainsHz : Rat)
      let frac : Rat := ((lane.last.getD 0 0 % (2 ^ 32 : Nat) : Int) : Rat) / (2 ^ 32 : Nat)
      let near := fun (c : Nat) => (((c : Rat) - frac * p) / p + 1 / 2).floor
      let k : Int :=
        if t.state = .invalid then (if d.clk.tb0.valid then near d.clk.tb0.count else 0) else near t.count
      let w := lane.last.getD 1 0
      let c := tbWrap (roundFree ((k : Rat) * p + frac * p) d.fresh)
      let t := { t with count := c, state := .locked, everValid := true, holdCount := 0 }
      ({ d with clk := { d.clk with tb2 := t, tb2Omega := w, mainsPeriod := mainsPeriodOf w (d.fresh + 1) } }).useFresh.useFresh
    else if t.state = .locked then { d with clk := { d.clk with tb2 := { t with state := .holdover, holdCount := 0 } } }
    else d

/-- TB3 in units of 2^-32 ns (R344). -/
def Dev.tb3Count (d : Dev) : Nat :=
  let origin := if d.tk.alignSrc = 0 then 0 else tbCount d.tk.alignOrigin 0
  if d.tk.seqRun then (origin + (d.tk.tick * d.tickCycles + d.cyc) * 4 * 2 ^ 32 / 5) % tbCount (2 ^ 48) 0 else 0

/-- What a time base adds in n core cycles, in units of 2^-32 ns. -/
def Dev.baseRun (d : Dev) (b n : Nat) : Int :=
  if b = 2 then (n * d.tb2Step1).floor else ((n * d.clk.tsRate / 2 ^ 64 : Nat) : Int) * d.tbInc (d.baseOf b) d.fresh

/-- Core cycles for which what landings did to the time bases is kept: more than a frame lasts. -/
def pastCycles : Nat := 2 ^ 28

/-- Marks up to the first that stood already at core cycle lo. -/
def marksSince : List TbMark → Nat → List TbMark
  | [], _ => []
  | m :: rest, lo => if m.at_ ≤ lo then [m] else m :: marksSince rest lo

/-- What has landed in this core cycle on the time bases, which stood before as in `old`, is marked. -/
def Dev.markBases (d old : Dev) : Dev :=
  forEach [0, 1, 2] (fun n d =>
    let o := old.baseOf n
    let t := d.baseOf n
    if o.count = t.count ∧ o.rate = t.rate ∧ o.slewTick = t.slewTick ∧ o.valid = t.valid then d
    else
      let m : TbMark := { at_ := d.now, before := o.count, after := t.count, was := o.valid }
      d.modBase n (fun t => { t with past := marksSince (m :: t.past) (d.now - pastCycles) })) d

/-- The count of a base at core cycle s, from its marks and its count c at u: between two marks it runs evenly, and before the
oldest as `run` says. -/
def pastCount (run : Nat → Int) : List TbMark → Nat → Nat → Nat → Int
  | [], u, c, s => c - run (u - s)
  | m :: rest, u, c, s =>
    if m.at_ ≤ s then m.after + ((c : Int) - m.after) * (s - m.at_ : Nat) / (u - m.at_ : Nat) else pastCount run rest m.at_ m.before s

/-- A base was VALID at core cycle s. -/
def TimeBase.validThen (t : TimeBase) (s : Nat) : Bool :=
  ((t.past.takeWhile (fun m => decide (s < m.at_))).getLast?.map (·.was)).getD t.valid

/-- The base has not jumped since core cycle s. -/
def TimeBase.steady (t : TimeBase) (s : Nat) : Bool := t.past.all (fun m => decide (m.at_ ≤ s) || m.before == m.after)

/-- The time of base n `age` core cycles ago, in units of 2^-32 ns; none where it was INVALID then (R338, R351, R381, note 181). -/
def Dev.baseAgo (d : Dev) (n age : Nat) : Option Int :=
  if n = 3 then (if d.tk.seqRun then some ((d.tb3Count : Int) - (age * 4 * 2 ^ 32 / 5 : Nat)) else none)
  else
    let t := d.baseOf n
    if t.validThen (d.now - age) then some (pastCount (d.baseRun n) t.past d.now t.count (d.now - age)) else none

/-! ### Landing of corrections (R340, R342) -/

/-- A set lands. -/
def landTbSet (n sec ns : Nat) (d : Dev) : Dev := d.modBase n (fun t => t.jump (tbCount sec ns))
/-- A step lands, in units of 2^-32 ns. -/
def landTbStep (n : Nat) (off : Int) (d : Dev) : Dev := d.modBase n (fun t => t.jump (t.count + off))
/-- A slew lands. -/
def landTbSlew (n : Nat) (v : Int) (d : Dev) : Dev := d.modBase n (fun t => { t with slewLeft := t.slewLeft + v })
/-- A rate lands. -/
def landTbRate (n : Nat) (v : Int) (d : Dev) : Dev := d.modBase n (fun t => { t with rate := v })
/-- A hold limit lands. -/
def landTbHoldLimit (n v : Nat) (d : Dev) : Dev := d.modBase n (fun t => { t with holdLimit := v })

/-- A state lands: 0 INVALID, 1 LOCKED, 2 HOLDOVER; HOLD_S of a base that is in HOLDOVER already runs on (R339, R340). -/
def landTbState (n code : Nat) (d : Dev) : Dev :=
  if code = 0 then d.invalidate n
  else if (d.baseOf n).valid then
    d.modBase n (fun t =>
      if code = 1 then { t with state := .locked, holdCount := 0 }
      else { t with state := .holdover, holdCount := if t.state = .holdover then t.holdCount else 0 })
  else d

/-- TB2_LANE lands (R84, R343). -/
def landTb2Lane (inst lane : Nat) (d : Dev) : Dev :=
  if inst = 0x7FF then ({ d with spin := { d.spin with tb2Lane := none } }).invalidate 2
  else { d with spin := { d.spin with tb2Lane := some (inst, lane) } }

/-! ### Commands (R340, R341, R429) -/

/-- The time base that a correction names; none beyond TB1, or with a kind that the row does not list (R429). -/
def tbTarget (r : Req) : Option Nat :=
  if bits (arg r 2) 17 16 < 2 ∧ bits (arg r 2) 3 0 < 6 then some (bits (arg r 2) 17 16) else none

/-- A correction of a named time base. -/
def tbBody (f : Nat → Body) : Body := fun r d =>
  match tbTarget r with
  | none => d.say (.badArg 2)
  | some n => f n r d

/-- TB_CORRECT, set (R340, R341). -/
def bodyTbSet : Body := tbBody fun n r d =>
  if 1000000000 ≤ (arg r 5).toNat then d.say (.badArg 5)
  else if d.aligned n then d.say .wrongState
  else d.doneAtTick r (.tbSet n (join48 (arg r 3) (arg r 4)) (arg r 5).toNat)

/-- TB_SET command. -/
def execTbSet (r : Req) (s : State) : Host.Outcome State Fault Refusal := onMain (iapin 0x0710 writes bodyTbSet r) s

/-- The signed offset of a step in units of 2^-32 ns: whole seconds of 48 bits and nanoseconds. -/
def stepOffset (r : Req) : Int :=
  (signed 48 (join48 (arg r 3) (arg r 4)) * 1000000000 + (arg r 5).toNat) * (2 ^ 32 : Nat)

/-- TB_CORRECT, step (R340, R341). -/
def bodyTbStep : Body := tbBody fun n r d =>
  if 2 ^ 31 < (signed 48 (join48 (arg r 3) (arg r 4))).natAbs then d.say (.badArg 3)
  else if 1000000000 ≤ (arg r 5).toNat then d.say (.badArg 5)
  else if tbCount (2 ^ 31) 0 < (stepOffset r).natAbs then d.say (.badArg 3)
  else if d.aligned n then d.say .wrongState
  else d.doneAtTick r (.tbStep n (stepOffset r))

/-- TB_STEP command. -/
def execTbStep (r : Req) (s : State) : Host.Outcome State Fault Refusal := onMain (iapin 0x0710 writes bodyTbStep r) s

/-- Slews of time base n that have not landed. -/
def Dev.slewWaiting (d : Dev) (n : Nat) : Int :=
  d.landing.foldl (fun s p => match p.1 with | .tbSlew m v => if m = n then s + v else s | _ => s) 0

/-- TB_CORRECT, slew: SLEW_LEFT stays within 8.388 ms in all (R340). -/
def bodyTbSlew : Body := tbBody fun n r d =>
  let v := sval (arg r 3)
  if 8388000 * 256 < ((d.baseOf n).slewLeft + d.slewWaiting n + v).natAbs then d.say (.badArg 3)
  else d.doneAtTick r (.tbSlew n v)

/-- TB_SLEW command. -/
def execTbSlew (r : Req) (s : State) : Host.Outcome State Fault Refusal := onMain (iapin 0x0710 writes bodyTbSlew r) s

/-- TB_CORRECT, rate: within 1,000 ppm, and within 40 ppm for a held time base (R340, R341). -/
def bodyTbRate : Body := tbBody fun n r d =>
  let v := sval (arg r 3)
  if (if d.aligned n then 10240000 else 256000000) < v.natAbs then d.say (.badArg 3)
  else d.doneAtTick r (.tbRate n v)

/-- TB_RATE command. -/
def execTbRate (r : Req) (s : State) : Host.Outcome State Fault Refusal := onMain (iapin 0x0710 writes bodyTbRate r) s

/-- TB_CORRECT, state (R340). -/
def bodyTbState : Body := tbBody fun n r d =>
  let c := bits (arg r 3) 1 0
  if c = 3 then d.say (.badArg 3)
  else if c ≠ 0 ∧ !(d.baseOf n).valid then d.say .wrongState
  else d.doneAtTick r (.tbState n c)

/-- TB_STATE command. -/
def execTbState (r : Req) (s : State) : Host.Outcome State Fault Refusal := onMain (iapin 0x0710 writes bodyTbState r) s

/-- TB_CORRECT, hold limit (R339, R340). -/
def bodyTbHoldLimit : Body := tbBody fun n r d =>
  let v := (arg r 3).toNat
  if 86400 < v then d.say (.badArg 3) else d.doneAtTick r (.tbHoldLimit n v)

/-- TB_HOLD_LIMIT command. -/
def execTbHoldLimit (r : Req) (s : State) : Host.Outcome State Fault Refusal :=
  onMain (iapin 0x0710 writes bodyTbHoldLimit r) s

/-- TB2_LANE (R84). -/
def bodyTb2Lane : Body := fun r d => d.doneAtTick r (.tb2Lane (bits (arg r 2) 10 0) (bits (arg r 3) 4 0))

/-- TB2_LANE command. -/
def execTb2Lane (r : Req) (s : State) : Host.Outcome State Fault Refusal := onMain (iapin 0x0711 writes bodyTb2Lane r) s

/-! ### Records and captures (R345, R346) -/

/-- TSTATE code (R346). -/
def TbSt.code : TbSt → Nat
  | .invalid => 0
  | .locked => 1
  | .holdover => 2

/-- The four time words of time base n. -/
def Dev.tbWords (d : Dev) (n : Nat) : List Word :=
  let t := d.baseOf n
  let c := if n = 3 then d.tb3Count else t.count
  let st := if n = 3 then b1 d.tk.seqRun else t.state.code
  let ever := if n = 3 then d.tk.seqRun else t.everValid
  let ns := c / 2 ^ 32
  [ pack [(16, c / 2 ^ 16 % 65536), (2, st), (1, b1 ever), (0, b1 (d.aligned n))], word (ns % 1000000000),
    word (ns / 1000000000), word (ns / 1000000000 / 2 ^ 32 % 65536) ]

/-- Words +0x04 to +0x0C of time base n captured (R345). -/
def Dev.captureTb (d : Dev) (n : Nat) : Dev :=
  let ws := (d.tbWords n).tail
  if n = 3 then { d with clk := { d.clk with tb3Cap := ws } } else d.modBase n (fun t => { t with cap := ws })

/-- A read of word +0x00 of time base n (R345). -/
def Dev.readTb (m : WordRead) (n : Nat) (d : Dev) : Dev := (d.captureTb n).giveBytes m.bytes (wat (d.tbWords n) 0)

/-- TB_RECORD_READ. -/
def execTbRecordRead (m : WordRead) (n : Fin 4) (s : State) : Host.Outcome State Fault Refusal :=
  onMain (fun d => d.served m.master (Dev.readTb m n.val)) s

/-- All four time bases captured into the snapshot words (R345). -/
def Dev.snapTb (d : Dev) : Dev :=
  let d' := forEach [0, 1, 2] (fun n e => e.modBase n (fun t => { t with snap := d.tbWords n })) d
  { d' with clk := { d'.clk with tb3Snap := d.tbWords 3 } }

/-- TB_SNAP_REQ: the block's write access is checked (R397). -/
def execTbSnapReq (m : Master) (v : Word) (s : State) : Host.Outcome State Fault Refusal :=
  onMain (fun d => d.guarded m 4 (fun d => if bit v 0 then d.snapTb else d)) s

end Sys2Proof.Machine
end

