-- ==== Sys2Proof/Machine/LineCode.lean ====
section
/-!
DEFINITION. The line code of the strands (R158 to R160, R162, R167): control symbols, the symbols of a frame, the training
patterns, and the 8b/10b code groups that carry them.
-/

namespace Sys2Proof.Machine

/-! ### Code groups (R158, R159) -/

/-- The byte of a symbol, and whether it is a control symbol (R159). -/
def Sym.code : Sym → Bool × Byte
  | .data b => (false, b)
  | .comma => (true, 0xBC)
  | .sof => (true, 0x3C)
  | .msof => (true, 0xDC)
  | .eof => (true, 0xFD)
  | .mark => (true, 0xFB)
  | .cut => (true, 0xFE)
  | .rest => (true, 0x7C)
  | .deep => (true, 0x5C)
  | .invalid => (false, 0)

/-- The six-bit blocks of data at a negative running disparity, first bit highest. PRESUMED (note 145): as IEEE 802.3
clause 36 has them, which R158 names. -/
def sixBits : List Nat :=
  [0b100111, 0b011101, 0b101101, 0b110001, 0b110101, 0b101001, 0b011001, 0b111000,
   0b111001, 0b100101, 0b010101, 0b110100, 0b001101, 0b101100, 0b011100, 0b010111,
   0b011011, 0b100011, 0b010011, 0b110010, 0b001011, 0b101010, 0b011010, 0b111010,
   0b110011, 0b100110, 0b010110, 0b110110, 0b001110, 0b101110, 0b011110, 0b101011]

/-- The four-bit blocks of data and of control symbols at a negative running disparity. -/
def fourBits : Bool → List Nat
  | false => [0b1011, 0b1001, 0b0101, 0b1100, 0b1101, 0b1010, 0b0110, 0b1110]
  | true => [0b1011, 0b0110, 0b1010, 0b1100, 0b1101, 0b0101, 0b1001, 0b0111]

/-- Ones in the low n bits. -/
def onesIn (n v : Nat) : Nat := (List.range n).foldl (fun t i => t + v / 2 ^ i % 2) 0

/-- A block of n bits as sent at a running disparity, given its form at a negative one: the complement at a positive one,
but for a balanced block that is the same at both. -/
def blockAt (n v : Nat) (flips positive : Bool) : Nat := if positive && flips then 2 ^ n - 1 - v else v

/-- The running disparity after a block. -/
def disparityAfter (n v : Nat) (positive : Bool) : Bool :=
  if 2 * onesIn n v = n then positive else decide (n < 2 * onesIn n v)

/-- The code group of a symbol at a running disparity, its first bit highest, and the disparity after it. DESIGN CHOICE (note 201):
the invalid group of an injection is ten zeros, which no symbol has. -/
def Sym.group (positive : Bool) (s : Sym) : BitVec 10 × Bool :=
  if s = .invalid then (0, positive) else
  let k := s.code.1
  let x := s.code.2.toNat % 32
  let y := s.code.2.toNat / 32
  let a := if k && x == 28 then 0b001111 else sixBits.getD x 0
  let six := blockAt 6 a (2 * onesIn 6 a != 6 || x == 7) positive
  let p := disparityAfter 6 six positive
  let alt := !k && y == 7 && (if p then x == 11 || x == 13 || x == 14 else x == 17 || x == 18 || x == 20)
  let b := if alt then 0b0111 else (fourBits k).getD y 0
  let four := blockAt 4 b (k || 2 * onesIn 4 b != 4 || y == 3) p
  (BitVec.ofNat 10 (16 * six + four), disparityAfter 4 four p)

/-- Every symbol that is sent (R159). -/
def allSyms : List Sym :=
  (List.range 256).map (fun b => .data (BitVec.ofNat 8 b)) ++ [.comma, .sof, .msof, .eof, .mark, .cut, .rest, .deep]

/-- The symbol that a receiver reads from a code group; any other group, one of another control symbol included, is a
code-group error (R159). -/
def readGroup (positive : Bool) (g : BitVec 10) : Option Sym := allSyms.find? (fun s => (s.group positive).1 == g)

/-- The code groups of a run of symbols. -/
def lineGroups : Bool → List Sym → List (BitVec 10)
  | _, [] => []
  | p, s :: r => (s.group p).1 :: lineGroups (s.group p).2 r

/-! ### Frames and patterns (R160, R162, R167) -/

/-- Words as the symbols of their bytes (R158). -/
def dataSyms (ws : List Word) : List Sym := (wordsBytes ws).map Sym.data

/-- A tick frame (R167). -/
def frameSyms (words bulk : List Word) : List Sym := .sof :: dataSyms (words ++ bulk) ++ [.eof]

/-- A capability frame of four words with its CRC (R162, R168). -/
def capsSyms (ws : List Word) : List Sym := .msof :: dataSyms (ws ++ [crc32 (wordsBytes ws)]) ++ [.eof]

/-- TS_U and TS_L (R162). -/
def trainSyms (locked : Bool) : List Sym :=
  let b : Byte := if locked then 0xB5 else 0x4A
  [.comma, .data b, .data b, .data b]

/-- A MARK in slot n of a run of symbols, which it may interrupt (R160). -/
def withMark (l : List Sym) (n : Nat) : List Sym := if n < l.length then l.take n ++ .mark :: l.drop n else l

end Sys2Proof.Machine
end

