-- ==== Sys2Proof/Machine/MapTable.lean ====
section
/-!
DEFINITION. The cell-to-channel map (R17, R18, R124, R125, R133, R135, R419): its words, the loader's
checks, and the map commands.
-/

namespace Sys2Proof.Machine

/-! ### Words of a map image (R419, R124) -/

/-- ARRANGE. -/
def mapArrange (m : List Word) : Nat := bits (wat m 0) 31 28
/-- ARMS. -/
def mapArms (m : List Word) : Nat := bits (wat m 0) 27 24
/-- DEV_PHASE. -/
def mapDevPhase (m : List Word) : Nat := bits (wat m 0) 23 0
/-- VDC_NOM in 0.1 V. -/
def mapVdcNom (m : List Word) : Nat := bits (wat m 1) 15 0
/-- CARRIER_CYCLES of arm j. -/
def mapCarrier (m : List Word) (j : Nat) : Nat := bits (wat m (4 + 8 * j)) 23 0
/-- PHI_MAX of arm j. -/
def mapPhiMax (m : List Word) (j : Nat) : Nat := bits (wat m (5 + 8 * j)) 31 16
/-- DEAD_TIME of arm j. -/
def mapDeadTime (m : List Word) (j : Nat) : Nat := bits (wat m (5 + 8 * j)) 15 0
/-- I_TIE_RATED of arm j, in 0.1 A. -/
def mapTieRated (m : List Word) (j : Nat) : Nat := bits (wat m (6 + 8 * j)) 31 16
/-- I_ARM_RATED of arm j, in 0.1 A. -/
def mapArmRated (m : List Word) (j : Nat) : Nat := bits (wat m (6 + 8 * j)) 15 0
/-- MV_BASE of arm j, in V. -/
def mapMvBase (m : List Word) (j : Nat) : Nat := (wat m (7 + 8 * j)).toNat
/-- U_DESIGN of arm j's section, in V. -/
def mapUDesign (m : List Word) (j : Nat) : Nat := (wat m (8 + 8 * j)).toNat
/-- Word 0 of strand k. -/
def mapStrand (m : List Word) (k : Nat) : Word := wat m (100 + 2 * k)
/-- USED of strand k. -/
def mapUsed (m : List Word) (k : Nat) : Bool := bit (mapStrand m k) 31
/-- PARKED of strand k. -/
def mapParked (m : List Word) (k : Nat) : Bool := bit (mapStrand m k) 30
/-- ARM of strand k. -/
def mapArm (m : List Word) (k : Nat) : Nat := bits (mapStrand m k) 27 24
/-- POS of strand k. -/
def mapPos (m : List Word) (k : Nat) : Nat := bits (mapStrand m k) 22 16
/-- CHANNEL of strand k. -/
def mapChannel (m : List Word) (k : Nat) : Nat := bits (mapStrand m k) 4 0
/-- P_RATED of strand k, in W. -/
def mapRated (m : List Word) (k : Nat) : Nat := 10 * bits (wat m (101 + 2 * k)) 15 0

/-- Arms per section of an arrangement (R17). -/
def armsPerSection (arrange : Nat) : Nat := if arrange = 0 then 2 else if arrange = 1 then 3 else 6

/-- Strands that the map uses, rising. -/
def mapCells (m : List Word) : List Nat := (List.range 256).filter (mapUsed m)

/-- Strands of an arm, rising. -/
def armCells (m : List Word) (j : Nat) : List Nat := (mapCells m).filter (fun k => mapArm m k == j)

/-- The map in force, if any, uses strand k. -/
def Dev.mapped (d : Dev) (k : Nat) : Bool :=
  match d.mapForce with
  | some m => mapUsed m k
  | none => false

/-- The map in force marks strand k parked (R124). -/
def Dev.parked (d : Dev) (k : Nat) : Bool :=
  match d.mapForce with
  | some m => mapUsed m k && mapParked m k
  | none => false

/-- The spectral channel of strand k's cell under the map in force. -/
def Dev.cellChannel (d : Dev) (k : Nat) : Option Nat :=
  match d.mapForce with
  | some m => if mapUsed m k then some (mapChannel m k) else none
  | none => none

/-! ### The loader's checks -/

/-- The most edges per leg that a carrier can call for in a tick (R135). -/
def edgeNeed (tickCycles carrier : Nat) : Nat :=
  if carrier = 0 then 0 else 2 * ((tickCycles + carrier - 1) / carrier) + 1

/-- Failing words of the header (R17, R18, R419). -/
def mapBadHeader (m : List Word) : List Nat :=
  (if 2 < mapArrange m ∨ mapArms m < 2 ∨ 12 < mapArms m ∨ mapArms m % armsPerSection (mapArrange m) ≠ 0 then [0] else []) ++
  (if bits (wat m 1) 31 16 ≠ 0 then [1] else []) ++ (if wat m 2 ≠ 0 then [2] else []) ++ (if wat m 3 ≠ 0 then [3] else [])

/-- Reserved words of arm j's block that are not zero (R419). -/
def mapReservedArm (m : List Word) (j : Nat) : List Nat :=
  (if bits (wat m (4 + 8 * j)) 31 24 ≠ 0 then [4 + 8 * j] else []) ++
  [9, 10, 11].filterMap (fun i => if wat m (i + 8 * j) ≠ 0 then some (i + 8 * j) else none)

/-- Failing words of arm j's block (R18, R125, R133, R135, R141, R419). -/
def mapBadArm (tickCycles : Nat) (mMax : Int) (m : List Word) (j : Nat) : List Nat :=
  let n := (armCells m j).length
  let base := j / armsPerSection (mapArrange m) * armsPerSection (mapArrange m)
  let live := ((armCells m j).filter (fun k => !mapParked m k)).length
  let c := mapCarrier m j
  (if n < 2 ∨ 128 < n ∨ c < 2 ∨ 8 < edgeNeed tickCycles c then [4 + 8 * j] else []) ++
  (if 0x4000 < mapPhiMax m j then [5 + 8 * j] else []) ++
  (if mapMvBase m j ≠ mapMvBase m base then [7 + 8 * j] else []) ++
  (if mapUDesign m j ≠ mapUDesign m base ∨
      (live : Int) * mMax * (mapVdcNom m : Int) < 10 * (mapUDesign m j : Int) * (2 ^ 31 : Nat) then [8 + 8 * j] else [])

/-- Failing words of strand k (R124, R125, R419). -/
def mapBadStrand (strands : Nat) (m : List Word) (k : Nat) : List Nat :=
  let w := mapStrand m k
  let twice := (List.range k).any (fun i => mapUsed m i && mapArm m i == mapArm m k && mapPos m i == mapPos m k)
  (if bits w 29 28 ≠ 0 ∨ bit w 23 ∨ bits w 15 5 ≠ 0 ∨
      (mapUsed m k ∧ (strands ≤ k ∨ mapArms m ≤ mapArm m k ∨ twice)) then [100 + 2 * k] else []) ++
  (if bits (wat m (101 + 2 * k)) 31 16 ≠ 0 then [101 + 2 * k] else [])

/-- The first failing word of a map image (R125, R418). -/
def Dev.mapBad (d : Dev) (m : List Word) : Option Nat :=
  let arms := (List.range (min 12 (mapArms m))).flatMap (fun j =>
    mapBadArm d.tickCycles (d.secOf (j / armsPerSection (mapArrange m))).mMax m j)
  let strands := (List.range 256).flatMap (mapBadStrand d.strandCount m)
  let reserved := (List.range 12).flatMap (mapReservedArm m)
  (mapBadHeader m ++ reserved ++ arms ++ strands).foldl (fun a i => match a with
    | none => some i
    | some x => some (min x i)) none

/-! ### Commands -/

/-- The end of MAP_LOAD: checks, and the staging (R419). -/
def finishMapLoad : Body := imgFinish (fun _ => none) (fun ws r d =>
  match d.mapBad ws with
  | some i => d.say (.badImage i [if 100 ≤ i then word ((i - 100) / 2) else 0xFFFFFFFF])
  | none => if checkOnly r then d.doneStaged else Dev.doneStaged { d with mapStaged := some ws })

/-- MAP_LOAD command (R423): refused while an armed or committed change names MAP. -/
def execMapLoad (r : Req) (s : State) : Host.Outcome State Fault Refusal :=
  onMain (iapin 0x0101 writes
    (imgStart 0x0101 (some 2448) (· == 0) (fun _ d => d.tk.commit != .idle && nbit d.tk.set 1)) r) s

/-- MAP_READ (R423). -/
def bodyMapRead : Body := fun r d =>
  let first := bits (arg r 2) 15 0
  if 612 ≤ first then d.say (.badArg 2)
  else
    let m := (if bit (arg r 2) 16 then d.mapStaged else d.mapForce).getD []
    d.say (.ok (arg r 2 :: (List.range 13).map (fun i => wat m (first + i))))

/-- MAP_READ command. -/
def execMapRead (r : Req) (s : State) : Host.Outcome State Fault Refusal := onMain (iapin 0x0102 reads bodyMapRead r) s

end Sys2Proof.Machine
end

