-- ==== Sys2Proof/Machine/Strand.lean ====
section
/-!
DEFINITION. Strands and skeins (R155 to R164, R177 to R180, R186, R187, R444): bring-up, capability
exchange, delay compensation, lost cells, rest and deep rest, and the commands of a strand.
-/

namespace Sys2Proof.Machine

/-! ### Supply and cluster PLLs (R155, R444) -/

/-- The supply domain of strand k is on (R155). -/
def Dev.domainOn (d : Dev) (k : Nat) : Bool := if k < 128 then d.pwr.vsda else d.pwr.vsdb

/-- Strands of skein s. -/
def skeinStrands (s : Nat) : List Nat := (List.range 16).map (fun i => 16 * s + i)

/-- Skein s waits for its cluster PLL: a strand of it is enabled and its domain is on (R444). -/
def Dev.pllWanted (d : Dev) (s : Nat) : Bool :=
  !(d.skeinOf s).pllLocked && !(d.skeinOf s).acquiring && d.domainOn (16 * s) &&
  (skeinStrands s).any (fun k => (d.strandOf k).enable)

/-- The lowest waiting skein starts to acquire when none acquires (R444). -/
def Dev.kickPll (d : Dev) : Dev :=
  if (List.range 16).any (fun s => (d.skeinOf s).acquiring) then d
  else match (List.range d.skeinCount).find? d.pllWanted with
    | some s => d.modSkein s (fun x => { x with acquiring := true })
    | none => d

/-! ### Reports -/

/-- The lowest set bit from 21 to 31 of a fault word. -/
def faultBit (f : Word) : Option Nat := (List.range 11).findSome? (fun i => if bit f (21 + i) then some (21 + i) else none)

/-- The lowest fault bit that the last FRESH uplink has set (R174). -/
def Strand.lastFault (s : Strand) : Option Nat := s.last.bind (fun u => faultBit (wat u.control 23))

/-- RAW of the sources whose instances are strands or cells (R241, R252). -/
def Dev.rawStrands (d : Dev) : Dev :=
  let some1 := fun (p : Strand → Bool) => d.strands.any (fun x => p x.2)
  let d := d.setRaw 0x020 (some1 (fun s => s.state == .failed && s.enable))
  let d := d.setRaw 0x022 (d.skeins.any (fun x => decide (x.2.modFault ≠ 0)))
  let d := d.setRaw 0x023 (some1 (·.los))
  let d := d.setRaw 0x027 (some1 (·.lost))
  d.setRaw 0x028 (some1 (fun s => s.lastFault.isSome))

/-- The strand down source for the lowest number of a list (R161, R241). -/
def Dev.downOcc (d : Dev) (ks : List Nat) : List (Nat × Word) :=
  match ks with
  | [] => []
  | k :: _ => [(0x020, pack [(24, (d.strandOf k).failReason), (0, k)])]

/-- A strand that is down, reported with the lowest number of a list (R161, R241). -/
def Dev.reportDown (d : Dev) (ks : List Nat) : Dev := d.rawStrands.events (d.downOcc ks)

/-- BYPASSED of the last FRESH uplink (R174). -/
def Strand.bypassed (s : Strand) : Bool :=
  match s.last with
  | some u => bit (wat u.control 22) 31
  | none => false

/-- The cell on strand k is in service: mapped, not parked, not lost, not bypassed (R116). -/
def Dev.inServiceNow (d : Dev) (k : Nat) : Bool :=
  d.mapped k && !d.parked k && !(d.strandOf k).lost && !(d.strandOf k).bypassed

/-- A cell becomes LOST at the next boundary (R177): on the device that judges it, once. -/
def Dev.markLost (d : Dev) (k why : Nat) : Dev :=
  let s := d.strandOf k
  if d.mapped k && !s.lost && decide (s.lostDue = 0) && (!d.isMember || d.ply.pstate == .active) then
    d.modStrand k (fun s => { s with lostDue := why })
  else d

/-! ### Bring-up (R161) -/

/-- A strand takes a state. What deep rest keeps ends where bring-up starts anew (R161, R180); in deep rest the transmitter
is in electrical idle (R161). -/
def Strand.enter (s : Strand) (st : StrandState) (reason : Nat) : Strand :=
  { s with
    state := st, failReason := if st = .failed then reason else 0, detectTries := 0, locked := false
    capsGood := 0, capsSum := 0, capsDone := false, txRest := st == .deep, rx := none
    capsKept := s.capsKept && st != .off && st != .failed && st != .detect }

/-- Strand k leaves its state for another. Leaving ACTIVE loses the cell, but for deep rest, and OFF loses one in service from
any state (R161, R180); a frame in flight is lost with ACTIVE (R187). -/
def Dev.enter (d : Dev) (k : Nat) (st : StrandState) (reason : Nat) : Dev :=
  let was := (d.strandOf k).state
  let lose := was == .active && st != .active && st != .deep || st == .off && was != .off && d.inServiceNow k
  let d := d.modStrand k (fun s => (if was == .active then s.abandon d.now else s).enter st reason)
  if lose then d.markLost k 1 else d

/-- DETECT, which waits for the cluster PLL (R444). DEDUCED (note 200): a strand under a test mode stays OFF (R460). -/
def Dev.toDetect (d : Dev) (k : Nat) : Dev := if d.underTest 0 k then d else (d.enter k .detect 0).kickPll

/-- The retry of R161. -/
def Dev.retryStrand (d : Dev) (k reason : Nat) : Dev :=
  let s := d.strandOf k
  if s.autoRetrain && decide (s.retryCnt < 3) then
    (d.modStrand k (fun s => { s with retryCnt := s.retryCnt + 1 })).toDetect k
  else (d.enter k .failed reason).reportDown [k]

/-- ACTIVE strands of a list lose the link: TRAIN or FAILED with LINK_LOST (R161). -/
def Dev.dropLinks (d : Dev) (act : List Nat) : Dev :=
  (forEach act (fun k d =>
    let d := d.modStrand k (fun s => { s with capsKept := false })
    d.enter k (if (d.strandOf k).autoRetrain then .train else .failed) 7) d).rawStrands

/-- The ACTIVE strands of a list. -/
def Dev.activeOf (d : Dev) (ks : List Nat) : List Nat := ks.filter (fun k => (d.strandOf k).state == .active)

/-- Strands of a list that are ACTIVE lose the link, with one report (R161). -/
def Dev.linkLost (d : Dev) (ks : List Nat) : Dev :=
  let act := d.activeOf ks
  if act.isEmpty then d else (d.dropLinks act).reportDown act

/-- The flag of a strand domain (R155). -/
def Dev.setDomain (d : Dev) (dom : StrandSupply) (on : Bool) : Dev :=
  match dom with
  | .vsda => { d with pwr := { d.pwr with vsda := on } }
  | .vsdb => { d with pwr := { d.pwr with vsdb := on } }

/-- The strand domain comes up: its enabled strands go to DETECT (R161). -/
def Dev.domainUp (d : Dev) (dom : StrandSupply) : Dev :=
  let d := d.setDomain dom true
  let ks := (List.range d.strandCount).filter (fun k => decide (k < 128) == (dom == .vsda))
  forEach (ks.filter (fun k => (d.strandOf k).state == .off && (d.strandOf k).enable)) (fun k d => d.toDetect k) d

/-- SUPPLY_DOMAIN_ON: while the main logic is held only the domain itself changes. -/
def execSupplyDomainOn (dom : StrandSupply) (s : State) : Host.Outcome State Fault Refusal :=
  onDev (fun d => if d.pwr.held then d.setDomain dom true else d.domainUp dom) s

/-- The strand domain goes off: its strands go to OFF and their cluster PLLs unlock (R155, R161). -/
def Dev.domainOff (d : Dev) (dom : StrandSupply) : Dev :=
  let d := d.setDomain dom false
  let ks := (List.range d.strandCount).filter (fun k => decide (k < 128) == (dom == .vsda))
  let act := ks.filter (fun k => (d.strandOf k).state == .active)
  let d := forEach (List.range d.skeinCount) (fun s d =>
    if decide (s < 8) == (dom == .vsda) then d.modSkein s (fun x => { x with pllLocked := false, acquiring := false }) else d) d
  let d := forEach (ks.filter (fun k => (d.strandOf k).state != .off)) (fun k d => d.enter k .off 0) d
  (d.kickPll).reportDown act

/-- SUPPLY_DOMAIN_OFF. -/
def execSupplyDomainOff (dom : StrandSupply) (s : State) : Host.Outcome State Fault Refusal :=
  onDev (fun d => if d.pwr.held then d.setDomain dom false else d.domainOff dom) s

/-- CLUSTER_PLL_LOCK (R444). -/
def execClusterPllLock (s : Fin 16) (st : State) : Host.Outcome State Fault Refusal :=
  onMain (fun d =>
    if (d.skeinOf s.val).acquiring then
      (d.modSkein s.val (fun x => { x with acquiring := false, pllLocked := true })).kickPll
    else d) st

/-- CLUSTER_PLL_UNLOCK (R156, R161). -/
def execClusterPllUnlock (s : Fin 16) (st : State) : Host.Outcome State Fault Refusal :=
  onMain (fun d =>
    if (d.skeinOf s.val).pllLocked then
      let d := d.modSkein s.val (fun x => { x with pllLocked := false })
      let act := d.activeOf (skeinStrands s.val)
      let d := (d.dropLinks act).kickPll
      d.events (d.downOcc act ++ [(0x021, word s.val)])
    else d) st

/-- RECEIVER_DETECTION: one attempt in DETECT with the cluster PLL locked (R161, R444). -/
def execReceiverDetection (k : Fin 256) (seen : Bool) (s : State) : Host.Outcome State Fault Refusal :=
  onMain (fun d =>
    let st := d.strandOf k.val
    if st.state == .detect && (d.skeinOf (k.val / 16)).pllLocked then
      if seen then d.enter k.val .train 0
      else if 10 ≤ st.detectTries + 1 then (d.enter k.val .failed 1).reportDown [k.val]
      else d.modStrand k.val (fun s => { s with detectTries := s.detectTries + 1 })
    else d) s

/-- BIT_LOCK: TRAIN to LOCK. -/
def execBitLock (k : Fin 256) (s : State) : Host.Outcome State Fault Refusal :=
  onMain (fun d => if (d.strandOf k.val).state == .train then d.enter k.val .lock 0 else d) s

/-- TRAIN_TIMEOUT. -/
def execTrainTimeout (k : Fin 256) (s : State) : Host.Outcome State Fault Refusal :=
  onMain (fun d => if (d.strandOf k.val).state == .train then d.retryStrand k.val 2 else d) s

/-- SYMBOL_LOCK: CAPS follows at a boundary. DESIGN CHOICE (note 199): symbol lock is taken with the 16 TS_L that the row names, so
that TS_L goes out only then. -/
def execSymbolLock (k : Fin 256) (s : State) : Host.Outcome State Fault Refusal :=
  onMain (fun d =>
    if (d.strandOf k.val).state == .lock then d.modStrand k.val (fun s => { s with locked := true }) else d) s

/-- LOCK_TIMEOUT: without symbol lock and 16 TS_L. -/
def execLockTimeout (k : Fin 256) (s : State) : Host.Outcome State Fault Refusal :=
  onMain (fun d =>
    if (d.strandOf k.val).state == .lock && !(d.strandOf k.val).locked then d.retryStrand k.val 3 else d) s

/-- CAPS_TIMEOUT. -/
def execCapsTimeout (k : Fin 256) (s : State) : Host.Outcome State Fault Refusal :=
  onMain (fun d => if (d.strandOf k.val).state == .caps then d.retryStrand k.val 4 else d) s

/-- SYMBOL_LOCK_LOST. -/
def execSymbolLockLost (k : Fin 256) (s : State) : Host.Outcome State Fault Refusal :=
  onMain (fun d => d.linkLost [k.val]) s

/-- DEEP_SYMBOLS: ACTIVE to DEEP; COMP and the capability words are kept (R161, R180). -/
def execDeepSymbols (k : Fin 256) (s : State) : Host.Outcome State Fault Refusal :=
  onMain (fun d =>
    if (d.strandOf k.val).state == .active then
      ((d.enter k.val .deep 0).modStrand k.val (fun s => { s with capsKept := true })).reportDown [k.val]
    else d) s

/-! ### Capability exchange (R162 to R164) -/

/-- CAPS_BAD (R163). -/
def capsBad (w0 w1 : Word) : Bool :=
  decide (bits w0 23 20 < 3) || decide (160000 < bits w1 23 0) || !bit w0 17 ||
  decide (bits w0 15 0 ≠ 0) || decide (bits w1 31 24 ≠ 0)

/-- The mean one-way delay of 16 exchanges, to the nearest unit with ties to the higher (R164). -/
def capsMean (sum : Nat) : Nat := (sum + 16) / 32

/-- A good exchange: the 16th checks the delay, loads COMP and the capability words, and ACTIVE follows at
the next boundary (R161, R163, R164). -/
def Dev.capsExchange (d : Dev) (k : Nat) (w0 w1 w2 w3 : Word) (rtt : Nat) : Dev :=
  let s := d.strandOf k
  let sum := s.capsSum + rtt
  if s.capsGood + 1 < 16 then d.modStrand k (fun s => { s with capsGood := s.capsGood + 1, capsSum := sum })
  else if 32000 < capsMean sum then (d.enter k .failed 6).reportDown [k]
  else d.modStrand k (fun s =>
    { s with capsGood := 16, capsSum := sum, capsDone := true, comp := capsMean sum, caps0 := w0
             minPulse := bits w1 23 0, capsVendor := w2, capsFw := w3 })

/-- The CRC of a capability frame is good (R162, R168). -/
def capsGood (f : CapsFrame) : Bool := f.crc == crc32 (wordsBytes [f.w0, f.w1, f.w2, f.w3])

/-- CAPABILITY_FRAME. In LOCK after a wake it says that the endpoint was reset, so CAPS runs in full; in
ACTIVE it says the same, and the strand comes up again (R180, R187). A frame whose CRC fails is no exchange (R162). -/
def execCapabilityFrame (k : Fin 256) (w0 w1 w2 w3 : Word) (e : CapsEnd) (s : State) :
    Host.Outcome State Fault Refusal :=
  onMain (fun d =>
    let st := d.strandOf k.val
    if !capsGood { w0 := w0, w1 := w1, w2 := w2, w3 := w3, crc := e.crc } then d
    else match st.state with
    | .caps =>
      if st.capsDone then d
      else if capsBad w0 w1 then (d.enter k.val .failed 5).reportDown [k.val]
      else d.capsExchange k.val w0 w1 w2 w3 e.rtt.toNat
    | .lock => d.modStrand k.val (fun s => { s with capsKept := false })
    | .active =>
      if st.capsKept then
        ((d.modStrand k.val (fun s => { s with capsKept := false })).enter k.val .caps 0).reportDown [k.val]
      else d.linkLost [k.val]
    | .off | .detect | .train | .deep | .failed => d) s

/-! ### Encoder limits of a cell (R128, R135, R136) -/

/-- EDGE_LIMIT and SW_MIN of cell k under the map in force and the endpoint's report. -/
def Dev.refreshCell (d : Dev) (k : Nat) : Dev :=
  match d.mapForce with
  | none => d
  | some m =>
    if mapUsed m k then
      let s := d.strandOf k
      d.modCell k (fun c =>
        { c with swMin := max s.minPulse (mapDeadTime m (mapArm m k))
                 edgeLimit := decide (c.edgeMax ≠ 0) && decide (c.edgeMax < edgeNeed d.tickCycles (mapCarrier m (mapArm m k))) })
    else d.modCell k (fun c => { c with edgeLimit := false })

/-! ### Boundary (R157, R161, R164, R177) -/

/-- A command for the endpoint joins the queue of the slot (R171). -/
def Strand.queueCmd (s : Strand) (c : DevCmd) : Strand := { s with devCmds := s.devCmds ++ [c] }

/-- REST_SET tells an endpoint that reports REST whether its uplink may rest (R163, R171, R179). -/
def Strand.restSet (s : Strand) : Strand :=
  if bit s.caps0 19 then s.queueCmd { cmd := 0x05, arg0 := b1 s.restUp, args := [0, 0, 0], host := false } else s

/-- Strand k enters ACTIVE. -/
def Dev.activate (d : Dev) (k : Nat) : Dev :=
  let d := d.enter k .active 0
  let d := d.modStrand k (fun s =>
    let s := { s with retryCnt := 0, rtts := [], missRun := 0, freshRun := 0, last := none, fresh := false }
    if s.restUp then s.restSet else s)
  let d := d.modCell k (fun c => { c with edgeMax := min 8 (bits (d.strandOf k).caps0 23 20) })
  d.refreshCell k

/-- The mean delay of the kept exchanges against COMP: COMP moves by one unit towards it (R164). -/
def Strand.trackComp (s : Strand) : Strand :=
  let n := s.rtts.length
  let sum : Int := s.rtts.foldl (fun a x => a + x) 0
  let diff := sum - 2 * (n : Int) * (s.comp : Int)
  if n = 0 then s
  else if 4 * (n : Int) ≤ diff then { s with comp := s.comp + 1 }
  else if diff ≤ -(4 * (n : Int)) then { s with comp := s.comp - 1 }
  else s

/-- The mean delay of strand k exceeds 420 ns (R164). -/
def Strand.delayed (s : Strand) : Bool :=
  s.state == .active && decide (2 * s.rtts.length * 33600 < s.rtts.foldl (· + ·) 0)

/-- The mean delay of a strand, in units of 12.5 ps. -/
def Strand.meanDelay (s : Strand) : Nat := s.rtts.foldl (· + ·) 0 / (2 * s.rtts.length)

/-- Keys of strands for which p holds. -/
def Dev.strandsWith (d : Dev) (p : Strand → Bool) : List Nat := (d.strands.filter (fun x => p x.2)).map (·.1)

/-- The device's capability frame (R162). -/
def Dev.capsWords (d : Dev) (k : Nat) : List Word :=
  [0x01000000, word d.tickCycles, pack [(8, b1 d.isMember), (0, k)], word (d.tk.tick % 2 ^ 24)]

/-- What the transmitter of strand k repeats where it has nothing else to send (R160 to R162, R179): CUT under a cut, the
training pattern, or idle fill; nothing in electrical idle. What a far-end loopback sends but CUT is what it receives (R458). -/
def Dev.lineFill (d : Dev) (k : Nat) : List Sym :=
  let s := d.strandOf k
  if s.txRest || !d.sendsOn k then []
  else if d.strandCut k then [.cut]
  else match s.state with
    | .train => trainSyms false
    | .lock => trainSyms s.locked
    | .caps | .active => [.comma]
    | .off | .detect | .deep | .failed => []

/-- The symbols that end a rest before the next symbol (R179). -/
def Strand.wakeSyms (s : Strand) : List Sym := if s.txRest then List.replicate 32 .comma else []

/-- The boundary on the wire (R160, R162, R165, R179): the MARK's first bit leaves by the COMP of the tick that ends before it,
within a frame in flight, which has it in its slot, or within what the strand fills with; rest ends for it, and in CAPS the
device's capability frame follows, but under a cut (R187). -/
def Dev.markBoundary (d : Dev) (k comp : Nat) : Dev :=
  let s := d.strandOf k
  if !s.state.sends || s.state == .detect then d
  else
    let caps := if s.state == .caps && !d.strandCut k then capsSyms (d.capsWords k) else []
    let slot := (64 * d.now - comp - s.txAt) / 256
    let line := if s.sending d.now then (if s.txLine.contains .mark then s.txLine else withMark s.txLine slot)
      else s.wakeSyms ++ .mark :: caps
    let at_ := if s.sending d.now then s.txAt else 64 * d.now - comp - 256 * s.wakeSyms.length
    d.modStrand k (fun s => { s with txRest := false, txLine := line, txAt := at_ })

/-- The strand enters ACTIVE at the coming boundary (R161, R180). -/
def Strand.activeDue (s : Strand) : Bool := (s.state == .lock && s.locked && s.capsKept) || (s.state == .caps && s.capsDone)

/-- What the boundary does to the state of strand k (R161, R164): LOCK to CAPS, or to ACTIVE after deep
rest, CAPS to ACTIVE, and COMP; the receive buffer awaits the uplink of the new tick. -/
def Dev.strandBoundary (d : Dev) (k : Nat) : Dev :=
  let s := d.strandOf k
  let d := d.modStrand k (fun s => { s with rx := none, ctrlCrcPrev := s.ctrlCrc })
  match s.state with
  | .lock => if s.locked then (if s.capsKept then d.activate k else d.enter k .caps 0) else d
  | .caps => if s.capsDone then d.activate k else d
  | .active => d.modStrand k Strand.trackComp
  | .off | .detect | .train | .deep | .failed => d

/-- TXDIS of a strand (R157). -/
def StrandState.txdis : StrandState → Bool
  | .off | .failed | .deep => true
  | .detect | .train | .lock | .caps | .active => false

/-- The sideband scan of skein s (R157, R458): outputs as the board has them from this scan, inputs as loaded. -/
def Dev.scan (d : Dev) (s : Nat) (inp : Word) : Dev :=
  let txdis := maskOf 16 (fun i => (d.strandOf (16 * s + i)).state.txdis && decide ((d.laneTest (laneKey 0 (16 * s + i))).mode < 2))
  let d := d.modSkein s (fun x => { x with modFault := bits inp 31 16, scanOut := 65536 * x.auxOut + txdis })
  forEach (List.range 16) (fun i d => d.modStrand (16 * s + i) (fun x => { x with los := bit inp i })) d

/-- Sources of the boundary's strand reports, each with the lowest strand (R157, R164, R177). -/
def Dev.strandOccs (d : Dev) (lost : List Nat) : List (Nat × Word) :=
  let mods := (List.range 256).filter (fun k => nbit (d.skeinOf (k / 16)).modFault (k % 16))
  (match mods with | k :: _ => [(0x022, word k)] | [] => []) ++
  (match d.strandsWith (·.los) with | k :: _ => [(0x023, word k)] | [] => []) ++
  (match d.strandsWith Strand.delayed with
    | k :: _ => [(0x024, pack [(8, (d.strandOf k).meanDelay % 65536), (0, k)])]
    | [] => []) ++
  (match lost with | k :: _ => [(0x027, pack [(8, (d.strandOf k).lostDue), (0, k)])] | [] => [])

/-- The detail of a source whose RAW stays set, from its lowest instance in the condition now (R241, R243). -/
def Dev.rawDetail (d : Dev) (src : Nat) : Word :=
  let of_ := fun (p : Strand → Bool) (f : Nat → Strand → Word) =>
    match d.strandsWith p with | k :: _ => f k (d.strandOf k) | [] => 0
  match src with
  | 0x020 => of_ (fun s => s.state == .failed && s.enable) (fun k s => pack [(24, s.failReason), (0, k)])
  | 0x022 => match (List.range 256).filter (fun k => nbit (d.skeinOf (k / 16)).modFault (k % 16)) with | k :: _ => word k | [] => 0
  | 0x023 => of_ (·.los) (fun k _ => word k)
  | 0x024 => of_ Strand.delayed (fun k s => pack [(8, s.meanDelay % 65536), (0, k)])
  | 0x027 => of_ (·.lost) (fun k s => pack [(8, s.lostWhy), (0, k)])
  | 0x028 => of_ (fun s => s.lastFault.isSome) (fun k s => pack [(8, s.lastFault.getD 0), (0, k)])
  | 0x091 => match d.meter.pulseIn.filter (fun p => p.2.stuckRaw) with | p :: _ => word p.1 | [] => 0
  | _ => 1

/-- A severity write lands (R242): raising it from 0 while RAW is set makes an occurrence with the detail of that core cycle. -/
def landSeverity (src sev : Nat) (d : Dev) : Dev :=
  let old := d.sevOf src
  let d := d.modSrc src (fun s => { s with sev := some sev })
  if old = 0 ∧ 0 < sev ∧ (d.srcOf src).raw then d.event src (d.rawDetail src) else d

/-- What the boundary does to the strands, with the words that the sideband scans shift in. -/
def Dev.strandsBoundary (d : Dev) (sideband : List Word) : Dev :=
  let d := forEach (d.strands.map (·.1)) (fun k d => (d.strandBoundary k).markBoundary k (d.strandOf k).comp) d
  let d := forEach (List.range d.skeinCount) (fun s d => d.scan s (wat sideband s)) d
  let lost := d.strandsWith (fun s => decide (s.lostDue ≠ 0))
  let occs := d.strandOccs lost
  let d := forEach lost (fun k d => d.modStrand k (fun s => { s with lost := true, lostWhy := s.lostDue, lostDue := 0, bypassSent := false })) d
  let d := d.rawStrands.setRaw 0x024 (decide (d.strandsWith Strand.delayed ≠ []))
  if occs.isEmpty then d else d.events occs

/-! ### Commands (R186, R423) -/

/-- The eight words of a strand's record (R186). -/
def Strand.words (s : Strand) : List Word :=
  let st : Nat := match s.state with
    | .off => 0 | .detect => 1 | .train => 2 | .lock => 3 | .caps => 4 | .active => 5 | .deep => 6 | .failed => 7
  [ pack [(28, st), (24, s.failReason), (11, b1 s.los), (10, b1 s.late), (9, b1 s.lost), (8, b1 s.txRest),
          (7, b1 s.restUp), (6, b1 s.restDn), (5, b1 s.autoRetrain), (4, b1 s.enable), (0, s.retryCnt)],
    s.floorSeen, word (s.comp % 65536), pack [(16, s.missCnt), (0, s.crcErr)], pack [(16, s.bulkErr), (0, s.lateCnt)],
    s.caps0, word s.minPulse, s.crcEcho ]

/-- STRAND (R186): LATE clears at once, the RW fields land at tick. -/
def bodyStrand : Body := fun r d =>
  match recForm r d.strandCount 8 with
  | none => d.say (.badArg 2)
  | some f =>
    if !r.write then d.say (f.readReply r (d.strandOf f.index).words)
    else match f.wordFor 0 with
      | none => d.doneNow
      | some w =>
        (d.modStrand f.index (fun s => { s with late := s.late && !bit w 10 })).doneAtTick r (.strandFields f.index w)

/-- STRAND command. -/
def execStrand (r : Req) (s : State) : Host.Outcome State Fault Refusal :=
  onMain (iapin 0x0105 readsRec bodyStrand r) s

/-- The RW fields of a strand land (R161, R186): a disable goes to OFF, an enable to DETECT from OFF or
FAILED. -/
def landStrandFields (k : Nat) (w : Word) (d : Dev) : Dev :=
  let old := d.strandOf k
  let d := d.modStrand k (fun s =>
    let s := { s with restUp := bit w 7, restDn := bit w 6, autoRetrain := bit w 5, enable := bit w 4 }
    if s.restUp != old.restUp && s.state == .active then s.restSet else s)
  if !bit w 4 then
    (if old.state = .off then d
     else
      let d := (d.enter k .off 0).kickPll
      if old.state = .active then d.reportDown [k] else d.rawStrands)
  else if old.state = .failed then
    ((d.modStrand k (fun s => { s with retryCnt := 0 })).toDetect k).rawStrands
  else if old.state = .off ∧ d.domainOn k then d.toDetect k
  else d

/-- A strand number beyond the part. -/
def Dev.badStrand (d : Dev) (w : Word) : Bool := decide (d.strandCount ≤ bits w 7 0)

/-- AUX_OUT (R157). -/
def bodyAuxOut : Body := fun r d =>
  let s := bits (arg r 2) 3 0
  if d.skeinCount ≤ s then d.say (.badArg 2) else d.doneAtTick r (.auxOut s (bits (arg r 2) 31 16))

/-- AUX_OUT command. -/
def execAuxOut (r : Req) (s : State) : Host.Outcome State Fault Refusal := onMain (iapin 0x0106 writes bodyAuxOut r) s

/-- RETURN_CELL (R178). -/
def bodyReturnCell : Body := fun r d =>
  let k := bits (arg r 2) 7 0
  let s := d.strandOf k
  if d.badStrand (arg r 2) then d.say (.badArg 2)
  else if s.state == .active && decide (16 ≤ s.freshRun) &&
      (match s.last with | some u => decide (wat u.control 23 = 0) | none => false) then d.doneAtTick r (.returnCell k)
  else d.say .wrongState

/-- RETURN_CELL command. -/
def execReturnCell (r : Req) (s : State) : Host.Outcome State Fault Refusal :=
  onMain (iapin 0x0107 writes bodyReturnCell r) s

/-- Something that makes the cell LOST holds now (R177): its strand is not ACTIVE, three uplinks have been missed, or the last
fault word names it. -/
def Strand.losesCell (s : Strand) : Bool :=
  s.state != .active || decide (3 ≤ s.missRun) ||
  (match s.last with
   | some u => let f := wat u.control 23; bit f 31 || bit f 29 || bit f 25
   | none => false)

/-- A return lands (R178), unless an event since its acceptance makes the cell LOST at the same boundary (R177). A standby
follows the active's flag. -/
def landReturnCell (k : Nat) (d : Dev) : Dev :=
  let judges := !d.isMember || d.ply.pstate == .active
  if judges && (d.strandOf k).losesCell then d
  else (d.modStrand k (fun s => { s with lost := false, lostDue := 0 })).rawStrands

/-- DEEP_REST (R180): only for a parked or unmapped cell. -/
def bodyDeepRest : Body := fun r d =>
  let k := bits (arg r 2) 7 0
  if d.badStrand (arg r 2) then d.say (.badArg 2)
  else if d.mapped k && !d.parked k then d.say .wrongState
  else d.doneAtTick r (.deepRest k)

/-- DEEP_REST command. -/
def execDeepRest (r : Req) (s : State) : Host.Outcome State Fault Refusal :=
  onMain (iapin 0x0108 writes bodyDeepRest r) s

/-- DEEP_REST lands: the command goes to the endpoint (R180). -/
def landDeepRest (k : Nat) (d : Dev) : Dev :=
  d.modStrand k (fun s => s.queueCmd { cmd := 0x04, arg0 := 0, args := [0, 0, 0], host := false })

/-- WAKE (R180): a strand in DEEP. -/
def bodyWake : Body := fun r d =>
  let k := bits (arg r 2) 7 0
  if d.badStrand (arg r 2) then d.say (.badArg 2)
  else if (d.strandOf k).state != .deep then d.say .wrongState
  else d.doneAtTick r (.wake k)

/-- WAKE command. -/
def execWake (r : Req) (s : State) : Host.Outcome State Fault Refusal := onMain (iapin 0x0109 writes bodyWake r) s

/-- A wake lands: TRAIN. -/
def landWake (k : Nat) (d : Dev) : Dev := if (d.strandOf k).state == .deep then d.enter k .train 0 else d

/-- A host command for the endpoint of strand k has not ended (R416, R423). -/
def Strand.hostBusy (s : Strand) : Bool := s.cmd.host || s.devCmds.any (·.host)

/-- ENDPOINT_CMD (R171, R423). -/
def bodyEndpointCmd : Body := fun r d =>
  let k := bits (arg r 2) 7 0
  let c := bits (arg r 3) 7 0
  if d.badStrand (arg r 2) then d.say (.badArg 2)
  else if c = 0x04 ∨ c = 0x05 then d.say (.badArg 3)
  else
    let p := d.beginLong 0x010A r
    if p.1.status = 1 then
      (p.1, p.2.modStrand k (fun s => s.queueCmd
        { cmd := c, arg0 := bits (arg r 4) 15 0, args := [arg r 5, arg r 6, arg r 7], host := true }))
    else p

/-- ENDPOINT_CMD command. -/
def execEndpointCmd (r : Req) (s : State) : Host.Outcome State Fault Refusal :=
  onMain (iapin 0x010A writes bodyEndpointCmd r) s

/-- BULK_RING (R175): the ring lies in the converter buffers of BAR2. -/
def bodyBulkRing : Body := fun r d =>
  let off := (arg r 3).toNat
  let len := (arg r 4).toNat
  if d.badStrand (arg r 2) then d.say (.badArg 2)
  else if off < areaLo ∨ areaEnd < off + len then d.say (.badArg 3)
  else d.doneAtTick r (.bulkRing (bits (arg r 2) 7 0) (bit (arg r 2) 8) off len)

/-- BULK_RING command. -/
def execBulkRing (r : Req) (s : State) : Host.Outcome State Fault Refusal :=
  onMain (iapin 0x010B writes bodyBulkRing r) s

/-- A bulk ring lands. -/
def landBulkRing (k : Nat) (up : Bool) (off len : Nat) (d : Dev) : Dev :=
  let ring := if len = 0 then none else some (off, len)
  d.modStrand k (fun s =>
    if up then { s with ringUp := ring, ringUpPos := 0 } else { s with ringDn := ring, ringDnPos := 0 })

/-- The four words of a cell's encoder record (R139). -/
def Cell.words (c : Cell) : List Word :=
  [ word c.swallow, word c.omitted, word c.swMin,
    pack [(8, c.edgeMax), (3, b1 c.edgeLimit), (2, b1 c.phiClamp), (1, b1 c.blocked)] ]

/-- ENCODER (R139): reads; a write clears PHI_CLAMP where it carries a 1. -/
def bodyEncoder : Body := fun r d =>
  match recForm r d.strandCount 4 with
  | none => d.say (.badArg 2)
  | some f =>
    if !r.write then d.say (f.readReply r (d.cellOf f.index).words)
    else (d.modCell f.index (fun c => { c with phiClamp := c.phiClamp && !bit (f.wordOr 3 0) 2 })).doneNow

/-- ENCODER command. -/
def execEncoder (r : Req) (s : State) : Host.Outcome State Fault Refusal :=
  onMain (iapin 0x0104 readsRec bodyEncoder r) s

end Sys2Proof.Machine
end

