-- ==== Sys2Proof/Machine/Encoder.lean ====
section
/-!
DEFINITION. The edge schedule encoder (R127, R128, R133 to R137), the phase words (R140, R141) and the
action of injections on units (R462, R463).
-/

namespace Sys2Proof.Machine

/-! ### Injections -/

/-- The key of an injection: class, lane and direction (0 transmit, 1 receive). -/
def injKey (cls lane dir : Nat) : Nat := (cls * 256 + lane) * 2 + dir

/-- One unit passes the injector of a key: the action that strikes it, if one does, and the injector after
it (R462). The unit after one that a reorder strikes is its partner, and is not struck itself (R463, R464). -/
def Dev.injectUnit (d : Dev) (key : Nat) : Option Injection × Dev :=
  let i := tblGet {} d.test.injections key
  if i.action = 0 then (none, d)
  else
    let hit := !i.paired && (if i.rate = 0 then decide (i.done = 0) else decide ((i.units + 1) % i.rate = 0))
    let j := { i with units := i.units + 1, done := if hit then i.done + 1 else i.done, paired := hit && decide (i.action = 4) }
    (if hit then some i else none, { d with test := { d.test with injections := tblSet {} d.test.injections key j } })

/-- Units of a stream that a strike covers: blocks of the ply link (R463). -/
def Injection.width (i : Injection) : Nat :=
  if i.action = 2 then i.n else if i.action = 3 then (i.n + 63) / 64 else if i.action = 4 then 2 else 1

/-- Strikes among the first m units of a stream whose units follow from the time (R462); a pair is struck once. -/
def Injection.struckUnits (i : Injection) (m : Nat) : Nat :=
  if i.rate = 0 then min 1 m else if i.rate = 1 ∧ i.action = 4 then (m + 1) / 2 else m / i.rate

/-- Unit j of such a stream, counted from 1, is altered (R462, R463). -/
def Injection.alters (i : Injection) (j : Nat) : Bool :=
  decide (i.action ≠ 0) && (if i.rate = 0 then decide (1 ≤ j) && decide (j ≤ i.width) else decide (i.rate ≤ j) && decide (j % i.rate < i.width))

/-- A block of a ply lane takes 8 core cycles (R215): one that an injection alters has come within the `n` core cycles up to `now`.
DESIGN CHOICE (note 201): the blocks of a lane are counted from the landing. -/
def Injection.altersIn (i : Injection) (now n : Nat) : Bool :=
  let from_ := now - n - i.since
  (List.range (n / 8 + 2)).any (fun k =>
    let j := from_ / 8 + 1 + k
    i.alters j && decide (i.since + 8 * (j - 1) < now))

/-- Invalid sync headers reach 16 within 64 between two core cycles (R216, R463): a single strike does where it is long enough, a
rate where its strikes are dense enough. -/
def Injection.losesLink (i : Injection) (from_ to_ : Nat) : Bool :=
  let n := min i.n i.rate
  decide (i.action = 2) &&
  (if i.rate = 0 then decide (16 ≤ i.n) && decide (from_ < i.since + 128) && decide (i.since + 128 ≤ to_)
   else decide (16 ≤ 64 / i.rate * n + min n (64 % i.rate)) && decide (i.since + 8 * (i.rate + 64) ≤ to_))

/-! ### Crossings (R133, R134) -/

/-- One crossing of a carrier and a leg's reference: its rounded time and the level it calls for. -/
abbrev Crossing := Int × Bool

/-- One slope of the carrier that starts at `t0` and lasts half a period: rising from −1, or falling from 1.
The crossing with a + b·t strictly inside it, or at its start where the carrier passes the reference in the
same direction as before, rounded to the nearest unit with ties to the later. -/
def slopeCrossing (cp : Rat) (a b t0 : Rat) (rising : Bool) : Option Crossing :=
  let k : Rat := if rising then 4 / cp else -(4 / cp)
  let kPrev := -k
  let c0 : Rat := if rising then -1 else 1
  let rel := k - b
  if rel = 0 then none
  else
    let t := (a - c0 + k * t0) / rel
    if (t0 < t ∧ t < t0 + cp / 2) ∨ (t = t0 ∧ 0 < (kPrev - b) * rel) then some ((t + 1 / 2).floor, decide (rel < 0))
    else none

/-- Slopes from a start, alternating. -/
def crossingsGo (cp a b horizon : Rat) : Nat → Rat → Bool → List Crossing
  | 0, _, _ => []
  | n + 1, t0, rising =>
    if horizon ≤ t0 then []
    else
      let rest := crossingsGo cp a b horizon n (t0 + cp / 2) (!rising)
      match slopeCrossing cp a b t0 rising with
      | some c => if 0 ≤ c.1 ∧ (c.1 : Rat) < horizon then c :: rest else rest
      | none => rest

/-- x modulo a positive period, as a rational in [0, p). -/
def ratMod (x p : Rat) : Rat := x - p * ((x / p).floor : Rat)

/-- Crossings of a carrier with period `cp` and minima at `phase` (absolute, modulo cp) with the linear
reference from m0 at 0 to m1 at `len`, over [0, horizon), in ticks' time from absolute instant `start`. -/
def crossings (cp : Nat) (phase : Rat) (start len horizon : Nat) (m0 m1 : Rat) : List Crossing :=
  let p : Rat := cp
  let t0 := ratMod (phase - (start : Rat)) p - 2 * p
  crossingsGo p m0 ((m1 - m0) / (len : Rat)) (horizon : Rat) (2 * (horizon / cp) + 8) t0 true

/-! ### Selection of edges (R136, R137) -/

/-- What the selection has found: edges in order, the leg's level and last edge, and the two counts. -/
structure LegOut where
  edges : List Crossing
  level : Option Bool
  last  : Int
  swallowed : Nat
  omitted   : Nat
  deriving DecidableEq, Repr

/-- The loop of R137. DEDUCED (note 195): with SW_MIN 0 two crossings of one 12.5 ps unit count as closer than it, since no two edges
of a leg share a T (R128). -/
def selectGo (len swMin : Nat) : Nat → List Crossing → LegOut → LegOut
  | 0, _, o => o
  | _, [], o => o
  | n + 1, e :: rest, o =>
    if (len : Int) ≤ e.1 then o
    else if o.level = some e.2 then selectGo len swMin n rest o
    else if e.1 - o.last < (max 1 swMin : Nat) then selectGo len swMin n rest { o with omitted := o.omitted + 1 }
    else match rest with
      | f :: more =>
        if f.1 - e.1 < (max 1 swMin : Nat) then selectGo len swMin n more { o with swallowed := o.swallowed + 1 }
        else selectGo len swMin n rest { o with edges := o.edges ++ [e], level := some e.2, last := e.1 }
      | [] => selectGo len swMin n [] { o with edges := o.edges ++ [e], level := some e.2, last := e.1 }

/-- Edges of one leg over the coming tick. -/
def selectEdges (len swMin : Nat) (cs : List Crossing) (level : Option Bool) (last : Int) : LegOut :=
  selectGo len swMin (cs.length + 1) cs { edges := [], level := level, last := last, swallowed := 0, omitted := 0 }

/-- The interleave index of strand k: the rank of its POS among the used positions of its arm (R133). -/
def mapIndex (m : List Word) (k : Nat) : Nat :=
  ((armCells m (mapArm m k)).filter (fun i => decide (mapPos m i < mapPos m k))).length

/-- The eight edge words of a leg (R127). -/
def edgeWords (es : List Crossing) : List Word :=
  fit 8 0 (es.map (fun e => pack [(8, e.1.toNat), (7, b1 e.2)]))

/-- The block with BLOCK set. -/
def blockWords : List Word := 0x80000000 :: List.replicate 16 0

/-- A 32-bit counter that adds and saturates. -/
def sat32 (c n : Nat) : Nat := min (c + n) 0xFFFFFFFF

/-- The encoder state of a cell that is sent BLOCK. -/
def Cell.toBlock (c : Cell) (m : Int) (len : Nat) : Cell :=
  { c with mPrev := m, everSent := true, blocked := true, blockPrev := true, built := true, levelA := none, levelB := none
           lastA := c.lastA - len, lastB := c.lastB - len, next := {} }

/-- The encoder state at a boundary: last edges stand in the coming tick's time, and a tick in which nothing was built has sent
no BLOCK (R134, R137). -/
def Cell.tickEnd (c : Cell) (len : Nat) : Cell :=
  if c.built then { c with built := false }
  else { c with blockPrev := false, lastA := c.lastA - len, lastB := c.lastB - len }

/-- The encoder state where the schedule built has not been sent (R134, R139). -/
def Cell.unsent (c old : Cell) : Cell := { c with everSent := old.everSent, blocked := old.blocked, blockPrev := false }

/-- The schedule of one cell for the coming tick, and its encoder state after it is sent (R133 to R137); `wanted`
is false where anything calls for BLOCK. -/
def Dev.encode (d : Dev) (k : Nat) (w : Word) (wanted : Bool) : List Word × Cell :=
  let c := d.cellOf k
  let len := 64 * d.tickCycles
  match d.mapForce with
  | none => (blockWords, c.toBlock (sval w) len)
  | some m =>
    if !wanted || !mapUsed m k || mapParked m k || c.edgeLimit || decide (c.edgeMax = 0) then
      (blockWords, c.toBlock (sval w) len)
    else
      let cp := 64 * mapCarrier m (mapArm m k)
      let n := (armCells m (mapArm m k)).length
      let phase := (mapDevPhase m : Rat) + (mapIndex m k : Rat) * (cp : Rat) / (2 * n : Nat)
      let m1 := q31Rat (sval w)
      let m0 := if c.blockPrev || !c.everSent then m1 else q31Rat c.mPrev
      let leg := fun (sign : Rat) (level : Option Bool) (last : Int) =>
        selectEdges len c.swMin (crossings cp phase ((d.tk.tick + 1) % 2 ^ 48 * len) len (len + c.swMin) (sign * m0) (sign * m1)) level last
      let a := leg 1 c.levelA c.lastA
      let b := leg (-1) c.levelB c.lastB
      (pack [(20, a.edges.length), (16, b.edges.length)] :: edgeWords a.edges ++ edgeWords b.edges,
        { c with
          mPrev := sval w, everSent := true, blocked := false, blockPrev := false, built := true
          swallow := sat32 c.swallow (a.swallowed + b.swallowed), omitted := sat32 c.omitted (a.omitted + b.omitted)
          levelA := a.level, levelB := b.level, lastA := a.last - len, lastB := b.last - len
          next := { a0 := c.levelA, b0 := c.levelB, edgesA := a.edges, edgesB := b.edges } })
where
  /-- A Q1.31 number as a rational. -/
  q31Rat (x : Int) : Rat := (x : Rat) / (2 ^ 31 : Nat)

/-! ### Phase words (R140, R141) -/

/-- The least and greatest FREQ_RATIO: 10 kHz and 500 kHz, rounded inward (R141). -/
def freqLimits (tickCycles : Nat) : Nat × Nat :=
  ((tickCycles * 524288 + 999999) / 1000000, tickCycles * 26214400 / 1000000)

/-- The two phase words, with whether a phase was clamped to ±PHI_MAX (R141). DEDUCED (note 194): FREQ_RATIO is bits [23:0] of its
plane's word (R140). -/
def phaseWords (tickCycles phiMax : Nat) (w0 w1 : Word) : List Word × Bool :=
  let a := signed 16 (bits w0 31 16)
  let b := signed 16 (bits w0 15 0)
  let a' := clampI (-(phiMax : Int)) phiMax a
  let b' := clampI (-(phiMax : Int)) phiMax b
  let f := freqLimits tickCycles
  ([pack [(16, lowBits 16 a'), (0, lowBits 16 b')], word (max f.1 (min f.2 (bits w1 23 0)))], decide (a ≠ a') || decide (b ≠ b'))

/-- PHI_MAX of strand k's arm; the default where no map is in force (R141). -/
def Dev.phiMaxOf (d : Dev) (k : Nat) : Nat :=
  match d.mapForce with
  | some m => if mapUsed m k then mapPhiMax m (mapArm m k) else 0x4000
  | none => 0x4000

end Sys2Proof.Machine
end

