-- ==== Sys2Proof/Machine/Alloc.lean ====
section
/-!
DEFINITION. The power allocator (R101 to R126, R485): its parameters, inputs in the weft region, the four
stages, the tie solution, results and reports. Powers are exact rationals in W inside a run; results are
rounded to the nearest Q1.31 (note 20).
-/

namespace Sys2Proof.Machine

/-! ### Inputs -/

/-- A Q1.31 word as a rational. -/
def q31 (w : Word) : Rat := (sval w : Rat) / (2 ^ 31 : Nat)

/-- A rational rounded to the nearest Q1.31, ties upward, saturated (note 20). -/
def toQ31 (x : Rat) : Word := sword (satI 32 ((x * (2 ^ 31 : Nat) + 1 / 2).floor))

/-- A cell of a run: strand, channel, rated power, demanded share, derate, tie limit, voltage limit, all
in W or V (R104 to R107). -/
structure ACell where
  k   : Nat
  ch  : Nat
  pr  : Rat
  p   : Rat
  h   : Rat
  tau : Rat
  v   : Rat

/-- An arm of a run (R103, R107, R110). -/
structure AArm where
  num    : Nat
  usPu   : Rat
  us     : Rat
  rating : Rat
  pmaxSq : Rat
  cells  : List ACell

/-- Grants, one for each channel. -/
abbrev Grants := List Rat

/-- The grant of a channel. -/
def grantOf (g : Grants) (c : Nat) : Rat := g.getD c 1

/-- Sum of a list of rationals. -/
def ratSum (l : List Rat) : Rat := l.foldl (· + ·) 0

/-- The share capacity's factor v ÷ Û* of a cell (R104). DESIGN CHOICE (note 190): zero where Û* is zero or negative. -/
def AArm.ratio (a : AArm) (c : ACell) : Rat := if 0 < a.us then c.v / a.us else 0

/-- Power of a cell at grants g. -/
def ACell.pAt (c : ACell) (g : Grants) : Rat := grantOf g c.ch * c.p

/-- Arm power X (R101). -/
def AArm.x (a : AArm) (g : Grants) : Rat := ratSum (a.cells.map (fun c => c.pAt g))

/-- Sum of the voltage limits. -/
def AArm.vSum (a : AArm) : Rat := ratSum (a.cells.map (·.v))

/-- F0 fails (R108, R109). -/
def AArm.short (a : AArm) : Bool := decide (0 < a.us) && decide (a.vSum < a.us)

/-- The arm takes no part in stages 3 and 4 and the tie solution (R109, R110). -/
def AArm.out (a : AArm) (g : Grants) : Bool :=
  a.short || decide (a.us ≤ 0) || decide (1000 * a.x g < a.rating) || decide (a.x g ≤ 0)

/-- The endpoint of strand k has not reported TIE clear (R162, R163): its tie limit stands. Capability words of zero
are those of an endpoint that has not reported. DEDUCED: note 34. -/
def Dev.tieCapable (d : Dev) (k : Nat) : Bool := (d.strandOf k).caps0 == 0 || bit (d.strandOf k).caps0 18

/-- The allocator reads IN_SERVICE of strand k at SRC (R116). -/
def inService (m : Mem) (src k : Nat) : Bool := bit (memWord m (src + 0x104 + 8 * k)) 31

/-- h_k at SRC (R116). -/
def derateAt (m : Mem) (src k : Nat) : Rat := (bits (memWord m (src + 0x104 + 8 * k)) 15 0 : Rat) / 0x8000

/-- A channel's rated power in W (R66, R424). -/
def Dev.chanRated (d : Dev) (c : Nat) : Nat := 10 * (d.chanOf c).cal.pRated

/-- DEMAND of a channel in W at SRC; zero while it has no rated power (R66, R116). -/
def Dev.demandW (d : Dev) (src c : Nat) : Rat :=
  let q := q31 (memWord d.weft (src + 0x900 + 8 * c))
  if q < 0 then 0 else q * (d.chanRated c : Rat)

/-- h times rated power summed over a channel's in-service cells (R106). -/
def channelWeight (m : List Word) (w : Mem) (src c : Nat) : Rat :=
  ratSum (((mapCells m).filter (fun k => mapChannel m k == c && inService w src k)).map
    (fun k => derateAt w src k * (mapRated m k : Rat)))

/-- The cell of a run on strand k (R104 to R106). DESIGN CHOICE (note 140): P_k is the share of the channel's power alone; no
word gives the cell's own losses (R101). DESIGN CHOICE (note 189): in a channel whose in-service cells all have weight zero P_k is
zero. -/
def Dev.acell (d : Dev) (m : List Word) (src k : Nat) : ACell :=
  let c := mapChannel m k
  let h := derateAt d.weft src k
  let pr := (mapRated m k : Rat)
  let wsum := channelWeight m d.weft src c
  let vdc := q31 (memWord d.weft (src + 0x100 + 8 * k))
  let vn := (mapVdcNom m : Rat) / 10
  let v := q31 (memWord d.weft (src + 0x4)) * (if vdc < 1 then vdc else 1) * vn
  let ratio := q31 (memWord d.weft (src + 0x14))
  { k := k, ch := c, pr := pr, h := h, v := if v < 0 then 0 else v
    p := if wsum ≤ 0 then 0 else d.demandW src c * h * pr / wsum
    tau := if d.tieCapable k then ratio * h * pr else 0 }

/-- The arm of a run (R103, R107). -/
def Dev.aarm (d : Dev) (m : List Word) (src j : Nat) : AArm :=
  let uref := q31 (memWord d.weft (src + 0x40 + 16 * j))
  let u0 := q31 (memWord d.weft (src + 0x44 + 16 * j))
  let zs := q31 (memWord d.weft (src + 0x10))
  let u0b := if mapArrange m = 0 then 0 else if u0 < 0 then -u0 else u0
  let usPu := q31 (memWord d.weft (src + 0x8)) * uref + (if zs < u0b then zs else u0b) + q31 (memWord d.weft (src + 0xC))
  let mv := (mapMvBase m j : Rat)
  let rating := ratSum (((armCells m j).filter (fun k => !mapParked m k)).map (fun k => (mapRated m k : Rat)))
  let s := uref * mv * (mapArmRated m j : Rat) / 20
  let q := q31 (memWord d.weft (src + 0x48 + 16 * j)) * rating
  { num := j, usPu := usPu, us := usPu * mv, rating := rating, pmaxSq := s * s - q * q
    cells := ((armCells m j).filter (inService d.weft src)).map (d.acell m src) }

/-! ### Tests (R107, R108) -/

/-- Stage 2: section power and arm current. -/
def limitOk (arms : List AArm) (secLim : Rat) (g : Grants) : Bool :=
  arms.all (fun a => let x := a.x g; decide (x ≤ 0) || (decide (0 ≤ a.pmaxSq) && decide (x * x ≤ a.pmaxSq))) &&
  decide (ratSum (arms.map (fun a => a.x g)) ≤ secLim)

/-- A cell's shortfall P − Q. -/
def AArm.gap (a : AArm) (g : Grants) (c : ACell) : Rat := c.pAt g - a.ratio c * a.x g

/-- F1 for every arm that takes part. -/
def f1Ok (arms : List AArm) (g : Grants) : Bool :=
  arms.all (fun a => a.out g || a.cells.all (fun c => decide (a.gap g c ≤ c.tau)))

/-- lo_k of R108. -/
def AArm.lo (a : AArm) (g : Grants) (c : ACell) : Rat := let d := a.gap g c; if d < -c.tau then -c.tau else d

/-- F1 and F2. -/
def f2Ok (arms : List AArm) (g : Grants) : Bool :=
  f1Ok arms g && arms.all (fun a => a.out g || decide (ratSum (a.cells.map (a.lo g)) ≤ 0))

/-- Channels with a cell beyond a bound in some arm that takes part: F1 failing, or in deficit. -/
def channelsBeyond (arms : List AArm) (g : Grants) (tie : Bool) : List Nat :=
  (List.range 32).filter (fun n => arms.any (fun a => !a.out g && a.cells.any (fun c =>
    c.ch == n && decide ((if tie then c.tau else 0) < a.gap g c))))

/-! ### Searches (R112) -/

/-- Whether a channel comes before another in the cut order. -/
def cutBefore (prio : Nat → Nat) (a b : Nat) : Bool :=
  decide (prio b < prio a) || (prio a == prio b && decide (b ≤ a))

/-- A channel put into its place in the cut order. -/
def cutInsert (prio : Nat → Nat) (a : Nat) : List Nat → List Nat
  | [] => [a]
  | x :: xs => if cutBefore prio a x then a :: x :: xs else x :: cutInsert prio a xs

/-- The cut order of a list of channels: lowest priority first, higher numbers first among equals. -/
def cutOrder (prio : Nat → Nat) (l : List Nat) : List Nat := l.foldr (cutInsert prio) []

/-- The factor of position i at cut level s. -/
def levelFactor (s : Rat) (i : Nat) : Rat :=
  let f := (i : Rat) + 1 - s
  if f < 0 then 0 else if 1 < f then 1 else f

/-- Factors of every channel at cut level s of an order; channels outside it keep 1. -/
def factorsAt (order : List Nat) (s : Rat) : Grants :=
  (List.range 32).map (fun c => match order.findIdx? (· == c) with
    | some i => levelFactor s i
    | none => 1)

/-- Grants times factors. -/
def mulGrants (g f : Grants) : Grants := (List.range 32).map (fun c => grantOf g c * grantOf f c)

/-- Bisection between an end that fails and one that passes; the passing end is kept. -/
def bisect (test : Rat → Bool) : Nat → Rat → Rat → Rat
  | 0, _, pass => pass
  | n + 1, fail, pass =>
    let mid := (fail + pass) / 2
    if test mid then bisect test n fail mid else bisect test n mid pass

/-- Bisection on whole numbers. -/
def bisectNat (test : Nat → Bool) : Nat → Nat → Nat → Nat
  | 0, _, pass => pass
  | n + 1, fail, pass =>
    if pass ≤ fail + 1 then pass
    else
      let mid := (fail + pass) / 2
      if test mid then bisectNat test n fail mid else bisectNat test n mid pass

/-- The cut-level search (R112): the level found. -/
def cutLevel (order : List Nat) (arg : Nat) (test : Grants → Bool) : Rat :=
  let ok := fun (s : Rat) => test (factorsAt order s)
  if order.isEmpty || ok 0 then 0
  else
    let n := bisectNat (fun k => ok (k : Rat)) 6 0 order.length
    bisect ok arg ((n : Rat) - 1) (n : Rat)

/-! ### The stages (R111) -/

/-- Stage 1: the lowest ratio of own limit to demand over a channel's cells, capped at 1. -/
def stage1 (arms : List AArm) : Grants :=
  (List.range 32).map (fun n => (arms.flatMap (·.cells)).foldl (fun f c =>
    if c.ch == n && decide (0 < c.p) then (let r := c.h * c.pr / c.p; if r < f then r else f) else f) 1)

/-- Stage 3: one common factor over the channels that fail F1. -/
def stage3 (arms : List AArm) (g : Grants) (arg : Nat) : Grants :=
  let fail := channelsBeyond arms g true
  let fs := fun (f : Rat) => (List.range 32).map (fun c => if fail.contains c then f else (1 : Rat))
  let ok := fun (f : Rat) => f1Ok arms (mulGrants g (fs f))
  if fail.isEmpty || !ok 0 then fs 1 else fs (bisect ok arg 1 0)

/-- What a run finds: factors of each stage, the final grants and the stage 4 cut level. -/
structure Found where
  f1 : Grants
  f2 : Grants
  f3 : Grants
  f4 : Grants
  g  : Grants
  level : Rat

/-- The four stages in their order. DESIGN CHOICE (note 166): all channels of stages 2 and 4 are those with an in-service cell in
the arms of the run. -/
def runStages (arms : List AArm) (secLim : Rat) (prio : Nat → Nat) (arg : Nat) : Found :=
  let chans := (List.range 32).filter (fun n => arms.any (fun a => a.cells.any (fun c => c.ch == n)))
  let f1 := stage1 arms
  let order2 := cutOrder prio chans
  let f2 := factorsAt order2 (cutLevel order2 arg (fun f => limitOk arms secLim (mulGrants f1 f)))
  let g2 := mulGrants f1 f2
  let f3 := stage3 arms g2 arg
  let g3 := mulGrants g2 f3
  let defi := (channelsBeyond arms g3 false).filter chans.contains
  let order4 := cutOrder prio defi ++ cutOrder prio (chans.filter (fun c => !defi.contains c))
  let s := cutLevel order4 arg (fun f => f2Ok arms (mulGrants g3 f))
  let f4 := factorsAt order4 s
  { f1 := f1, f2 := f2, f3 := f3, f4 := f4, g := mulGrants g3 f4, level := s }

/-! ### Tie solution (R113) -/

/-- T_k at λ. -/
def AArm.tieAt (a : AArm) (g : Grants) (lam : Rat) (c : ACell) : Rat :=
  let lo := a.lo g c
  let up := c.pAt g + a.ratio c * a.x g
  let hi := if c.tau < up then c.tau else up
  let t := lam * c.tau
  let t' := if hi < t then hi else t
  if t' < lo then lo else t'

/-- Bisection of λ on [a, b] that keeps an end with sum at most 0 and one with sum at least 0. -/
def tieEnds (sum : Rat → Rat) : Nat → Rat → Rat → Rat × Rat
  | 0, a, b => (a, b)
  | n + 1, a, b =>
    let mid := (a + b) / 2
    if sum mid ≤ 0 then tieEnds sum n mid b else tieEnds sum n a mid

/-- The tie flows of an arm, by cell in order. -/
def AArm.ties (a : AArm) (g : Grants) (arg : Nat) : List Rat :=
  let sum := fun lam => ratSum (a.cells.map (a.tieAt g lam))
  let e := tieEnds sum arg (-1) 1
  let sa := sum e.1
  let sb := sum e.2
  let th := if sb - sa = 0 then 0 else -sa / (sb - sa)
  a.cells.map (fun c => let ta := a.tieAt g e.1 c; ta + th * (a.tieAt g e.2 c - ta))

/-! ### Results (R117) -/

/-- The four words of a cell's result. -/
def cellWords (a : AArm) (g : Grants) (c : ACell) (t w : Rat) : List Word :=
  let p := c.pAt g
  let inv : Rat := if c.pr = 0 then 0 else 1 / c.pr
  let absT := if t < 0 then -t else t
  let absW := if w < 0 then -w else w
  [ toQ31 w, toQ31 (t * inv), toQ31 (p * inv),
    pack [(3, b1 (decide (0 < a.gap g c))), (2, b1 (decide (absT = c.tau))), (1, b1 (decide (absW * a.us = c.v))), (0, 1)] ]

/-- Strand and result words of every cell of an arm (R107, R109, R110, R113). DESIGN CHOICE (note 141): where Σ v_k is zero,
each share is zero. -/
def AArm.results (a : AArm) (g : Grants) (arg : Nat) (flat : Bool) : List (Nat × List Word) :=
  if flat || a.out g then
    a.cells.map (fun c => (c.k, cellWords a g c 0 (if a.vSum = 0 then 0 else c.v / a.vSum)))
  else
    (a.cells.zip (a.ties g arg)).map (fun q => (q.1.k, cellWords a g q.1 q.2 ((q.1.pAt g - q.2) / a.x g)))

/-- Results written for the strands of a section; cells without a result read zero (R117). -/
def writeCells (w : Mem) (dst : Nat) (strands : List Nat) (rs : List (Nat × List Word)) : Mem :=
  strands.foldl (fun w k =>
    memPutWords w (dst + 16 * k) (((rs.find? (fun r => r.1 == k)).map (·.2)).getD [0, 0, 0, 0])) w

/-! ### Reports -/

/-- The eight words of a channel's report (R118). -/
def Channel.reportWords (c : Channel) : List Word :=
  [ sword c.demand, sword c.grant, word c.ratio, word c.minRatio,
    pack [(4, c.prioUsed), (3, b1 c.cutTie), (2, b1 c.cutHeadroom), (1, b1 c.cutLimit), (0, b1 c.cutOwn)], 0, 0, 0 ]

/-- The four words of a section's status (R119). -/
def Section.statusWords (s : Section) : List Word :=
  [ word s.runTick, sword s.uStarMax, word s.cutLevel,
    pack [(8, s.armShort), (4, b1 s.shareShort), (3, b1 s.mapFallback), (2, b1 s.cfgErr), (1, b1 s.saturated),
          (0, b1 s.feasible)] ]

/-- A channel's report after a run (R118), with the point of its ramp that the grant answers. DESIGN CHOICE (note 167): a channel of
zero DEMAND is cut by no stage, whatever cut level covers it. -/
def Channel.afterRun (c : Channel) (dem : Word) (f : Found) (n prio : Nat) : Channel :=
  let zero := decide (sval dem ≤ 0)
  let r := if zero then 0x7FFFFFFF else (toQ31 (grantOf f.g n)).toNat
  let cutBy := fun (g : Grants) => !zero && decide (grantOf g n < 1)
  { c with
    grantRef := some c.asked
    demand := if zero then 0 else sval dem
    grant := if zero then 0 else sval (toQ31 (q31 dem * grantOf f.g n))
    ratio := r, minRatio := min c.minRatio r, prioUsed := prio
    cutOwn := cutBy f.f1, cutLimit := cutBy f.f2, cutHeadroom := cutBy f.f3, cutTie := cutBy f.f4 }

/-- Channel reports and section status copied to DST (R117). -/
def Dev.writeReports (d : Dev) (sec dst : Nat) : Dev :=
  let w := (List.range 32).foldl (fun w c => memPutWords w (dst + 0x1000 + 32 * c) (d.chanOf c).reportWords) d.weft
  { d with weft := memPutWords w (dst + 0x1400) (d.secOf sec).statusWords }

/-- Arms of a section in a run, by their numbers (R18, R114). -/
def sectionArms (m : List Word) (sec count : Nat) : List Nat :=
  let n := armsPerSection (mapArrange m)
  ((List.range count).map (fun j => sec * n + j)).filter (fun j => decide (j < mapArms m))

/-- PRIORITY of a channel at SRC (R116). -/
def prioAt (m : Mem) (src c : Nat) : Nat := bits (memWord m (src + 0x904 + 8 * c)) 3 0

/-- Grants that leave every demand whole. -/
def fullGrants : Grants := List.replicate 32 1

/-- The largest Û* over arms, as the status keeps it; zero where no arm takes part. -/
def uStarMaxOf : List AArm → Int
  | [] => 0
  | a :: l => l.foldl (fun (u : Int) a => max u (sval (toQ31 a.usPu))) (sval (toQ31 a.usPu))

/-- DEMAND of a channel at SRC, zero while it has no rated power (R66, R116). -/
def Dev.demandAt (d : Dev) (src n : Nat) : Word := if d.chanRated n = 0 then 0 else memWord d.weft (src + 0x900 + 8 * n)

/-- Channels that a run for some arms reports (R118): all but those whose cells lie in other arms alone. -/
def reportChans (m : List Word) (nums : List Nat) : List Nat :=
  let mine := nums.flatMap (armCells m)
  (List.range 32).filter (fun n =>
    mine.any (fun k => mapChannel m k == n) || !((mapCells m).any (fun k => mapChannel m k == n)))

/-- ARRANGE at SRC does not stand against the map in force (R116, R485). -/
def Dev.arrangeBad (d : Dev) (m : List Word) (src : Nat) : Bool :=
  let a := bits (memWord d.weft src) 31 28
  decide (2 < a) || a != mapArrange m

/-- The results of an arm without its shares and tie flows. -/
def AArm.noShares (a : AArm) (g : Grants) : List (Nat × List Word) := a.cells.map (fun c => (c.k, cellWords a g c 0 0))

/-- One run of the allocator for a section (R111 to R119). DEDUCED (note 142): where ARRANGE is invalid, shares and tie flows
are zero and CFG_ERR sets, and the rest of the run is as ever. -/
def Dev.runAlloc (d : Dev) (e : Entry) : Dev :=
  match d.mapForce with
  | none =>
    let d := { d with weft := writeCells d.weft e.dst (List.range d.strandCount) [] }
    let full : Found := { f1 := fullGrants, f2 := fullGrants, f3 := fullGrants, f4 := fullGrants, g := fullGrants, level := 0 }
    let d := forEach (List.range 32) (fun n d => d.modChan n (fun c =>
      c.afterRun (d.demandAt e.src n) full n (prioAt d.weft e.src n))) d
    (d.modSec e.unit (fun s =>
      { s with runTick := d.tk.tick % 2 ^ 32, cfgErr := true, mapFallback := false, saturated := false, feasible := true
               uStarMax := 0, cutLevel := 0, armShort := 0 })).writeReports e.unit e.dst
  | some m =>
    let nums := sectionArms m e.unit e.count
    let bad := d.arrangeBad m e.src
    let arms := nums.map (d.aarm m e.src)
    let secLim := q31 (memWord d.weft (e.src + 0x18)) * ratSum (arms.map (·.rating))
    let prio := prioAt d.weft e.src
    let f := runStages arms secLim prio e.arg
    let chans := (List.range 32).filter (fun n => arms.any (fun a => a.cells.any (fun c => c.ch == n)))
    let dem := d.demandAt e.src
    let cutMask := maskOf 32 (fun n => chans.contains n && decide (0 < sval (dem n)) && decide (grantOf f.g n < 1))
    let shortMask := maskOf 12 (fun j => arms.any (fun a => a.num == j && a.short))
    let rs := arms.flatMap (fun a => if bad then a.noShares f.g else a.results f.g e.arg false)
    let d := { d with weft := writeCells d.weft e.dst (List.range d.strandCount) rs }
    let d := forEach (reportChans m nums) (fun n d => d.modChan n (fun c => c.afterRun (dem n) f n (prio n))) d
    let d := d.modSec e.unit (fun s =>
      { s with runTick := d.tk.tick % 2 ^ 32, uStarMax := uStarMaxOf arms, cutLevel := (f.level * 65536).floor.toNat
               armShort := shortMask, mapFallback := false, cfgErr := bad, saturated := decide (cutMask ≠ 0)
               feasible := decide (cutMask = 0) && decide (shortMask = 0) })
    let d := d.writeReports e.unit e.dst
    let ev := (if shortMask = 0 then [] else [(0x010, word shortMask)]) ++ (if cutMask = 0 then [] else [(0x011, word cutMask)])
    if ev.isEmpty then d else d.events ev

/-- The fallback of R125: shares by voltage limit, no tie flow, grants of 1, until the first run under
the new map. -/
def Dev.mapFallback (d : Dev) (e : Entry) : Dev :=
  match d.mapForce with
  | none => d
  | some m =>
    let nums := sectionArms m e.unit e.count
    let arms := nums.map (d.aarm m e.src)
    let rs := arms.flatMap (fun a => a.results fullGrants e.arg true)
    let d := { d with weft := writeCells d.weft e.dst (List.range d.strandCount) rs }
    let f : Found := { f1 := fullGrants, f2 := fullGrants, f3 := fullGrants, f4 := fullGrants, g := fullGrants, level := 0 }
    let d := forEach (reportChans m nums) (fun n d => d.modChan n (fun c =>
      c.afterRun (d.demandAt e.src n) f n (prioAt d.weft e.src n))) d
    (d.modSec e.unit (fun s => { s with mapFallback := true })).writeReports e.unit e.dst

/-! ### The share stage (R120 to R122) -/

/-- A rational between a bound and its negative. -/
def ratClamp (b x : Rat) : Rat := if x < -b then -b else if b < x then b else x

/-- One pass of the clamp of R120: the excess of the clamped shares goes to the others in proportion to the room that each has
left. The shares, and what could not be placed. -/
def placeShares (l : List (Rat × Rat)) : List Rat × Rat :=
  let cut := l.map (fun p => ratClamp p.2 p.1)
  let excess := ratSum (l.map (·.1)) - ratSum cut
  let room := fun (p : Rat × Rat) => if p.1 < -p.2 ∨ p.2 < p.1 then 0 else if 0 ≤ excess then p.2 - p.1 else p.2 + p.1
  let total := ratSum (l.map room)
  let give := if excess < 0 then (if total < -excess then -total else excess) else if total < excess then total else excess
  ((l.zip cut).map (fun q => if total = 0 then q.2 else q.2 + give * room q.1 / total), excess - give)

/-- Δw_k of R120: the output of the PI instance that the set gives strand k, within ±TRIM_MAX, at its default of 0.002
(note 32). -/
def Dev.shareTrim (d : Dev) (k : Nat) : Rat := ratClamp (1 / 500) (q31 (memWord d.weft (Config.shareTrim k)))

/-- The word of plane 0 of strand k in the set that a DELIVER entry reads (R46). -/
def Entry.shareWord (e : Entry) (k : Nat) : Nat := if e.arg = 0 then e.src + 4 * (k - 16 * e.unit) else e.src + 4 * k

/-- The modulation w'·Û* ÷ V_dc of a cell, saturated (R65, R120). -/
def modulation (w us vdc : Rat) : Word :=
  if w * us = 0 then 0 else if vdc ≤ 0 then (if w * us < 0 then 0x80000000 else 0x7FFFFFFF) else toQ31 (w * us / vdc)

/-- One arm's share stage (R120): the modulation of each in-service cell, with what the clamp could not place. Where the
trimmed shares sum to zero their renormalisation is free, and the same for the same shares (R62). DESIGN CHOICE (notes 165 and 191):
Û*(t) is Û* of R103 on the words at SRC in this tick, and where it is zero or negative nothing is clamped. -/
def Dev.armShares (d : Dev) (m : List Word) (e : Entry) (a : AArm) : List (Nat × Word) × Rat :=
  let trims := a.cells.map (fun c => d.shareTrim c.k)
  let mean := if a.cells.isEmpty then 0 else ratSum trims / (a.cells.length : Rat)
  let w := (a.cells.zip trims).map (fun q => q31 (memWord d.weft (e.dst + 16 * q.1.k)) + q.2 - mean)
  let sum := ratSum w
  let w := (w.zip a.cells).map (fun q => if sum = 0 then q31 (Config.zeroShares w q.2.k) else q.1 / sum)
  let q := if a.us ≤ 0 then (w, 0) else placeShares (w.zip (a.cells.map (fun c => c.v / a.us)))
  let vn := (mapVdcNom m : Rat) / 10
  ((a.cells.zip q.1).map (fun x => (x.1.k, modulation x.2 a.us (q31 (memWord d.weft (e.src + 0x100 + 8 * x.1.k)) * vn))), q.2)

/-- The share stage for the section of one ALLOC entry: the modulations go to plane 0 of the DELIVER sets, and a remainder
sets SHARE_SHORT (R120, R121). -/
def Dev.sectionShares (d : Dev) (delivers : List Entry) (e : Entry) : Dev :=
  match d.mapForce with
  | none => d
  | some m =>
    let qs := (sectionArms m e.unit e.count).map (fun j => d.armShares m e (d.aarm m e.src j))
    let w := (qs.flatMap (·.1)).foldl (fun w p =>
      match delivers.find? (fun x => decide (16 * x.unit ≤ p.1) && decide (p.1 < 16 * x.unit + x.count)) with
      | some x => memPutWord w (x.shareWord p.1) p.2
      | none => w) d.weft
    let short := qs.any (fun q => decide (q.2 ≠ 0))
    { d with weft := w }.modSec e.unit (fun s => { s with shareShort := s.shareShort || short })

/-- Shares and tie flows of cells that are not in service read zero (R117, R122). -/
def Dev.dropShares (d : Dev) (e : Entry) : Dev :=
  { d with weft := (List.range d.strandCount).foldl (fun w k =>
      if inService w e.src k then w else memPutWords w (e.dst + 16 * k) [0, 0]) d.weft }

/-- Class cost of an ALLOC entry (R114). -/
def allocCost (strands count arg : Nat) : Nat :=
  400 + (16 + 4 * arg) * (8 + 4 * ((min (128 * count) strands + 31) / 32))

/-! ### Parameters (R116, R485) -/

/-- The parameter words of a section as the device keeps them at SRC (R116). -/
def Section.paramWords (s : Section) : List Word :=
  [pack [(28, s.arrange)], sword s.mMax, sword s.kInj, sword s.uMargin, sword s.zsBalMax, sword s.tieRatio, sword s.pSecLim]

/-- A parameter word lands (R116). -/
def Section.setParam (s : Section) (i : Nat) (w : Word) : Section :=
  if i = 0 then { s with arrange := bits w 31 28 }
  else if i = 1 then { s with mMax := sval w }
  else if i = 2 then { s with kInj := sval w }
  else if i = 3 then { s with uMargin := sval w }
  else if i = 4 then { s with zsBalMax := sval w }
  else if i = 5 then { s with tieRatio := sval w }
  else s

/-- A COEF commit lands the staged parameter words (R116). -/
def Dev.commitAlloc (d : Dev) : Dev :=
  let d := d.spin.stagedAlloc.foldl (fun d p =>
    match p.2 with
    | some w => d.modSec (p.1 / 8) (fun s => s.setParam (p.1 % 8) w)
    | none => d) d
  { d with spin := { d.spin with stagedAlloc := [] } }

/-- A MAP commit writes ARRANGE and K_INJ of every section (R485). -/
def Dev.mapToSections (d : Dev) (m : List Word) : Dev :=
  forEach (List.range 6) (fun n d => d.modSec n (fun s =>
    { s with arrange := mapArrange m, kInj := if mapArrange m = 0 then 0x7FFFFFFF else 0x6ED9EBA1 })) d

/-- ALLOC_STAGE (R116, R425). -/
def bodyAllocStage : Body := fun r d =>
  let sec := bits (arg r 2) 3 0
  let first := bits (arg r 2) 11 8
  let count := bits (arg r 2) 15 12
  if 6 ≤ sec ∨ count = 0 ∨ 6 < first + count then d.say (.badArg 2)
  else if first ≤ 5 ∧ 5 < first + count ∧ (0x2CCCCCCD : Int) < sval (arg r (3 + 5 - first)) then d.say (.badArg (3 + 5 - first))
  else
    let t := (List.range count).foldl (fun t i => tblSet none t (8 * sec + first + i) (some (arg r (3 + i)))) d.spin.stagedAlloc
    Dev.doneStaged { d with spin := { d.spin with stagedAlloc := t } }

/-- ALLOC_STAGE command. -/
def execAllocStage (r : Req) (s : State) : Host.Outcome State Fault Refusal :=
  onMain (iapin 0x0307 writes bodyAllocStage r) s

/-- SECTION_STATUS (R119): reads; a write clears SHARE_SHORT where it carries a 1. -/
def bodySectionStatus : Body := fun r d =>
  match recForm r 6 4 with
  | none => d.say (.badArg 2)
  | some f =>
    if !r.write then d.say (f.readReply r (d.secOf f.index).statusWords)
    else (d.modSec f.index (fun s => { s with shareShort := s.shareShort && !bit (f.wordOr 3 0) 4 })).doneNow

/-- SECTION_STATUS command. -/
def execSectionStatus (r : Req) (s : State) : Host.Outcome State Fault Refusal :=
  onMain (iapin 0x0103 readsRec bodySectionStatus r) s

/-- REPORT command (R118). -/
def execReport (r : Req) (s : State) : Host.Outcome State Fault Refusal :=
  onMain (iapin 0x0207 reads (recRead 32 8 (fun d n => (d.chanOf n).reportWords)) r) s

end Sys2Proof.Machine
end

