-- ==== Sys2Proof/Machine/ModeCommit.lean ====
section
/-!
DEFINITION. Mode commit: arms, aborts and staged contents (R52 to R59, R429).
-/

namespace Sys2Proof.Machine

/-- An item of the mode set has staged contents (R54, R55): bit 1 MAP, 2 COEF, 3 RECIPE, 4 CHAN, 5 TRIM. -/
def Dev.isStaged (d : Dev) (item : Nat) : Bool :=
  if item = 1 then d.mapStaged.isSome
  else if item = 2 then d.spin.stagedCoef.isSome || !d.spin.stagedAlloc.isEmpty
  else if item = 3 then d.recipes.staged.isSome
  else if item = 4 then d.recipes.chans.any (fun p => p.2.staged.isSome)
  else if item = 5 then d.trims.any (fun p => p.2.staged.isSome || p.2.stagedDrv.isSome)
  else true

/-- VALID of a bank (R52). -/
def Dev.bankValid (d : Dev) (b : Nat) : Bool := if b = 0 then d.tk.bank0.valid else d.tk.bank1.valid

/-- The bank other than RUN_BANK (R52). -/
def Dev.otherBank (d : Dev) : Nat := 1 - d.tk.runBank

/-- The judgement of an arm or abort: status, reason and RESULT (R55, R56, R364). -/
structure Judgement where
  status : Nat
  reason : Nat := 0
  result : Nat := 0
  deriving DecidableEq, Repr

/-- The first reason that refuses an arm, with its status (R55); none arms it. -/
def Dev.armRefusal (d : Dev) (e t set : Nat) (campus : Bool) : Option (Nat × Nat) :=
  let n := d.tk.tick
  if d.isMember && d.ply.pstate != .active && d.ply.pstate != .candidate then some (0, 0x0401)
  else if !d.tk.seqRun then some (8, 0x0103)
  else if t < n + d.tk.commitGuard + 1 then some (1, 0x0102)
  else if n + 2 ^ 31 < t then some (2, 0x0102)
  else if e ≤ d.tk.appliedEpoch.toNat then some (3, 0x0102)
  else if [1, 2, 3, 4, 5].any (fun i => nbit set i && !d.isStaged i) then some (4, 0x0103)
  else if nbit set 0 && !d.bankValid d.otherBank then some (5, 0x0103)
  else if campus && (!d.tk.alignOk || decide (d.tk.alignSrc = 0)) then some (6, 0x0103)
  else if d.tk.commit != .idle then some (7, 0x0104)
  else none

/-- An arm judged in the present tick (R55, R56). -/
def Dev.judgeArm (d : Dev) (e t set : Nat) (campus : Bool) : Judgement × Dev :=
  match d.armRefusal e t set campus with
  | some (reason, status) => ({ status := status, reason := reason }, d)
  | none => ({ status := 0, result := 1 },
      { d with tk := { d.tk with commit := .armed, epoch := word e, target := t, set := set, campus := campus }
               recipes := { d.recipes with armed := d.recipes.staged } })

/-- The commit logic back in IDLE, with nothing pending (R56, R60). -/
def TickSt.disarm (t : TickSt) : TickSt :=
  { t with commit := .idle, epoch := 0, target := 0, set := 0, campus := false }

/-- An abort judged (R56). -/
def Dev.judgeAbort (d : Dev) (e : Nat) : Judgement × Dev :=
  match d.tk.commit with
  | .idle => ({ status := 0, result := 3 }, d)
  | .armed =>
    if d.tk.epoch.toNat ≠ e then ({ status := 0x0102 }, d)
    else if d.tk.tick + d.tk.commitGuard < d.tk.target then
      ({ status := 0, result := 2 }, { d with tk := d.tk.disarm })
    else ({ status := 0x0103, result := 4 }, d)
  | .committed => ({ status := 0x0103, result := 4 }, d)

/-- The reply of ARM and ABORT (R429): RESULT and reason, N, and APPLIED_EPOCH. -/
def Dev.judgeReply (d : Dev) (j : Judgement) : Rep :=
  let n := if d.tk.seqRun then d.tk.tick else 0
  ⟨j.status, [pack [(8, j.reason), (0, j.result)], word n, word (n / 2 ^ 32), d.tk.appliedEpoch]⟩

/-- ARM (R55, R429); a reserved bit of the mode set is a bad argument (R54). -/
def bodyArm : Body := fun r d =>
  if bits (arg r 5) 31 6 ≠ 0 then d.say (.badArg 5)
  else
    let q := d.judgeArm (arg r 2).toNat (join48 (arg r 3) (arg r 4)) (arg r 5).toNat (bit (arg r 6) 0)
    (d.judgeReply q.1, q.2)

/-- ARM command. -/
def execArm (r : Req) (s : State) : Host.Outcome State Fault Refusal := onMain (iapin 0x0701 writes bodyArm r) s

/-- ABORT (R56, R429). -/
def bodyAbort : Body := fun r d =>
  let q := d.judgeAbort (arg r 2).toNat
  (d.judgeReply q.1, q.2)

/-- ABORT command. -/
def execAbort (r : Req) (s : State) : Host.Outcome State Fault Refusal := onMain (iapin 0x0702 writes bodyAbort r) s

/-- The staged data of one kind dropped, by its bit in a set (R429). -/
def Dev.dropKind (d : Dev) : Nat → Dev
  | 0 => if d.otherBank = 0 then { d with tk := { d.tk with bank0 := {} } } else { d with tk := { d.tk with bank1 := {} } }
  | 1 => { d with mapStaged := none }
  | 2 => { d with spin := { d.spin with stagedCoef := none, stagedAlloc := [] } }
  | 3 => { d with recipes := { d.recipes with staged := none } }
  | 4 => forEach (List.range 32) (fun n d => d.modChan n (fun c => { c with staged := none })) d
  | 5 => forEach (List.range 32) (fun n d => d.modTrim n (fun t => { t with staged := none, stagedDrv := none })) d
  | _ => d

/-- Staged contents of the items of a mode set dropped (R52, R429). -/
def Dev.dropStaged (d : Dev) (set : Nat) : Dev :=
  forEach ((List.range 6).filter (nbit set)) (fun b d => d.dropKind b) d

/-- UNSTAGE (R429). -/
def bodyUnstage : Body := fun r d =>
  let set := (arg r 2).toNat
  if 64 ≤ set then d.say (.badArg 2)
  else if d.tk.commit != .idle && decide (d.tk.set &&& set ≠ 0) then d.say .wrongState
  else if nbit set 0 && !d.tk.seqRun then d.say .wrongState
  else (d.dropStaged set).doneNow

/-- UNSTAGE command. -/
def execUnstage (r : Req) (s : State) : Host.Outcome State Fault Refusal :=
  onMain (iapin 0x0706 writes bodyUnstage r) s

/-! ### Status words (R60, R153) -/

/-- COMMIT_STATE (R60). -/
def CommitState.code : CommitState → Nat
  | .idle => 0 | .armed => 1 | .committed => 2

/-- Word 0x54: the flags of the sequencer and of commits (R60). -/
def TickSt.flagWord (t : TickSt) : Word :=
  pack [(9, b1 t.overrun), (8, b1 t.alignOk), (6, t.alignSrc % 4), (4, t.commit.code), (3, b1 t.seqRun), (2, b1 t.bank1.valid),
        (1, b1 t.bank0.valid), (0, t.runBank % 2)]

/-- Words of R60 and R153, from 0x40 to 0x78. -/
def TickSt.regWord (t : TickSt) (off : Nat) : Word :=
  match off with
  | 0x40 => word t.tick
  | 0x44 => word t.tickHiCap
  | 0x48 => t.appliedEpoch
  | 0x4C => word t.appliedTick
  | 0x50 => word t.appliedTickHiCap
  | 0x54 => t.flagWord
  | 0x58 => t.epoch
  | 0x5C => word t.target
  | 0x60 => pack [(16, t.set % 65536), (0, t.targetHiCap)]
  | 0x64 => pack [(16, t.guardLen), (0, t.tickSteps)]
  | 0x68 => pack [(16, t.bank1.span % 65536), (0, t.bank0.span % 65536)]
  | 0x6C => pack [(16, t.commitGuard), (0, t.overrunCnt)]
  | 0x70 => pack [(12, t.syncDelay), (2, b1 t.syncStray), (1, b1 t.syncSeen)]
  | 0x74 => pack [(16, t.strayCount), (0, lowBits 16 (satI 16 t.syncOffset))]
  | 0x78 => word t.devPhase
  | _ => 0

/-- The words of R60 latched in the guard window (R39). A read of a status word gives it as it stands (note 127). -/
def TickSt.latch (t : TickSt) : TickSt := { t with latched := (List.range 12).map (fun i => t.regWord (0x40 + 4 * i)) }

/-- A read of TICK_LO captures the high words (R60). -/
def Dev.readTickLo (b : ReadBytes) (d : Dev) : Dev :=
  let t := d.tk
  let d := { d with tk := { t with tickHiCap := t.tick / 2 ^ 32 % 65536,
                                   appliedTickHiCap := t.appliedTick / 2 ^ 32 % 65536,
                                   targetHiCap := t.target / 2 ^ 32 % 65536 } }
  d.giveBytes b (word t.tick)

/-- TICK_LO_READ. -/
def execTickLoRead (m : WordRead) (s : State) : Host.Outcome State Fault Refusal :=
  onMain (fun d => d.served m.master (Dev.readTickLo m.bytes)) s

end Sys2Proof.Machine
end

