-- ==== Sys2Proof/Machine/Spindle.lean ====
section
/-!
DEFINITION. The spindle (R61 to R85): its accumulator arithmetic, the block library, one evaluation of an
instance, and the commands of the control blocks and coefficients group.
-/

namespace Sys2Proof.Machine

/-! ### Accumulator arithmetic (R63, R64) -/

/-- An accumulator value in units of 2^-47, with whether anything saturated on the way (R64). -/
structure Num where
  v : Int
  s : Bool := false
  deriving DecidableEq, Repr

/-- A number saturated to the accumulator's range. -/
def Num.of (x : Int) : Num := ⟨satI 64 x, decide (satI 64 x ≠ x)⟩
/-- A signal as an accumulator value. -/
def Num.sig (x : Int) : Num := ⟨x * 65536, false⟩
/-- A saturating sum. -/
def Num.add (a b : Num) : Num := let t := Num.of (a.v + b.v); ⟨t.v, a.s || b.s || t.s⟩
/-- A saturating difference. -/
def Num.sub (a b : Num) : Num := let t := Num.of (a.v - b.v); ⟨t.v, a.s || b.s || t.s⟩

/-- A coefficient: its word as a signed number, and its shift (R63). -/
structure Coef where
  c  : Int
  sh : Int
  deriving DecidableEq, Repr

/-- Coefficient k of a record (R71). -/
def Inst.coefOf (i : Inst) (k : Nat) : Coef :=
  let w := wat i.coef (if k < 6 then 12 else 13)
  let j := k % 6
  ⟨sval (wat i.coef k), signed 5 (bits w (5 * j + 4) (5 * j))⟩

/-- The value of a coefficient in the accumulator. -/
def Coef.num (k : Coef) : Num := Num.of (k.c * (2 ^ (16 + k.sh).toNat : Nat))

/-- A product aligned to the accumulator by a right shift that rounds towards minus infinity (R64). -/
def Num.mul (k : Coef) (x : Num) : Num :=
  let t := Num.of ((x.v * k.c) / (2 ^ (31 - k.sh).toNat : Nat))
  ⟨t.v, x.s || t.s⟩

/-- A product with a signal-format factor, such as a sine. -/
def Num.mulSig (x : Num) (y : Int) : Num := Num.mul ⟨y, 0⟩ x

/-- An accumulator value limited to [lo, hi], with the side on which it was limited: 1 above, -1 below. -/
def Num.limit (x : Num) (lo hi : Int) : Int × Int :=
  if hi < x.v then (hi, 1) else if x.v < lo then (lo, -1) else (x.v, 0)

/-- An accumulator value rounded to Q1.31, ties towards plus infinity, and saturated (R64). -/
def toSignal (x : Int) : Int × Bool :=
  let r := (x + 32768) / 65536
  (satI 32 r, decide (satI 32 r ≠ r))

/-- An angle wrapped modulo 2.0 p.u. in a format of n bits (R65). -/
def wrapI (n : Nat) (x : Int) : Int := signed n (lowBits n x)

/-! ### Sine and cosine (R74) -/

/-- π in units of 2^-60. -/
def pi60 : Int := 3622009729038561421

/-- One further term of the sine series at x, units of 2^-60, from term n. -/
def sineTerms : Nat → Int → Int → Int → Int
  | 0, _, _, _ => 0
  | k + 1, x2, term, n => term + sineTerms k x2 (-(term * x2 / (2 ^ 60 : Nat)) / ((2 * n) * (2 * n + 1))) (n + 1)

/-- The true sine of point i of the quarter wave's 1,024, in Q1.31. -/
def trueSine (i : Nat) : Int :=
  let x := pi60 * i / 2048
  (sineTerms 12 (x * x / (2 ^ 60 : Nat)) x 1 + (2 ^ 28 : Nat)) / (2 ^ 29 : Nat)

/-- A point of the device's table: the true sine within a free deviation that keeps the whole error,
interpolation included, within 2^-20 (R74, note 10). -/
def sinePoint (i : Nat) : Int :=
  clampI (-(2 ^ 31 : Nat)) ((2 ^ 31 : Nat) - 1) (trueSine i + clampI (-1390) 1390 (Config.sineTable i))

/-- The sine over a quarter wave by linear interpolation; a from 0 to 2^30. -/
def quarterSine (a : Nat) : Int :=
  let i := a / 2 ^ 20
  let p := sinePoint i
  p + (sinePoint (i + 1) - p) * (a % 2 ^ 20 : Nat) / (2 ^ 20 : Nat)

/-- The sine of an angle signal, extended to the whole turn by symmetry (R74). -/
def sineOf (angle : Int) : Int :=
  let a := lowBits 32 angle
  if a < 2 ^ 30 then quarterSine a
  else if a < 2 ^ 31 then quarterSine (2 ^ 31 - a)
  else if a < 3 * 2 ^ 30 then -quarterSine (a - 2 ^ 31)
  else -quarterSine (2 ^ 32 - a)

/-- The cosine of an angle signal. -/
def cosineOf (angle : Int) : Int := sineOf (angle + 2 ^ 30)

/-! ### Descriptors (R67, R68) -/

/-- A decoded instance descriptor. -/
structure Descr where
  typ   : Nat
  width : Nat
  flags : Nat
  inst  : Nat
  inA   : Nat
  inB   : Nat
  inC   : Nat
  out   : Nat
  deriving DecidableEq, Repr

/-- The offset that means "no input" (R67). -/
def noInput : Nat := 0x7FFFFC

/-- Cost of a block type; none for a code a SPIN entry may not name (R68, R73). -/
def blockCost (t : Nat) : Option Nat :=
  ([(0x01, 14), (0x02, 20), (0x03, 16), (0x04, 20), (0x05, 12), (0x06, 8), (0x07, 10), (0x08, 8),
    (0x09, 12), (0x0A, 24), (0x0B, 48), (0x0C, 10)].find? (fun p => p.1 == t)).map (·.2)

/-- FLAGS bits that a type defines (R74), of bits [15:12]. -/
def blockFlags (t : Nat) : Nat :=
  if t = 0x06 then 3 else if t = 0x08 ∨ t = 0x0A ∨ t = 0x0C then 1 else 0

/-- Outputs of a type (R74, R82). -/
def blockOutputs (t : Nat) : Nat := if t = 0x09 ∨ t = 0x0B then 3 else if t = 0x0A then 2 else 1

/-- The descriptor of eight words. -/
def descrOf (ws : List Word) : Descr :=
  let w := wat ws 0
  { typ := bits w 31 24, width := bits w 21 16 + 1, flags := bits w 15 12, inst := bits w 10 0,
    inA := bits (wat ws 1) 22 0, inB := bits (wat ws 2) 22 0, inC := bits (wat ws 3) 22 0, out := bits (wat ws 4) 22 0 }

/-- An input lies inside the weft region at a multiple of 4, or is "no input". -/
def inputOk (off len : Nat) : Bool :=
  off == noInput || (decide (off % 4 = 0) && decide (off + len ≤ 0x800000))

/-- The checks of R68 on one descriptor, but for the uniqueness of its INST_ID. DESIGN CHOICE (note 129): not only the
offset but every lane's word of an input or output must lie inside the weft region. -/
def descrOk (ws : List Word) : Bool :=
  let w := wat ws 0
  let x := descrOf ws
  (blockCost x.typ).isSome && decide (x.width ≤ (if x.typ = 0x0B then 4 else 32)) &&
  decide (bits w 23 22 = 0) && !bit w 11 && decide (x.flags &&& (15 ^^^ blockFlags x.typ) = 0) &&
  [1, 2, 3, 4].all (fun i => decide (bits (wat ws i) 31 23 = 0)) && [5, 6, 7].all (fun i => decide (wat ws i = 0)) &&
  inputOk x.inA (if x.typ = 0x0C ∧ x.flags % 2 = 0 then 16 * x.width else 4 * x.width) &&
  inputOk x.inB (4 * x.width) && inputOk x.inC (4 * x.width) &&
  decide (x.out % 4 = 0) && decide (x.out + 4 * x.width * blockOutputs x.typ ≤ 0x800000)

/-! ### Block equations (R74, R79, R82) -/

/-- What one lane's evaluation gives: outputs in Q1.31, its next state, and flags. -/
structure LaneOut where
  outs     : List Int
  lane     : Lane
  accSat   : Bool := false
  outSat   : Bool := false
  intClamp : Bool := false
  inverted : Bool := false
  bump     : Bool := false
  unlocked : Bool := false
  deriving DecidableEq, Repr

/-- An output limited to the coefficients `hi` and `lo`, rounded (R64, R74): value, side, OUT_SAT. -/
def limitOut (i : Inst) (x : Num) (hi lo : Nat) : Int × Int × Bool :=
  let l := x.limit (i.coefOf lo).num.v (i.coefOf hi).num.v
  let o := toSignal l.1
  (o.1, l.2, decide (l.2 ≠ 0) || o.2)

/-- The integrator update of PI, PID and PLL (R74): skipped in the direction of a limit, else clamped. -/
def integrate (i : Inst) (x : Int) (step : Num) (side : Int) (hi lo : Nat) : Int × Bool × Bool :=
  if (side = 1 ∧ 0 < step.v) ∨ (side = -1 ∧ step.v < 0) then (x, true, step.s)
  else
    let n := Num.add ⟨x, false⟩ step
    let l := n.limit (i.coefOf lo).num.v (i.coefOf hi).num.v
    (l.1, decide (l.2 ≠ 0), n.s)

/-- PI and PID (R74). -/
def evalPi (pid : Bool) (i : Inst) (l : Lane) (a b c : Int) : LaneOut :=
  let e := Num.sub (.sig a) (.sig b)
  let k := if pid then 4 else 2
  let d : Num := if pid then
      Num.add (Num.mul (i.coefOf 3) ⟨l.d, false⟩) (Num.mul (i.coefOf 2) (Num.sub e ⟨l.ePrev, false⟩))
    else ⟨0, false⟩
  let u := Num.add (Num.add (Num.add (Num.mul (i.coefOf 0) e) ⟨l.x, false⟩) d) (.sig c)
  let o := limitOut i u k (k + 1)
  let step := Num.mul (i.coefOf 1) e
  let n := integrate i l.x step o.2.1 (k + 2) (k + 3)
  { outs := [o.1], lane := { l with x := n.1, d := if pid then d.v else l.d, ePrev := if pid then e.v else l.ePrev },
    accSat := u.s || d.s || n.2.2, outSat := o.2.2, intClamp := n.2.1 }

/-- BIQUAD in transposed direct form II (R74). -/
def evalBiquad (i : Inst) (l : Lane) (a b c : Int) : LaneOut :=
  let v := Num.add (Num.sub (.sig a) (.sig b)) (.sig c)
  let y := Num.add (Num.mul (i.coefOf 0) v) ⟨l.s1, false⟩
  let o := limitOut i y 5 6
  let yo := Num.sig o.1
  let s1 := Num.add (Num.sub (Num.mul (i.coefOf 1) v) (Num.mul (i.coefOf 3) yo)) ⟨l.s2, false⟩
  let s2 := Num.sub (Num.mul (i.coefOf 2) v) (Num.mul (i.coefOf 4) yo)
  { outs := [o.1], lane := { l with s1 := s1.v, s2 := s2.v }, accSat := y.s || s1.s || s2.s, outSat := o.2.2 }

/-- PR: the BIQUAD recursion on e gives r (R74). DESIGN CHOICE (note 130): the r that feeds back into the states is the
accumulator value, neither limited nor rounded. -/
def evalPr (i : Inst) (l : Lane) (a b c : Int) : LaneOut :=
  let e := Num.sub (.sig a) (.sig b)
  let r := Num.add (Num.mul (i.coefOf 1) e) ⟨l.s1, false⟩
  let y := Num.add (Num.add (Num.mul (i.coefOf 0) e) r) (.sig c)
  let o := limitOut i y 6 7
  let s1 := Num.add (Num.sub (Num.mul (i.coefOf 2) e) (Num.mul (i.coefOf 4) r)) ⟨l.s2, false⟩
  let s2 := Num.sub (Num.mul (i.coefOf 3) e) (Num.mul (i.coefOf 5) r)
  { outs := [o.1], lane := { l with s1 := s1.v, s2 := s2.v }, accSat := y.s || s1.s || s2.s, outSat := o.2.2 }

/-- LEADLAG (R74); its state is kept in s1. -/
def evalLeadLag (i : Inst) (l : Lane) (a b c : Int) : LaneOut :=
  let e := Num.sub (.sig a) (.sig b)
  let y := Num.add (Num.add (Num.mul (i.coefOf 0) e) ⟨l.s1, false⟩) (.sig c)
  let o := limitOut i y 3 4
  let s := Num.sub (Num.mul (i.coefOf 1) e) (Num.mul (i.coefOf 2) (.sig o.1))
  { outs := [o.1], lane := { l with s1 := s.v }, accSat := y.s || s.s, outSat := o.2.2 }

/-- LIMIT (R74). -/
def evalLimit (flags : Nat) (i : Inst) (l : Lane) (a b c : Int) : LaneOut :=
  let hi := if nbit flags 0 then (Num.sig b).v else (i.coefOf 0).num.v
  let lo := if nbit flags 1 then (Num.sig c).v else (i.coefOf 1).num.v
  let o := toSignal (min hi (max lo (Num.sig a).v))
  { outs := [o.1], lane := l, outSat := o.2, inverted := decide (hi < lo) }

/-- FFWD (R74). -/
def evalFfwd (i : Inst) (l : Lane) (a b c : Int) : LaneOut :=
  let y := Num.add (Num.add (Num.add (Num.mul (i.coefOf 0) (.sig a)) (Num.mul (i.coefOf 1) (.sig b)))
    (Num.mul (i.coefOf 2) (.sig c))) (i.coefOf 3).num
  let o := toSignal y.v
  { outs := [o.1], lane := l, accSat := y.s, outSat := o.2 }

/-- SELECT (R74). -/
def evalSelect (flags : Nat) (l : Lane) (a b c : Int) : LaneOut :=
  let takeA := if nbit flags 0 then decide (0 ≤ c) else decide (c % 2 = 1)
  { outs := [if takeA then a else b], lane := l }

/-- A sum of exact products with factors of 48 fractional bits, rounded to Q1.31 once (R74 CLARKE). -/
def clarkeOut (x : Int) : Int × Bool :=
  let r := (x + (2 ^ 47 : Nat)) / (2 ^ 48 : Nat)
  (satI 32 r, decide (satI 32 r ≠ r))

/-- CLARKE (R74): 1/3, 2/3 and 1/√3 held to 48 fractional bits. -/
def evalClarke (l : Lane) (a b c : Int) : LaneOut :=
  let al := clarkeOut (187649984473771 * a - 93824992236885 * b - 93824992236885 * c)
  let be := clarkeOut (162509653574041 * (b - c))
  let z := clarkeOut (93824992236885 * (a + b + c))
  { outs := [al.1, be.1, z.1], lane := l, outSat := al.2 || be.2 || z.2 }

/-- PARK and its inverse (R74). -/
def evalPark (flags : Nat) (l : Lane) (a b c : Int) : LaneOut :=
  let s := sineOf c
  let k := cosineOf c
  let x := Num.sig a
  let y := Num.sig b
  let p := if nbit flags 0 then Num.sub (x.mulSig k) (y.mulSig s) else Num.add (x.mulSig k) (y.mulSig s)
  let q := if nbit flags 0 then Num.add (x.mulSig s) (y.mulSig k) else Num.sub (y.mulSig k) (x.mulSig s)
  let po := toSignal p.v
  let qo := toSignal q.v
  { outs := [po.1, qo.1], lane := l, accSat := p.s || q.s, outSat := po.2 || qo.2 }

/-- AVG mode 1 (R74). -/
def evalAvg1 (i : Inst) (l : Lane) (a : Int) : LaneOut :=
  let y := Num.add ⟨l.y, false⟩ (Num.mul (i.coefOf 0) (Num.sub (.sig a) ⟨l.y, false⟩))
  let o := toSignal y.v
  { outs := [o.1], lane := { l with y := y.v }, accSat := y.s, outSat := o.2 }

/-- AVG mode 0: the mean of four oversamples (R74). -/
def evalAvg0 (l : Lane) (ss : List Int) : LaneOut :=
  let o := toSignal (ss.foldl (fun t x => t + x * 16384) 0)
  { outs := [o.1], lane := l, outSat := o.2 }

/-- The lock state of a PLL lane after |vq| (R83). -/
def lockStep (i : Inst) (l : Lane) (vq : Int) : Lane × Bool :=
  let th := (i.coefOf 6).num.v
  let a := if vq < 0 then -vq else vq
  if l.locked then
    let n := if 2 * th < a then l.unlockRun + 1 else 0
    if 16 ≤ n then ({ l with locked := false, unlockRun := 0, lockRun := 0 }, true)
    else ({ l with unlockRun := n }, false)
  else
    let n := if a ≤ th then l.lockRun + 1 else 0
    if 1000 ≤ n then ({ l with locked := true, unlockRun := 0, lockRun := 0 }, false)
    else ({ l with lockRun := n }, false)

/-- PLL (R82). DESIGN CHOICE (note 131): θ steps by the ω written, rounded to Q1.31. `held` carries the held ω and vd of an OPEN or preloading lane (R75, R79). -/
def evalPll (i : Inst) (l : Lane) (a b : Int) (held : Option (Int × Int)) (preload : Bool) : LaneOut :=
  let th := wrapI 32 ((l.theta + 32768) / 65536)
  let s := sineOf th
  let k := cosineOf th
  let vd := Num.add ((Num.sig a).mulSig k) ((Num.sig b).mulSig s)
  let vq := Num.sub ((Num.sig b).mulSig k) ((Num.sig a).mulSig s)
  let kp := Num.mul (i.coefOf 0) vq
  let lk := lockStep i l vq.v
  let next := fun (w : Int) => wrapI 48 (l.theta + (Num.mul (i.coefOf 5) (.sig w)).v)
  match held with
  | some (w, v) =>
    let x := Num.sub (Num.sub (.sig w) (i.coefOf 2).num) kp
    let lx := x.limit (i.coefOf 8).num.v (i.coefOf 7).num.v
    { outs := [th, w, v],
      lane := { lk.1 with theta := next w, x := if preload then lx.1 else l.x },
      accSat := preload && x.s, bump := preload && decide (lx.2 ≠ 0), unlocked := lk.2 }
  | none =>
    let w := Num.add (Num.add (i.coefOf 2).num kp) ⟨l.x, false⟩
    let o := limitOut i w 3 4
    let n := integrate i l.x (Num.mul (i.coefOf 1) vq) o.2.1 7 8
    let vo := toSignal vd.v
    { outs := [th, o.1, vo.1], lane := { lk.1 with theta := next o.1, x := n.1 },
      accSat := vd.s || vq.s || w.s || n.2.2, outSat := o.2.2 || vo.2, intClamp := n.2.1, unlocked := lk.2 }

/-- The preload of R79 for the types with state other than PLL: y_h is written, and the state is as if
inputs and y_h had been constant for all time. -/
def preloadLane (typ : Nat) (i : Inst) (l : Lane) (a b c y : Int) : LaneOut :=
  let e := Num.sub (.sig a) (.sig b)
  let v := Num.add e (.sig c)
  let yo := Num.sig y
  if typ = 0x01 ∨ typ = 0x02 then
    let k := if typ = 0x01 then 4 else 6
    let x := Num.sub (Num.sub yo (Num.mul (i.coefOf 0) e)) (.sig c)
    let lx := x.limit (i.coefOf (k + 1)).num.v (i.coefOf k).num.v
    { outs := [y], lane := { l with x := lx.1, d := 0, ePrev := e.v }, accSat := x.s, bump := decide (lx.2 ≠ 0) }
  else if typ = 0x03 then
    let s2 := Num.sub (Num.mul (i.coefOf 2) v) (Num.mul (i.coefOf 4) yo)
    let s1 := Num.add (Num.sub (Num.mul (i.coefOf 1) v) (Num.mul (i.coefOf 3) yo)) s2
    { outs := [y], lane := { l with s1 := s1.v, s2 := s2.v }, accSat := s1.s }
  else if typ = 0x04 then
    let r := Num.sub (Num.sub yo (Num.mul (i.coefOf 0) e)) (.sig c)
    let s2 := Num.sub (Num.mul (i.coefOf 3) e) (Num.mul (i.coefOf 5) r)
    let s1 := Num.add (Num.sub (Num.mul (i.coefOf 2) e) (Num.mul (i.coefOf 4) r)) s2
    { outs := [y], lane := { l with s1 := s1.v, s2 := s2.v }, accSat := s1.s }
  else if typ = 0x05 then
    let s := Num.sub (Num.mul (i.coefOf 1) e) (Num.mul (i.coefOf 2) yo)
    { outs := [y], lane := { l with s1 := s.v }, accSat := s.s }
  else { outs := [y], lane := { l with y := yo.v } }

/-- A type (with its FLAGS) that has state to preload (R79). -/
def hasState (typ flags : Nat) : Bool := [0x01, 0x02, 0x03, 0x04, 0x05].contains typ || (typ == 0x0C && nbit flags 0)

/-- One lane of an instance (R74, R75, R79). `a4` are the four oversamples that AVG mode 0 reads. -/
def evalLane (x : Descr) (i : Inst) (l : Lane) (a b c : Int) (a4 : List Int) : LaneOut :=
  let held := fun (k : Nat) => if i.isOpen && i.holdSel then sval i.manual else l.held.getD k 0
  if x.typ = 0x0B then
    evalPll i l a b (if i.isOpen || i.preload then some (held 1, held 2) else none) (!i.isOpen && i.preload)
  else if i.isOpen then { outs := (List.range (blockOutputs x.typ)).map held, lane := l }
  else if i.preload && hasState x.typ x.flags then preloadLane x.typ i l a b c (held 0)
  else if x.typ = 0x01 then evalPi false i l a b c
  else if x.typ = 0x02 then evalPi true i l a b c
  else if x.typ = 0x03 then evalBiquad i l a b c
  else if x.typ = 0x04 then evalPr i l a b c
  else if x.typ = 0x05 then evalLeadLag i l a b c
  else if x.typ = 0x06 then evalLimit x.flags i l a b c
  else if x.typ = 0x07 then evalFfwd i l a b c
  else if x.typ = 0x08 then evalSelect x.flags l a b c
  else if x.typ = 0x09 then evalClarke l a b c
  else if x.typ = 0x0A then evalPark x.flags l a b c
  else if nbit x.flags 0 then evalAvg1 i l a
  else evalAvg0 l a4

/-- Lane j of an input (R67). -/
def laneInput (m : Mem) (off j : Nat) : Int := if off = noInput then 0 else memInt m (off + 4 * j)

/-- All lanes of an instance, from the weft as it stands before any of them writes (R69). -/
def evalLanes (m : Mem) (x : Descr) (i : Inst) : List LaneOut :=
  (List.range x.width).map (fun j =>
    let a4 := (List.range 4).map (fun k => if x.inA = noInput then 0 else memInt m (x.inA + 16 * j + 4 * k))
    evalLane x i (tblGet {} i.lanes j) (laneInput m x.inA j) (laneInput m x.inB j) (laneInput m x.inC j) a4)

/-- The lane that the checker recomputes: where a new table narrows the instance below the lane reached, the count starts again
at 0 (R85). -/
def Inst.checked (i : Inst) (x : Descr) : Nat := if i.checker < x.width then i.checker else 0

/-- The instance after an evaluation that gave these lanes (R74, R81, R85). -/
def Inst.after (i : Inst) (x : Descr) (rs : List LaneOut) : Inst :=
  let lanes := (rs.zipIdx).foldl (fun t p => tblSet {} t p.2 { p.1.lane with last := p.1.outs }) i.lanes
  { i with
    lanes := lanes, preload := i.preload && i.isOpen
    accSat := i.accSat || rs.any (·.accSat), outSat := i.outSat || rs.any (·.outSat)
    intClamp := i.intClamp || rs.any (·.intClamp), inverted := i.inverted || rs.any (·.inverted)
    bump := i.bump || rs.any (·.bump)
    lockedAll := if x.typ = 0x0B then rs.all (·.lane.locked) else false
    checker := if x.width ≤ i.checked x + 1 then 0 else i.checked x + 1 }

/-- The detail word of a spindle source (R243). -/
def spinDetail (inst lane : Nat) : Word := pack [(16, inst), (0, lane)]

/-- The first lane for which p holds, as the detail word. -/
def firstLane (inst : Nat) (rs : List LaneOut) (p : LaneOut → Bool) : Option Word :=
  ((rs.zipIdx).find? (fun q => p q.1)).map (fun q => spinDetail inst q.2)

/-- One instance evaluated once (R69, R70). `fault` names an instance and a lane whose result is wrong: the checker finds
it where the instance is this one and the lane is the one that the checker recomputes (R85). -/
def Dev.evalInst (fault : Option (Nat × Nat)) (d : Dev) (x : Descr) : Dev :=
  let i := d.instOf x.inst
  let lane := i.checked x
  let wrong := fault == some (x.inst, lane)
  let rs := evalLanes d.weft x i
  let outs := (List.range (blockOutputs x.typ)).flatMap (fun k =>
    (rs.zipIdx).map (fun p => (x.out + 4 * x.width * k + 4 * p.2, p.1.outs.getD k 0)))
  let d := { d with weft := outs.foldl (fun m (p : Nat × Int) => memPutWord m p.1 (sword p.2)) d.weft }
  let d := d.modInst x.inst (fun i => i.after x rs)
  let ev1 := match firstLane x.inst rs (·.accSat) with | some w => [(0x009, w)] | none => []
  let ev2 := match firstLane x.inst rs (·.unlocked) with | some w => [(0x00A, w)] | none => []
  let ev0 := if wrong then [(0x008, spinDetail x.inst lane)] else []
  let d := if wrong then { d with ply := { d.ply with spinDualOk := false } } else d
  if (ev0 ++ ev1 ++ ev2).isEmpty then d else d.events (ev0 ++ ev1 ++ ev2)

/-- COUNT instances of a SPIN entry, in list order (R69). -/
def Dev.runSpin (d : Dev) (b : Bank) (e : Entry) (fault : Option (Nat × Nat)) : Dev :=
  (List.range e.count).foldl (fun d j =>
    let w := (e.src + 32 * j - b.listBase) / 4
    d.evalInst fault (descrOf ((b.lists.drop w).take 8))) d

/-! ### Commands (R76, R81, R425) -/

/-- The control word of an instance (R81). -/
def Dev.controlWord (d : Dev) (n : Nat) : Word :=
  let i := d.instOf n
  pack [(31, b1 i.isOpen), (30, b1 i.pendingOc), (29, b1 i.holdSel),
        (28, b1 ((d.spin.tb2Lane.map (·.1)) == some n)), (23, b1 i.lockedAll), (22, b1 i.bump),
        (21, b1 i.inverted), (20, b1 i.intClamp), (19, b1 i.outSat), (18, b1 i.accSat)]

/-- The 16 words of a coefficient record (R71, R81). -/
def Dev.coefWords (d : Dev) (n : Nat) : List Word := (d.instOf n).coef ++ [(d.instOf n).manual, d.controlWord n]

/-- An open, as opposed to a close, of an instance is accepted and has not landed (R76). -/
def Dev.openPending (d : Dev) (n : Nat) : Bool :=
  d.landing.any (fun p => p.1 == .openClose n false)

/-- A coefficient word as the record keeps it: bits [31:30] of words 12 and 13 are reserved (R71). -/
def coefMask (i : Nat) (w : Word) : Word := if 12 ≤ i then w &&& 0x3FFFFFFF else w

/-- COEF_WRITE (R76): only to an OPEN instance with no open pending. -/
def bodyCoefWrite : Body := fun r d =>
  match recForm r 2048 14 with
  | none => d.say (.badArg 2)
  | some f =>
    let i := d.instOf f.index
    if d.openPending f.index then d.say (.wrongState 2)
    else if !i.isOpen then d.say (.wrongState 1)
    else
      let ws := (List.range 14).map (fun k => coefMask k (f.wordOr k (wat i.coef k)))
      (d.modInst f.index (fun i => { i with coef := ws })).doneNow

/-- COEF_WRITE command. -/
def execCoefWrite (r : Req) (s : State) : Host.Outcome State Fault Refusal :=
  onMain (iapin 0x0301 writes bodyCoefWrite r) s

/-- COEF_READ (R71). -/
def bodyCoefRead : Body := recRead 2048 16 Dev.coefWords

/-- COEF_READ command. -/
def execCoefRead (r : Req) (s : State) : Host.Outcome State Fault Refusal :=
  onMain (iapin 0x0302 reads bodyCoefRead r) s

/-- OPEN_CLOSE (R76). -/
def bodyOpenClose : Body := fun r d =>
  let n := bits (arg r 2) 10 0
  if (d.instOf n).pendingOc then d.say .busy
  else (d.modInst n (fun i => { i with pendingOc := true })).doneAtTick r (.openClose n (bit (arg r 2) 31))

/-- OPEN_CLOSE command. -/
def execOpenClose (r : Req) (s : State) : Host.Outcome State Fault Refusal :=
  onMain (iapin 0x0303 writes bodyOpenClose r) s

/-- Every lane of an instance changed by f. -/
def Inst.mapLanes (i : Inst) (f : Lane → Lane) : Inst :=
  { i with lanes := (List.range 32).foldl (fun t j => tblMod {} t j f) i.lanes }

/-- An open or close lands (R75, R79): an open holds the last outputs; a close fixes the held value and
preloads at the next evaluation. -/
def landOpenClose (n : Nat) (close : Bool) (d : Dev) : Dev :=
  d.modInst n (fun i =>
    let i := { i with pendingOc := false }
    if close then
      (if i.isOpen then
        { (if i.holdSel then i.mapLanes (fun l => { l with held := List.replicate 3 (sval i.manual) }) else i) with
          isOpen := false, preload := true }
       else i)
    else
      (if i.isOpen then i else { i.mapLanes (fun l => { l with held := l.last }) with isOpen := true, preload := false }))

/-- HOLD (R76). -/
def bodyHold : Body := fun r d =>
  d.doneAtTick r (.hold (bits (arg r 2) 10 0) (bit (arg r 2) 16) (arg r 3))

/-- HOLD command. -/
def execHold (r : Req) (s : State) : Host.Outcome State Fault Refusal := onMain (iapin 0x0304 writes bodyHold r) s

/-- HOLD_SEL and MANUAL land. -/
def landHold (n : Nat) (sel : Bool) (manual : Word) (d : Dev) : Dev :=
  d.modInst n (fun i => { i with holdSel := sel, manual := manual })

/-- FLAG_CLEAR (R81). -/
def bodyFlagClear : Body := fun r d =>
  let w := arg r 3
  (d.modInst (bits (arg r 2) 10 0) (fun i =>
    { i with bump := i.bump && !bit w 22, inverted := i.inverted && !bit w 21, intClamp := i.intClamp && !bit w 20,
             outSat := i.outSat && !bit w 19, accSat := i.accSat && !bit w 18 })).doneNow

/-- FLAG_CLEAR command. -/
def execFlagClear (r : Req) (s : State) : Host.Outcome State Fault Refusal :=
  onMain (iapin 0x0305 writes bodyFlagClear r) s

/-- The entries of a coefficient set image (R420). -/
def coefEntries (ws : List Word) : List CoefEntry :=
  (List.range (wat ws 0).toNat).map (fun j =>
    let w := wat ws (1 + 16 * j)
    { inst := bits w 10 0, preload := bit w 31,
      words := (List.range 14).map (fun k => coefMask k (wat ws (2 + 16 * j + k))) })

/-- The first failing word of a coefficient set image: bits that R420 and R71 hold at zero, and an instance named
twice. -/
def coefImageBad (ws : List Word) : Option Nat :=
  ((List.range (wat ws 0).toNat).flatMap (fun j =>
    let w := wat ws (1 + 16 * j)
    let dup := (List.range j).any (fun k => bits (wat ws (1 + 16 * k)) 10 0 == bits w 10 0)
    (if bits w 30 11 ≠ 0 ∨ dup then [1 + 16 * j] else []) ++
    ([14, 15].filter (fun k => bits (wat ws (k + 16 * j)) 31 30 ≠ 0)).map (· + 16 * j) ++
    (if wat ws (16 + 16 * j) ≠ 0 then [16 + 16 * j] else []))).head?

/-- The end of COEF_STAGE: size, checks, and the staging (R418, R420). -/
def finishCoefStage : Body := imgFinish (fun ws => some (4 + 64 * (wat ws 0).toNat)) (fun ws r d =>
  match coefImageBad ws with
  | some i => d.say (.badImage i)
  | none =>
    if checkOnly r then d.doneStaged
    else Dev.doneStaged { d with spin := { d.spin with stagedCoef := some (coefEntries ws) } })

/-- COEF_STAGE command (R420). -/
def execCoefStage (r : Req) (s : State) : Host.Outcome State Fault Refusal :=
  onMain (iapin 0x0306 writes
    (imgStart 0x0306 none (· == 0) (fun _ _ => false)) r) s

/-- A COEF commit lands the staged coefficient set (R77, R78). -/
def Dev.commitCoef (d : Dev) : Dev :=
  let es := d.spin.stagedCoef.getD []
  let d := es.foldl (fun d e => d.modInst e.inst (fun i =>
    let i := { i with coef := e.words }
    if e.preload && !i.isOpen then { i.mapLanes (fun l => { l with held := l.last }) with preload := true } else i)) d
  { d with spin := { d.spin with stagedCoef := none } }

end Sys2Proof.Machine
end

