-- ==== Sys2Proof/Machine/Warp.lean ====
section
/-!
DEFINITION. Warp tables (R32 to R53, R222, R421): entries, class costs, the loader's checks, tick
configuration and the start of the sequencer.
-/

namespace Sys2Proof.Machine

/-! ### Entries (R40, R41) -/

/-- The entry of four words (R40). -/
def entryOf (ws : List Word) : Entry :=
  { cls := bits (wat ws 0) 31 28, unit := bits (wat ws 0) 23 16, budget := bits (wat ws 0) 15 0
    notBefore := bits (wat ws 1) 31 16, period := bits (wat ws 1) 15 8, offset := bits (wat ws 1) 7 0
    count := bits (wat ws 2) 31 23, src := bits (wat ws 2) 22 0
    arg := bits (wat ws 3) 31 24, dst := bits (wat ws 3) 22 0 }

/-- The reserved fields of an entry are zero. -/
def entryReservedOk (ws : List Word) : Bool := decide (bits (wat ws 0) 27 24 = 0) && !bit (wat ws 3) 23

/-- Classes by code (R41). -/
def clsIntake : Nat := 0x1
/-- SPIN. -/
def clsSpin : Nat := 0x2
/-- ALLOC. -/
def clsAlloc : Nat := 0x3
/-- METER. -/
def clsMeter : Nat := 0x4
/-- DELIVER. -/
def clsDeliver : Nat := 0x5
/-- COPY. -/
def clsCopy : Nat := 0x6
/-- XDIE. -/
def clsXdie : Nat := 0x7
/-- CAPTURE. -/
def clsCapture : Nat := 0x8
/-- MIRROR. -/
def clsMirror : Nat := 0x9
/-- END. -/
def clsEnd : Nat := 0xF

/-- Plane stride of an INTAKE or METER entry (R45, R47). -/
def Entry.stride16 (e : Entry) : Nat := if e.arg = 0 then 16 * e.count else 256 * e.arg

/-- Plane stride of a DELIVER entry (R46). -/
def Entry.stride4 (e : Entry) : Nat := if e.arg = 0 then 4 * e.count else 256 * e.arg

/-- Index of strand j of the entry within its planes: the strand number in a shared set (R45, R46). -/
def Entry.lane (e : Entry) (j : Nat) : Nat := if e.arg = 0 then j else 16 * e.unit + j

/-- The descriptors of a SPIN entry, eight words each, from lists placed at `base` (R67, R421). -/
def Entry.descrs (e : Entry) (lists : List Word) (base : Nat) : List (List Word) :=
  (List.range e.count).map (fun j => ((lists.drop ((e.src + 32 * j - base) / 4)).take 8))

/-- Class cost of an entry (R41, R68, R114); 0 for a class not listed. -/
def Entry.cost (e : Entry) (strands : Nat) (lists : List Word) (base : Nat) : Nat :=
  if e.cls = clsIntake then 16 + 4 * e.count
  else if e.cls = clsSpin then
    16 + (e.descrs lists base).foldl (fun n x => n + (blockCost (descrOf x).typ).getD 0) 0
  else if e.cls = clsAlloc then allocCost strands e.count e.arg
  else if e.cls = clsMeter then 16 + 2 * e.count
  else if e.cls = clsDeliver then 20 + 8 * e.count
  else if e.cls = clsCopy ∨ e.cls = clsCapture ∨ e.cls = clsMirror then 12 + 4 * e.count
  else if e.cls = clsXdie then 40 + 4 * e.count
  else 0

/-- Bytes of the weft region (R40). -/
def weftSize : Nat := 0x800000

/-- The fields that every class shares (R40, R41): a listed class, PERIOD and OFFSET, alignment, UNIT and
ARG zero where the class has none. -/
def Entry.commonOk (e : Entry) : Bool :=
  (decide (e.cls ≤ clsMirror) || e.cls == clsEnd) && decide (0 < e.period) && decide (e.offset < e.period) &&
  decide (e.src % 8 = 0) && decide (e.dst % 8 = 0) &&
  (decide (e.unit = 0) || e.cls == clsIntake || e.cls == clsDeliver || e.cls == clsAlloc) &&
  (decide (e.arg = 0) || e.cls == clsIntake || e.cls == clsDeliver || e.cls == clsMeter || e.cls == clsAlloc)

/-- What each class asks of its own fields (R2, R41, R45 to R48, R114, R421). DEDUCED (note 21): what an entry reads or
writes must lie in the weft region, in every class and not only where R45 and R46 say so. DESIGN CHOICE (note 128): R45's
bound of 4,096 on S is asked of INTAKE entries; a METER entry of a shared set (R47) is not refused for it. -/
def Entry.classOk (e : Entry) (strands lo len : Nat) : Bool :=
  if e.cls = clsIntake then
    decide (e.count ≤ 16) && decide (16 * e.unit < strands) && (e.arg == 0 || decide (4096 ≤ e.stride16)) &&
    decide (e.dst + 8 * e.stride16 + 16 * e.lane e.count ≤ weftSize)
  else if e.cls = clsDeliver then
    decide (e.count ≤ 16) && decide (16 * e.unit < strands) && (e.arg == 0 || decide (1024 ≤ e.stride4)) &&
    decide (e.src + 5 * e.stride4 + 4 * e.lane e.count ≤ weftSize)
  else if e.cls = clsSpin then decide (lo ≤ e.src) && decide (e.src + 32 * e.count ≤ lo + len)
  else if e.cls = clsAlloc then
    decide (e.unit < 6) && decide (4 ≤ e.arg) && decide (e.arg ≤ 16) &&
    decide (e.src + 0xA00 ≤ weftSize) && decide (e.dst + 0x1410 ≤ weftSize)
  else if e.cls = clsMeter then
    decide (1 ≤ e.count) && decide (e.count ≤ strands) && decide (e.dst = 0) &&
    decide (e.src + 5 * e.stride16 + 16 * e.count ≤ weftSize)
  else if e.cls = clsXdie then
    decide (e.count ≤ 8) && decide (e.src + 64 * e.count ≤ weftSize) && decide (e.dst + 64 ≤ weftSize)
  else if e.cls = clsCopy then
    decide (e.src + 64 * e.count ≤ weftSize) && decide (e.dst + 64 * e.count ≤ weftSize)
  else if e.cls = clsCapture ∨ e.cls = clsMirror then decide (e.src + 64 * e.count ≤ weftSize)
  else true

/-! ### The check of a table (R49, R50, R68, R222) -/

/-- Entries up to and including the first END entry. -/
def uptoEnd : List Entry → List Entry
  | [] => []
  | e :: es => if e.cls = clsEnd then [e] else e :: uptoEnd es

/-- Start and end of each entry in order, every entry treated as due (R42, R49). -/
def spansGo : Nat → List Entry → List (Nat × Nat)
  | _, [] => []
  | t, e :: es => let s := max t e.notBefore; (s, s + e.budget) :: spansGo (s + e.budget) es

/-- Starts and ends of a table. -/
def spans (es : List Entry) : List (Nat × Nat) := spansGo 0 es

/-- The span of a table. -/
def spanOf (es : List Entry) : Nat := ((spans es).getLast?.map (·.2)).getD 0

/-- The first descriptor of a list that breaks R68, given the instances seen before it, and the instances
seen after the list. -/
def listBad (seen : List Nat) (ds : List (List Word)) : Option Nat × List Nat :=
  (ds.zipIdx).foldl (fun (p : Option Nat × List Nat) x =>
    let n := (descrOf x.1).inst
    let bad := !descrOk x.1 || p.2.contains n
    (if p.1.isNone && bad then some x.2 else p.1, n :: p.2)) (none, seen)

/-- What an entry check needs beside the entry: strands of the part, the guard's start, the lists. -/
structure TableCtx where
  strands : Nat
  guard   : Nat
  lists   : List Word
  base    : Nat
  deriving DecidableEq, Repr

/-- Word 4 of the first failing entry with its index, in index order (R50). -/
def entriesBad (c : TableCtx) : List (Entry × Bool × Nat) → List Nat → Option (Nat × Nat)
  | [], _ => none
  | (e, resOk, i) :: r, seen =>
    let cost := e.cost c.strands c.lists c.base
    if !resOk || !e.commonOk || !e.classOk c.strands c.base (4 * c.lists.length) ||
        decide (e.budget < cost) || decide (c.guard ≤ e.notBefore) then some (i, cost)
    else if e.cls = clsSpin then
      let q := listBad seen (e.descrs c.lists c.base)
      match q.1 with
      | some k => some (i, 0x80000000 + k)
      | none => entriesBad c r q.2
    else entriesBad c r seen

/-- The first entry whose end passes the guard's start, with its end (R49). -/
def spanBad (guard : Nat) (es : List Entry) : Option (Nat × Nat) :=
  (((spans es).zipIdx).find? (fun p => decide (guard < p.1.2))).map (fun p => (p.2, p.1.2))

/-- The ply link check (R222): the first SPIN or ALLOC entry and the value of word 4 where it fails. -/
def linkBad (tickCycles guardLen : Nat) (es : List Entry) : Option (Nat × Nat) :=
  let xs := es.zip (spans es)
  let link := xs.foldl (fun (l : Nat) x =>
    if x.1.cls = clsMirror then max l (x.2.1 + 12) + 18 * x.1.count else l) 0
  let sealAt := tickCycles - guardLen + 200
  let link := if sealAt < link then link + 450 else link
  let last := max link (sealAt + 450) + 18 * 129 + 250
  match (xs.zipIdx).find? (fun x => x.1.1.cls == clsSpin || x.1.1.cls == clsAlloc) with
  | none => none
  | some x => if tickCycles + x.1.2.1 < last + 16 then some (x.2, last + 16 - tickCycles) else none

/-- The whole check of a table (R50): the span, and the failing entry with word 4 where one fails.
`resOk` says of each entry that its reserved fields are zero. -/
def Dev.tableCheck (d : Dev) (es : List Entry) (resOk : List Bool) (lists : List Word) (base : Nat) :
    Nat × Option (Nat × Nat) :=
  let up := uptoEnd es
  let guard := d.tickCycles - d.tk.guardLen
  let c : TableCtx := { strands := d.strandCount, guard := guard, lists := lists, base := base }
  let bad := match entriesBad c ((up.zipIdx).map (fun p => (p.1, resOk.getD p.2 true, p.2))) [] with
    | some x => some x
    | none =>
      if (up.getLast?.map (·.cls)) ≠ some clsEnd then some (es.length, 0)
      else match spanBad guard up with
        | some x => some x
        | none => if d.isMember then linkBad d.tickCycles d.tk.guardLen up else none
  (spanOf up, bad)

/-! ### Banks -/

/-- A bank. -/
def Dev.bank (d : Dev) (b : Nat) : Bank := if b = 0 then d.tk.bank0 else d.tk.bank1

/-- A bank changed by f. -/
def Dev.modBank (d : Dev) (b : Nat) (f : Bank → Bank) : Dev :=
  if b = 0 then { d with tk := { d.tk with bank0 := f d.tk.bank0 } }
  else { d with tk := { d.tk with bank1 := f d.tk.bank1 } }

/-- The running bank. -/
def Dev.running? (d : Dev) : Bank := d.bank d.tk.runBank

/-- A bank that no load may target (R50): running, starting, or named by an arm. -/
def Dev.bankTaken (d : Dev) (b : Nat) : Bool :=
  (d.tk.seqRun && d.tk.runBank == b) || d.tk.starting == some b ||
  (d.tk.commit != .idle && nbit d.tk.set 0 && d.otherBank == b)

/-- The first failing header word of a warp image (R50). -/
def warpHeaderBad (ws : List Word) : Option Nat :=
  let n := (wat ws 0).toNat
  let l := (wat ws 1).toNat
  if n = 0 ∨ 4096 < n then some 0
  else if l % 32 ≠ 0 then some 1
  else if weftSize < (wat ws 2).toNat + l then some 2
  else if wat ws 3 ≠ 0 then some 3
  else none

/-- The entry words of a warp image (R421). -/
def warpEntries (ws : List Word) : List (List Word) :=
  (List.range (wat ws 0).toNat).map (fun i => (ws.drop (4 + 4 * i)).take 4)

/-- The bank that a warp image gives, with the outcome of its check. -/
def Dev.warpBank (d : Dev) (ws : List Word) : Bank × Option (Nat × Nat) :=
  let raw := warpEntries ws
  let es := raw.map entryOf
  let lists := ws.drop (4 + 4 * (wat ws 0).toNat)
  let c := d.tableCheck es (raw.map entryReservedOk) lists (wat ws 2).toNat
  ({ valid := true, span := c.1, entries := uptoEnd es, listBase := (wat ws 2).toNat, lists := lists }, c.2)

/-- A warp table takes its bank, and its instance lists their place in the weft (R421). -/
def Dev.placeBank (d : Dev) (b : Nat) (k : Bank) : Dev :=
  let d := d.modBank b (fun _ => k)
  { d with weft := memPutWords d.weft k.listBase k.lists }

/-- The end of WARP_LOAD (R50, R421). -/
def finishWarpLoad : Body := imgFinish (fun ws => some (16 + 16 * (wat ws 0).toNat + (wat ws 1).toNat)) (fun ws r d =>
  match warpHeaderBad ws with
  | some i => d.say ⟨0x0102, [0, 0xFFFFFFFF, word i]⟩
  | none =>
    let q := d.warpBank ws
    match q.2 with
    | some f => d.say ⟨0x0102, [word q.1.span, word f.1, word f.2]⟩
    | none => if checkOnly r then d.doneStaged else (d.placeBank (bits (arg r 2) 0 0) q.1).doneStaged)

/-- WARP_LOAD (R50): the target's VALID clears from the moment loading starts. -/
def bodyWarpLoad : Body := fun r d =>
  let p := imgStart 0x0704 none (fun w => decide (w.toNat ≤ 1)) (fun r d => d.bankTaken (arg r 2).toNat) r d
  if p.1.status = 1 ∧ !checkOnly r then (p.1, p.2.modBank (arg r 2).toNat (fun b => { b with valid := false })) else p

/-- WARP_LOAD command. -/
def execWarpLoad (r : Req) (s : State) : Host.Outcome State Fault Refusal :=
  onMain (iapin 0x0704 writes bodyWarpLoad r) s

/-! ### Tick configuration and start -/

/-- A VALID bank checked again under new tick values (R33). -/
def Dev.recheck (d : Dev) (b : Nat) : Dev :=
  let k := d.bank b
  if !k.valid then d
  else
    let c := d.tableCheck k.entries [] k.lists k.listBase
    match c.2 with
    | some _ => d.modBank b (fun k => { k with valid := false })
    | none => d.modBank b (fun k => { k with span := c.1 })

/-- The first argument word of TICK_CONFIG out of range (R32, R38, R55, R151). -/
def tickConfigBad (r : Req) : Option Nat :=
  let steps := (arg r 2).toNat
  let guard := (arg r 3).toNat
  if steps < 781 ∨ 6249 < steps then some 2
  else if guard < 1000 ∨ 4096 < guard then some 3
  else if 2500 < (arg r 7).toNat then some 7
  else if (arg r 8).toNat < 16 ∨ 65535 < (arg r 8).toNat then some 8
  else none

/-- TICK_CONFIG (R33). -/
def bodyTickConfig : Body := fun r d =>
  match tickConfigBad r with
  | some i => d.say (.badArg i)
  | none =>
    if d.tk.seqRun || d.tk.starting.isSome then d.say .wrongState
    else
      let tk := { d.tk with
        tickSteps := (arg r 2).toNat, guardLen := (arg r 3).toNat, alignSrc := bits (arg r 4) 1 0
        alignOrigin := join48 (arg r 5) (arg r 6), syncDelay := (arg r 7).toNat
        commitGuard := (arg r 8).toNat, startTick := join48 (arg r 9) (arg r 10) }
      let d := (({ d with tk := tk }).recheck 0).recheck 1
      (.ok [d.nowTick, pack [(1, b1 d.tk.bank1.valid), (0, b1 d.tk.bank0.valid)]], d)

/-- TICK_CONFIG command. -/
def execTickConfig (r : Req) (s : State) : Host.Outcome State Fault Refusal :=
  onMain (iapin 0x0703 writes bodyTickConfig r) s

/-- The alignment source can place a first boundary now (R36). -/
def Dev.alignReady (d : Dev) : Bool :=
  if d.tk.alignSrc = 0 then true
  else if d.tk.alignSrc = 2 then d.clk.tb1.state != .invalid
  else d.clk.tb0.state != .invalid

/-- SEQ_START (R36, R53). -/
def bodySeqStart : Body := fun r d =>
  let b := bits (arg r 2) 0 0
  if d.tk.seqRun || d.tk.starting.isSome || !d.bankValid b || !d.alignReady then d.say .wrongState
  else Dev.doneNow { d with tk := { d.tk with starting := some b, startAt := d.now, firstPulse := none } }

/-- SEQ_START command. -/
def execSeqStart (r : Req) (s : State) : Host.Outcome State Fault Refusal :=
  onMain (iapin 0x0705 writes bodySeqStart r) s

end Sys2Proof.Machine
end

