-- ==== Sys2Proof/Machine/Frames.lean ====
section
/-!
DEFINITION. Uplinks and downlinks of the strands (R45, R46, R164 to R177, R268, R287, R487): arrival,
intake, and the build of a downlink frame.
-/

namespace Sys2Proof.Machine

/-! ### Arrival (R164, R175) -/

/-- Bytes put into a ring of BAR2 from a position, wrapping at its end (R175, note 23). -/
def ringPut (m : Mem) (off len pos : Nat) (bs : List Byte) : Mem :=
  (bs.zipIdx).foldl (fun m p => memPut m (off + (pos + p.2) % len) p.1) m

/-- Bytes read from a ring. -/
def ringGet (m : Mem) (off len pos n : Nat) : List Byte :=
  (List.range n).map (fun i => memByte m (off + (pos + i) % len))

/-- A bulk type that the device receives (R175). -/
def bulkUp (t : Nat) : Bool := t == 0x8 || t == 0x9 || t == 0xA

/-- The longest uplink bulk segment in bytes (R167). -/
def Dev.upMax (d : Dev) : Nat := min 2672 (4 * ((d.tickCycles / 4 - 154) / 4))

/-- The bulk segment of an uplink (R168, R175): a CRC error is counted, another type is discarded, and the rest
goes to the strand's uplink ring. DESIGN CHOICE (note 146): a segment longer than the tick allows is one in error. -/
def Dev.takeBulk (d : Dev) (k : Nat) (hdr : Word) (data : List Word) (crc : Word) : Dev :=
  if crc != crc32 (wordsBytes (hdr :: data)) || decide (d.upMax < 4 * data.length) then (d.modStrand k (fun s => { s with bulkErr := satInc 16 s.bulkErr })).event 0x029 (word k)
  else if !bulkUp (bits hdr 31 28) then d
  else match (d.strandOf k).ringUp with
    | none => d
    | some (off, len) =>
      let bs := wordsBytes (hdr :: data)
      let pos := (d.strandOf k).ringUpPos
      ({ d with bar2 := ringPut d.bar2 off len pos bs }).modStrand k
        (fun s => { s with ringUpPos := (pos + bs.length) % len })

/-- The round-trip time of an arrival joins the running mean (R164). DESIGN CHOICE (note 172): the mean is over the measurements
kept since ACTIVE, at most 1,024; a tick without an uplink adds none. -/
def Strand.timed (s : Strand) (rtt : Nat) : Strand := { s with rtts := (rtt :: s.rtts).take 1024 }

/-- An uplink as the receive buffer holds it, its control CRC judged over header and control segment (R168). -/
def received (f : UplinkLine) : Uplink :=
  { header := f.header, control := f.control, crcOk := f.crc == crc32 (wordsBytes (f.header ++ f.control)), complete := f.complete }

/-- UPLINK_FRAME: an uplink of an ACTIVE strand enters its receive buffer, after the injector (R463). -/
def execUplinkFrame (k : Fin 256) (f : UplinkLine) (s : State) : Host.Outcome State Fault Refusal :=
  onMain (fun d =>
    if (d.strandOf k.val).state != .active then d
    else
      let q := d.injectUnit (injKey 0 k.val 1)
      let d := q.2.modStrand k.val (fun s => s.timed f.rtt)
      match q.1 with
      | some i =>
        if i.action = 1 then d
        else
          let d := d.modStrand k.val (fun s => { s with rx := some { received f with crcOk := false } })
          if i.action = 2 ∧ 4 ≤ i.n then d.linkLost [k.val] else d
      | none =>
        let d := d.modStrand k.val (fun s => { s with rx := some (received f) })
        match f.bulk with
        | some (h, w, crc) => d.takeBulk k.val h w crc
        | none => d) s

/-! ### Intake (R45, R176, R177) -/

/-- TICK of an uplink (R172). -/
def uplinkTick (u : Uplink) : Nat := bits (wat u.header 1) 23 0

/-- The low 24 bits of the present tick. -/
def Dev.tick24 (d : Dev) : Nat := d.tk.tick % 2 ^ 24

/-- An uplink in the receive buffer is FRESH (R176). -/
def Dev.isFresh (d : Dev) (u : Option Uplink) : Bool :=
  match u with
  | some u => u.complete && u.crcOk && decide (uplinkTick u = d.tick24)
  | none => false

/-- The flag word of a strand (R45). -/
def Dev.flagWord (d : Dev) (u : Option Uplink) : Word :=
  match u with
  | some u => pack [(8, d.tick24), (3, b1 (u.complete && decide (uplinkTick u ≠ d.tick24))), (2, b1 (!u.complete)),
                    (1, b1 (u.complete && !u.crcOk)), (0, b1 (d.isFresh (some u)))]
  | none => pack [(8, d.tick24), (2, 1)]

/-- The eight planes of a FRESH uplink, four words each (R45). -/
def uplinkPlanes (u : Uplink) : List (List Word) :=
  fit 4 0 u.header :: (List.range 6).map (fun p => fit 4 0 (u.control.drop (4 * p))) ++
    [fit 4 0 ((u.control.drop 24).take 3)]

/-- The weft region after the intake of strand k, lane `i` of planes at `dst` with stride `s` (R45). -/
def Dev.intakeWrite (d : Dev) (k i dst s : Nat) : Dev :=
  let u := (d.strandOf k).rx
  let w := memPutWord d.weft (dst + 4 * i) (d.flagWord u)
  let w := match u with
    | some u =>
      if d.isFresh (some u) then
        ((uplinkPlanes u).zipIdx).foldl (fun w p => memPutWords w (dst + (p.2 + 1) * s + 16 * i) p.1) w
      else w
    | none => w
  { d with weft := w }

/-- Cell temperature of an uplink: the higher of T_HB and T_TAB, in 1/128 °C (R283). -/
def uplinkTemp (u : Uplink) : Int :=
  max (signed 16 (bits (wat u.control 20) 31 16)) (signed 16 (bits (wat u.control 20) 15 0))

/-- Samples of cell history that span a second beside the last 64 (R284). -/
def Dev.cellHistory (d : Dev) : Nat := 1250000000 / d.tickCycles + 64

/-- The acknowledged command leaves the slot, which then carries NONE with the same CMD_SEQ (R171). -/
def Strand.acked (s : Strand) (ack : Nat) : Strand :=
  if s.cmd.waiting && decide (s.cmd.seq = ack) then
    { s with cmd := { cmd := 0, seq := s.cmd.seq, arg0 := 0, args := [0, 0, 0], waiting := false, host := false } }
  else s

/-- Books of an ACTIVE strand with a FRESH uplink (R176, R177, R283, R284). -/
def Dev.bookFresh (d : Dev) (k : Nat) (u : Uplink) : Dev :=
  let d := d.modStrand k (fun s =>
    { (s.acked (bits (wat u.control 26) 7 0)) with
      freshRun := s.freshRun + 1, missRun := 0, fresh := true, last := some u, capsKept := false
      floorSeen := wat u.header 0, crcEcho := wat u.control 24 })
  let d := d.modCell k (fun c => { c with temp := uplinkTemp u, temps := ((d.tk.tick, uplinkTemp u) :: c.temps).take d.cellHistory })
  let f := wat u.control 23
  if bit f 31 || bit f 29 || bit f 25 then d.markLost k 3 else d

/-- Books of an ACTIVE strand without one (R176, R177). -/
def Dev.bookMiss (d : Dev) (k : Nat) (crc : Bool) : Dev :=
  let d := d.modStrand k (fun s =>
    { s with missRun := s.missRun + 1, freshRun := 0, fresh := false
             missCnt := if crc then s.missCnt else satInc 16 s.missCnt
             crcErr := if crc then satInc 16 s.crcErr else s.crcErr })
  if 3 ≤ (d.strandOf k).missRun then d.markLost k 2 else d

/-- The control CRC of the uplink in the buffer of strand k failed. -/
def Dev.rxCrcFail (d : Dev) (k : Nat) : Bool :=
  match (d.strandOf k).rx with
  | some u => u.complete && !u.crcOk
  | none => false

/-- Books of strand k; a strand that is not ACTIVE counts nothing (R176). -/
def Dev.book (d : Dev) (k : Nat) : Dev :=
  let s := d.strandOf k
  if s.state != .active then d
  else match s.rx with
    | some u => if d.isFresh (some u) then d.bookFresh k u else d.bookMiss k (d.rxCrcFail k)
    | none => d.bookMiss k false

/-- Reports of an intake of strands `ks` (R174, R176, R241). -/
def Dev.intakeOccs (d : Dev) (ks : List Nat) : List (Nat × Word) :=
  let act := ks.filter (fun k => (d.strandOf k).state == .active)
  (match act.find? (fun k => !(d.strandOf k).fresh) with
    | some k => [(0x026, pack [(8, b1 (d.rxCrcFail k)), (0, k)])]
    | none => []) ++
  (match act.findSome? (fun k =>
      if (d.strandOf k).fresh then (d.strandOf k).lastFault.map (fun b => (k, b)) else none) with
    | some (k, b) => [(0x028, pack [(8, b), (0, k)])]
    | none => [])

/-- An INTAKE entry moves its strands (R45); reports follow. -/
def Dev.intake (d : Dev) (e : Entry) : Dev :=
  let ks := (List.range e.count).map (fun j => (16 * e.unit + j, e.lane j))
  let d := ks.foldl (fun d p => (d.intakeWrite p.1 p.2 e.dst e.stride16).book p.1) d
  let d := d.rawStrands
  let occs := d.intakeOccs (ks.map (·.1))
  if occs.isEmpty then d else d.events occs

/-! ### Downlinks (R46, R168 to R171) -/

/-- Cells of a channel under the map in force. -/
def Dev.channelCells (d : Dev) (c : Nat) : List Nat :=
  match d.mapForce with
  | some m => (mapCells m).filter (fun k => mapChannel m k == c)
  | none => []

/-- h_k times rated power of strand k's cell. -/
def Dev.weightOf (d : Dev) (k : Nat) : Nat :=
  match d.mapForce with
  | some m => (d.cellOf k).derate * mapRated m k
  | none => 0

/-- A cell's share of its channel (R106, R487); free where the sum is zero. -/
def Dev.shareOf (d : Dev) (k c : Nat) : Rat :=
  let sum := ((d.channelCells c).filter d.inServiceNow).foldl (fun n i => n + d.weightOf i) 0
  if sum = 0 then (Config.zeroWeights k c : Rat) else (d.weightOf k : Rat) / (sum : Rat)

/-- The safety limit of a cell of channel c, Q1.31; none where there is no limit (R268, R487, R66). -/
def Dev.safetyLimit (d : Dev) (k c : Nat) : Option Int :=
  let w := tblGet 0 d.isl.demandsRead c
  let rated := (d.chanOf c).cal.iRated
  if rated = 0 ∨ nbit w 31 then some 0
  else if nbit w 30 ∧ d.inServiceNow k then
    some (roundFree ((nbits w 29 0 : Rat) * d.shareOf k c / (10 * rated : Nat) * (2 ^ 31 : Nat)) 6)
  else none

/-- A member whose memory the partner's image lands in. -/
def Ply.receives (p : Ply) : Bool := p.pstate == .xfer || p.pstate == .shadow || p.pstate == .standby

/-- The mirror brings a member the words at an offset of the weft region (R44, R219). -/
def Dev.mirroredAt (d : Dev) (a : Nat) : Bool :=
  d.isMember && d.ply.receives &&
    d.running?.entries.any (fun e => e.cls == clsMirror && decide (e.src ≤ a) && decide (a < e.src + 64 * e.count))

/-- The ALLOC entries of the running table. -/
def Dev.allocEntries (d : Dev) : List Entry := if d.tk.noBank then [] else d.running?.entries.filter (fun e => e.cls == clsAlloc)

/-- The device power limit that governs caps and frames: the member's own, or on one that receives, the active's as the mirror
brings it in P_SEC_LIM (R62, R287, R290). -/
def Dev.limitInForce (d : Dev) : Nat :=
  match d.allocEntries.find? (fun e => d.mirroredAt (e.src + 0x18)) with
  | some e => ((memWord d.weft (e.src + 0x18)).toNat + 1) / 2 ^ 19
  | none => d.therm.limit

/-- I_LIM of a frame: the plane's value or zero, times the device power limit, under the safety limit (R170,
R268, R287). -/
def Dev.iLim (d : Dev) (k : Nat) (plane : Word) : Int :=
  let p := max 0 (sval plane)
  let t := roundFree ((p : Rat) * (d.limitInForce : Rat) / 4096) 7
  let lim := min p t
  match d.cellChannel k with
  | some c => (match d.safetyLimit k c with | some s => min lim s | none => lim)
  | none => lim

/-- The claim that downlinks carry (R224, R225). -/
def Dev.sentClaim (d : Dev) : Word :=
  match d.ply.held with
  | some c => if d.isMember && d.ply.pstate != .active then d.ply.claimLast else c
  | none => d.ply.claimLast

/-- The start state sends BLOCK to every cell (R446). -/
def Dev.startBlocks (d : Dev) : Bool := d.pwr.start != .sync && d.pwr.start != .run

/-- The slot as the next frame carries it: a waiting command goes on; else a LOST cell gets its one
BYPASS_CLOSE, else the next queued command starts (R171, R177). -/
def Strand.nextSlot (s : Strand) : Strand :=
  let start := fun (s : Strand) (c : DevCmd) =>
    { s with
      cmd := { cmd := c.cmd, seq := (s.cmd.seq + 1) % 256, arg0 := c.arg0, args := c.args, waiting := true, host := c.host }
      fwRun := if c.cmd = 0x07 then true else if c.cmd = 0x08 then false else s.fwRun }
  if s.cmd.waiting then s
  else if s.lost && !s.bypassSent then
    { (start s { cmd := 0x01, arg0 := 0, args := [0, 0, 0], host := false }) with bypassSent := true }
  else match s.devCmds with
    | c :: cs => { (start s c) with devCmds := cs }
    | [] => s

/-- The four words of the slot. -/
def CmdSlot.words (c : CmdSlot) : List Word := pack [(24, c.cmd), (16, c.seq), (0, c.arg0)] :: fit 3 0 c.args

/-- The longest downlink bulk segment in bytes (R167). -/
def Dev.bulkMax (d : Dev) : Nat := min 2676 (4 * ((d.tickCycles / 4 - 150) / 4))

/-- The downlink bulk segment of strand k, where the DMA has one: whether and how much is pending in the
ring is not stated (R175, note 23). Its one type carries firmware, so it goes out between FW_BEGIN and FW_COMMIT, and no more
after a discard (R171, R187). A member that is not the active sends none. -/
def Dev.sendBulk (d : Dev) (k : Nat) : Dev :=
  if d.isMember && d.ply.pstate != .active || !(d.strandOf k).fwRun then d.modStrand k (fun s => { s with txBulk := [] })
  else match (d.strandOf k).ringDn with
    | none => d.modStrand k (fun s => { s with txBulk := [] })
    | some (off, len) =>
      let n := 4 * (Config.freeNat d.fresh % (min (d.bulkMax / 4) (len / 4) + 1))
      let pos := (d.strandOf k).ringDnPos
      let seg := pack [(28, 1), (0, n)] :: bytesWords (ringGet d.bar2 off len pos n)
      let d := d.modStrand k (fun s =>
        { s with txBulk := if n = 0 then [] else seg ++ [crc32 (wordsBytes seg)], ringDnPos := (pos + n) % len })
      d.useFresh

/-- The release of strand j of an entry that starts at cycle `start` fails the delivery rule (R166). -/
def Dev.releaseLate (d : Dev) (start j comp : Nat) : Bool :=
  decide (64 * d.tickCycles < 64 * (start + 20 + 8 * (j + 1)) + 33024 + comp + 12000)

/-- The frame words of strand k for this tick, with SEQ (R168 to R170). -/
def Dev.frameWords (d : Dev) (control : List Word) (seq : Nat) : List Word :=
  let t := word ((d.tk.tick + 1) % 2 ^ 24)
  let e := d.tk.appliedEpoch
  [d.sentClaim, ~~~ d.sentClaim, t, e, pack [(16, seq), (0, 65535 - seq)]] ++ control ++
    [crc32 (wordsBytes (t :: e :: control))]

/-- Words with n bits inverted from bit position `at_` on, bits counted in the order sent (R463). -/
def invertBits (ws : List Word) (at_ n : Nat) : List Word :=
  (ws.zipIdx).map (fun p => p.1 ^^^ word (maskOf 32 (fun i => decide (at_ ≤ 32 * p.2 + i) && decide (32 * p.2 + i < at_ + n))))

/-- A frame as an injection leaves it (R463): with its bits inverted before encoding. DESIGN CHOICE (note 201): the N bits, or the N
code groups, are consecutive, from a free place in what the control CRC covers. -/
def spoilWords (i : Option Injection) (place : Nat) (f : List Word) : List Word :=
  match i with
  | some x => if x.action = 3 then f.take 5 ++ invertBits (f.drop 5) (place % (32 * (f.length - 5) + 1 - x.n)) x.n else f
  | none => f

/-- The symbols of a frame as an injection leaves them (R463): with code groups replaced by invalid ones, behind SOF and the
header; fewer where the frame is shorter. -/
def spoilSyms (i : Option Injection) (place : Nat) (l : List Sym) : List Sym :=
  match i with
  | some x =>
    let from_ := min 21 (l.length - x.n) + place % max 1 (105 - x.n)
    if x.action = 2 then l.take from_ ++ List.replicate (min x.n (l.length - from_)) .invalid ++ l.drop (from_ + x.n) else l
  | none => l

/-- The symbols of a frame leave on the strand's grid from its release at core cycle `at_` on, out of rest after 32 COMMAs (R179), with the MARK of the next boundary in its slot where they run past
it (R160, R165, R167); a frame that an injection withheld follows. -/
def Dev.putFrame (d : Dev) (k : Nat) (f : List Word) (i : Option Injection) (behind : Option (List Word)) (at_ : Nat) : Dev :=
  let s := d.strandOf k
  let place := Config.freeNat d.fresh
  let g := spoilWords i place f
  let line := s.wakeSyms ++ spoilSyms i place (frameSyms g s.txBulk) ++ (match behind with | some w => frameSyms w [] | none => [])
  let first := s.gridFrom d.tk.tickStart (64 * at_) - 256 * s.wakeSyms.length
  let slot := (64 * (d.tk.tickStart + d.tickCycles) - s.comp - first) / 256
  (d.modStrand k (fun s =>
    { s with txRest := false, txFrame := g ++ behind.getD [], txLine := withMark line slot, txAt := first })).useFresh

/-- A built frame goes through the injector to the wire (R169, R463, R464). -/
def Dev.sendFrame (d : Dev) (k : Nat) (control : List Word) (at_ : Nat) : Dev :=
  let q := d.injectUnit (injKey 0 k 0)
  let d := q.2
  let seq := ((d.strandOf k).seq + 1) % 65536
  let f := d.frameWords control seq
  match q.1.map (·.action) with
  | some 1 => d.modStrand k (fun s => { s with txFrame := [] })
  | some 4 => d.modStrand k (fun s => { s with seq := seq, txFrame := [], withheld := some f })
  | _ =>
    let behind := (d.strandOf k).withheld
    ((d.modStrand k (fun s =>
      { s with seq := seq, withheld := none, ctrlCrc := wat f 30 })).sendBulk k).putFrame k f q.1 behind at_

/-- Strand k of a DELIVER entry (R46): the encoder runs; an ACTIVE strand that is not under a cut sends its
frame, and a release that fails the delivery rule is counted. DESIGN CHOICE (note 173): a strand under a cut is judged by the
delivery rule too, though it sends no frame. -/
def Dev.deliverStrand (d : Dev) (e : Entry) (start j : Nat) : Dev :=
  let k := 16 * e.unit + j
  let plane := fun (p : Nat) => memWord d.weft (e.src + p * e.stride4 + 4 * e.lane j)
  let s := d.strandOf k
  let wanted := d.inServiceNow k && !d.startBlocks && !bit (plane 5) 0
  let enc := d.encode k (plane 0) wanted
  let ph := phaseWords d.tickCycles (d.phiMaxOf k) (plane 1) (plane 2)
  let sent := s.state == .active && !d.strandCut k
  let d := d.modCell k (fun c => { (if sent then enc.2 else enc.2.unsent c) with phiClamp := c.phiClamp || ph.2 })
  let lim := d.iLim k (plane 4)
  let d := d.useFresh
  if s.state != .active then d
  else
    let d := if d.releaseLate start j s.comp then
        d.modStrand k (fun s => { s with late := true, lateCnt := satInc 16 s.lateCnt }) else d
    if d.strandCut k then d.modStrand k (fun s => { s with txFrame := [], withheld := none })
    else
      let d := d.modStrand k Strand.nextSlot
      d.sendFrame k (enc.1 ++ ph.1 ++ [sword (clampI (-lim) lim (sval (plane 3))), sword lim] ++ (d.strandOf k).cmd.words)
        (d.tk.tickStart + start + 20 + 8 * (j + 1))

/-- A DELIVER entry (R46, R166). -/
def Dev.deliver (d : Dev) (e : Entry) (start : Nat) : Dev :=
  let late := (List.range e.count).filter (fun j =>
    (d.strandOf (16 * e.unit + j)).state == .active && d.releaseLate start j (d.strandOf (16 * e.unit + j)).comp)
  let d := forEach (List.range e.count) (fun j d => d.deliverStrand e start j) d
  match late with
  | j :: _ => d.event 0x025 (word (16 * e.unit + j))
  | [] => d

end Sys2Proof.Machine
end

