-- ==== Sys2Proof/Machine/Meter.lean ====
section
/-!
DEFINITION. Energy and photon metering (R47, R292 to R312): accumulators, the METER entry, snapshots, pulse
inputs and outputs, meter images, the close record and the restore at start.
-/

namespace Sys2Proof.Machine

/-! ### Accumulators (R292, R297, R300) -/

/-- An accumulator that gains an increment in units of 2^-32 LSB. -/
def Acc.add (a : Acc) (inc : Nat) : Acc :=
  let v := a.value * 2 ^ 32 + a.frac + inc
  { a with value := v / 2 ^ 32 % 2 ^ 48, frac := v % 2 ^ 32, wrap := (a.wrap + v / 2 ^ 80) % 256 }

/-- The running total that takes accumulator q (R307). -/
def totalOf (q : Nat) : Option Nat :=
  if q < 32 then some 0 else if q < 64 then some 1 else if q < 96 then none else if q < 99 then some 2
  else if q < 102 then some 3 else if q = 102 then some 4 else if q = 103 then some 5 else none

/-- Pulse output j. -/
def Dev.outOf (d : Dev) (j : Nat) : PulseOut := tblGet {} d.meter.pulseOut j
/-- Pulse output j changed by f. -/
def Dev.modOut (d : Dev) (j : Nat) (f : PulseOut → PulseOut) : Dev :=
  { d with meter := { d.meter with pulseOut := tblMod {} d.meter.pulseOut j f } }
/-- Pulse input i. -/
def Dev.inOf (d : Dev) (i : Nat) : PulseIn := tblGet {} d.meter.pulseIn i
/-- Pulse input i changed by f. -/
def Dev.modIn (d : Dev) (i : Nat) (f : PulseIn → PulseIn) : Dev :=
  { d with meter := { d.meter with pulseIn := tblMod {} d.meter.pulseIn i f } }

/-- n pulses move into BACKLOG (R304, R305). -/
def PulseOut.owe (o : PulseOut) (n : Nat) : PulseOut :=
  { o with backlog := min 65535 (o.backlog + n), oweSat := o.oweSat || decide (65535 < o.backlog + n)
           owing := o.owing || decide (2 ≤ o.backlog + n) && decide (0 < n) }

/-- An output that takes an increment of its source into the residual (R304). -/
def PulseOut.gain (o : PulseOut) (inc : Nat) : PulseOut :=
  let w := o.weight * 2 ^ 32
  ({ o with residual := (o.residual + inc) % w }).owe ((o.residual + inc) / w)

/-- Outputs of source q take its corrected increment; one that then owes more than one pulse is reported
(R304, R305). -/
def Dev.feedPulses (d : Dev) (q inc : Nat) : Dev :=
  (List.range 8).foldl (fun d j =>
    let o := d.outOf j
    if o.en && o.src == q && decide (o.backlog < (o.gain inc).backlog) && decide (2 ≤ (o.gain inc).backlog) then
      (d.modOut j (fun o => o.gain inc)).event 0x093 (word j)
    else if o.en && o.src == q then d.modOut j (fun o => o.gain inc)
    else d) d

/-- Accumulator q gains a corrected increment, and with it the running total and the pulse outputs (R304,
R307). -/
def Dev.gain (d : Dev) (q inc : Nat) : Dev :=
  let a := d.accOf q
  let whole := (a.frac + inc) / 2 ^ 32
  let d := d.modAcc q (fun a => a.add inc)
  let d := match totalOf q with
    | some u => { d with meter := { d.meter with totals := tblMod 0 d.meter.totals u (fun t => (t + whole) % 2 ^ 64) } }
    | none => d
  d.feedPulses q inc

/-- The tick length in seconds. -/
def Dev.tickSeconds (d : Dev) : Rat := (d.tickCycles : Rat) * 4 / 5000000000

/-- The corrected increment of accumulator q in units of 2^-32 LSB: max(0, G × raw + O × tick length), its rest
rounded (R297, note 22). -/
def Dev.corrected (d : Dev) (q : Nat) (raw : Rat) (withO : Bool) : Nat :=
  let a := d.accOf q
  let x := (a.gain : Rat) / (2 ^ 30 : Nat) * raw + (if withO then (a.offset : Rat) / 65536 * d.tickSeconds else 0)
  if x ≤ 0 then 0 else (roundFree (x * (2 ^ 32 : Nat)) (d.fresh + q)).toNat

/-! ### The METER entry (R47, R293 to R295) -/

/-- Cells of channel c among strands below n by the map of the tick before, that are not LOST (R293). -/
def Dev.meteredCells (d : Dev) (n c : Nat) : List Nat :=
  match d.meter.mapPrev with
  | some m => (List.range n).filter (fun k => mapUsed m k && mapChannel m k == c && !(d.strandOf k).lost)
  | none => []

/-- Four signed words from an address. -/
def four (m : Mem) (a : Nat) : List Int := (List.range 4).map (fun i => memInt m (a + 4 * i))

/-- I_CH and V_CH samples of strand k from the planes at the entry's source (R47). -/
def Dev.portSamples (d : Dev) (e : Entry) (k : Nat) : List Int × List Int :=
  (four d.weft (e.src + 4 * e.stride16 + 16 * k), four d.weft (e.src + 5 * e.stride16 + 16 * k))

/-- The raw energy increment of channel c, in mWh (R293). -/
def Dev.rawEnergy (d : Dev) (e : Entry) (c : Nat) : Rat :=
  let s := (d.meteredCells e.count c).foldl (fun (t : Int) k =>
    let p := d.portSamples e k
    t + (p.1.zip p.2).foldl (fun (u : Int) q => u + q.1 * q.2) 0) 0
  (s : Rat) / (2 ^ 64 : Nat) * 500 * ((d.chanOf c).cal.iRated : Rat) / 10 * d.tickSeconds * 10 / 36

/-- The summed port current of channel c, Q1.31 p.u. of its rating (R294). -/
def Dev.portCurrent (d : Dev) (e : Entry) (c : Nat) : Rat :=
  ((d.meteredCells e.count c).foldl (fun (t : Int) k => t + (d.portSamples e k).1.foldl (· + ·) 0) 0 : Int) / (4 : Rat)

/-- LIT_TH of channel c: by default 0.005 p.u. (R294). -/
def Dev.litTh (d : Dev) (c : Nat) : Nat := tblGet 10737418 d.meter.litTh c

/-- Channel c is lit in this tick (R294). -/
def Dev.lit (d : Dev) (e : Entry) (c : Nat) : Bool := decide ((d.litTh c : Rat) ≤ d.portCurrent e c)

/-- The METER entry for channel c: energy, dose and lit time (R293, R294, R297). -/
def Dev.meterChannel (d : Dev) (e : Entry) (c : Nat) : Dev :=
  let lit := d.lit e c
  let est := (d.meteredCells e.count c).any (fun k => !bit (memWord d.weft (e.src + 4 * k)) 0)
  let en := d.corrected c (d.rawEnergy e c) lit
  let mmol : Rat := (en : Rat) / (2 ^ 32 : Nat) * 36 / 10 * ((d.chanOf c).cal.eta : Rat) / 65536 / 1000
  let dose := d.corrected (32 + c) mmol lit
  let d1 := if est then
      { d with meter := { d.meter with estTicks := tblMod 0 d.meter.estTicks c (fun n => satInc 32 n) } }
    else d
  let d2 := (d1.gain c en).gain (32 + c) dose
  if lit then d2.gain (64 + c) (d.corrected (64 + c) (d.tickSeconds * 1000000) false) else d2

/-- The level of a leg over part of a tick: the mean from `lo` to `hi`, in units of 12.5 ps, of the level that
starts at `l` and changes at the edges. -/
def levelMean (lo hi : Rat) : Option Bool → Rat → List (Int × Bool) → Rat
  | l, t, [] => lev l * span t hi
  | l, t, (x, v) :: es => lev l * span t x + levelMean lo hi (some v) x es
where
  /-- A level as a number; a leg with no level counts 0. -/
  lev (l : Option Bool) : Rat := if l = some true then 1 else 0
  /-- The length of [a, b] within [lo, hi], over hi − lo. -/
  span (a b : Rat) : Rat :=
    let x := if a < lo then lo else a
    let y := if hi < b then hi else b
    if x < y then (y - x) / (hi - lo) else 0

/-- The mean of leg A less leg B of a schedule over quarter q of a tick of `len` units (R295). -/
def Sched.quarter (s : Sched) (len q : Nat) : Rat :=
  let lo : Rat := (len * q : Nat) / (4 : Rat)
  let hi : Rat := (len * (q + 1) : Nat) / (4 : Rat)
  levelMean lo hi s.a0 0 s.edgesA - levelMean lo hi s.b0 0 s.edgesB

/-- Sample i of a group of an uplink's control segment, from word `base` (R173). -/
def Strand.sample (s : Strand) (base i : Nat) : Int :=
  match s.last with
  | some u => sval (wat u.control (base + i))
  | none => 0

/-- In-service cells of arm j in the tick whose samples are in hand, by the map then in force (R116, R293, R295). -/
def Dev.armInService (d : Dev) (j : Nat) : List Nat :=
  match d.meter.mapPrev with
  | some m => (armCells m j).filter (fun k =>
      mapUsed m k && !mapParked m k && !(d.strandOf k).lost && !(d.strandOf k).bypassed)
  | none => []

/-- Arm current of arm j at sample i in p.u. of its rating: the mean over the arm's in-service cells, which all
carry it. -/
def Dev.armCurrent (d : Dev) (j i : Nat) : Rat :=
  let ks := d.armInService j
  if ks.isEmpty then 0
  else (ks.foldl (fun (t : Int) k => t + (d.strandOf k).sample 4 i) 0 : Int) / ((2 ^ 31 * ks.length : Nat) : Rat)

/-- The reconstructed voltage of arm j over quarter i, in V, before the zero-sequence step (R295). -/
def Dev.armVolts (d : Dev) (m : List Word) (j i : Nat) : Rat :=
  let len := 64 * d.tickCycles
  let v := (d.armInService j).foldl (fun (t : Rat) k =>
    t + (d.cellOf k).prev.quarter len i * ((d.strandOf k).sample 0 i : Rat) / (2 ^ 31 : Nat)) 0
  let before : Rat := if i = 0 then tblGet 0 d.meter.lastArm j else d.armCurrent j (i - 1)
  let l := Config.armInductance (tblGet 0 d.meter.lArm j)
  let didt := (d.armCurrent j i - before) * (mapArmRated m j : Rat) / 10 / (d.tickSeconds / 4)
  v * (mapVdcNom m : Rat) / 10 + (if tblGet 0 d.meter.lArm j = 0 then 0 else l * didt)

/-- The arms of the star that arm j belongs to; none for the single phase, which has no injection (R103). -/
def starArms (m : List Word) (j : Nat) : List Nat :=
  if mapArrange m = 0 then [] else (List.range 3).map (fun i => j / 3 * 3 + i)

/-- The phase voltage of arm j over quarter i: without the zero-sequence component of its star, the mean of its arms (R295,
DEDUCED, note 151). -/
def Dev.phaseVolts (d : Dev) (m : List Word) (j i : Nat) : Rat :=
  let s := starArms m j
  let z := if s.isEmpty then 0 else (s.foldl (fun (t : Rat) a => t + d.armVolts m a i) 0) / (s.length : Rat)
  d.armVolts m j i - z

/-- The phase that arm j counts for (R295). -/
def armPhase (m : List Word) (j : Nat) : Nat :=
  if mapArrange m = 0 then Config.phasePair (j / 2) % 3 else j % 3

/-- The power of phase p in W over the tick whose samples are in hand (R295). -/
def Dev.phasePower (d : Dev) (m : List Word) (p : Nat) : Rat :=
  ((List.range (mapArms m)).filter (fun j => armPhase m j == p)).foldl (fun (t : Rat) j =>
    t + (List.range 4).foldl (fun (u : Rat) i =>
      u + d.phaseVolts m j i * d.armCurrent j i * (mapArmRated m j : Rat) / 10) 0 / 4) 0

/-- The lane that feeds TB2 (R84). -/
def Dev.tb2LaneNow (d : Dev) : Option Lane := d.spin.tb2Lane.map (fun p => tblGet {} (d.instOf p.1).lanes p.2)

/-- The lane that feeds TB2 is LOCKED (R84). -/
def Dev.tb2LaneLocked (d : Dev) : Bool := (d.tb2LaneNow.map (·.locked)).getD false

/-- The reactive power in var of arm j with the lane at angle θ: positive where the current lags while importing (R295). -/
def Dev.armReactive (d : Dev) (m : List Word) (theta : Int) (j : Nat) : Rat :=
  let v := Config.fundamental ((List.range 4).map (d.phaseVolts m j)) theta (d.fresh + 2 * j)
  let c := Config.fundamental ((List.range 4).map (fun i => d.armCurrent j i * (mapArmRated m j : Rat) / 10)) theta (d.fresh + 2 * j + 1)
  v.2 * c.1 - v.1 * c.2

/-- Reactive power in var: over every arm of the three phases (R295). -/
def Dev.reactivePower (d : Dev) (m : List Word) (theta : Int) : Rat :=
  (List.range (mapArms m)).foldl (fun (t : Rat) j => t + d.armReactive m theta j) 0

/-- The first arm of phase p, which the truth channel of the phase is held against (R296, note 24). -/
def truthArm (m : List Word) (p : Nat) : Option Nat := (List.range (mapArms m)).find? (fun j => armPhase m j == p)

/-- Entries of `Meter.truthHist` that the longest window spans: 16 mains periods at 45 Hz (R314). -/
def Dev.truthSpan (d : Dev) : Nat := 16 * 1250000000 / 45 / d.tickCycles + 1

/-- The mean squares of this tick's phase voltages join the history (R296). -/
def Dev.noteTruth (d : Dev) (m : List Word) : Dev :=
  forEach [0, 1, 2] (fun p e =>
    match truthArm m p with
    | none => e
    | some j =>
      let sq := (List.range 4).foldl (fun (t : Rat) i => t + d.phaseVolts m j i * d.phaseVolts m j i) 0 / 4
      { e with meter := { e.meter with truthHist := tblSet [] e.meter.truthHist p ((sq :: tblGet [] e.meter.truthHist p).take d.truthSpan) } }) d

/-- A raw increment of an MV accumulator: an offset joins it only where it is nonzero (R297). -/
def Dev.gainRaw (d : Dev) (q : Nat) (raw : Rat) : Dev := d.gain q (d.corrected q raw (decide (raw ≠ 0)))

/-- The METER entry for the MV intake: import and export per phase, and reactive energy (R295). -/
def Dev.meterIntake (d : Dev) : Dev :=
  match d.meter.mapPrev with
  | none => { d with meter := { d.meter with qrefLost := !d.tb2LaneLocked } }
  | some m =>
    let d1 := forEach [0, 1, 2] (fun p e =>
      let mwh := d.phasePower m p * d.tickSeconds * 10 / 36
      if 0 < mwh then e.gainRaw (96 + p) mwh else if mwh < 0 then e.gainRaw (99 + p) (-mwh) else e) d
    let last := (List.range (mapArms m)).foldl (fun t j => tblSet 0 t j (d.armCurrent j 3)) ([] : Tbl Rat)
    let hist := (d.noteTruth m).meter.truthHist
    let d2 := { d1 with meter := { d1.meter with qrefLost := !d.tb2LaneLocked, lastArm := last, truthHist := hist } }
    match d.tb2LaneNow with
    | none => d2
    | some l =>
      if !l.locked then d2
      else
        let q := d.reactivePower m l.theta * d.tickSeconds * 10 / 36
        if 0 < q then d2.gainRaw 102 q else if q < 0 then d2.gainRaw 103 (-q) else d2

/-- A METER entry (R47, R293). -/
def Dev.meterRun (d : Dev) (e : Entry) : Dev :=
  let d1 := forEach (List.range 32) (fun c x => x.meterChannel e c) d
  let d2 := d1.meterIntake
  { d2 with meter := { d2.meter with lastMeterTick := d.tk.tick }, fresh := d2.fresh + 140 }

/-! ### Commands (R297, R298, R301, R304, R309) -/

/-- The first failing argument word of METER_PARAM (R294, R296, R297, R307). -/
def meterParamBad (kind i : Nat) (v : Word) : Option Nat :=
  if kind = 0 then (if 136 ≤ i ∨ (64 ≤ i ∧ i < 96) then some 2 else if sval v < 0 then some 3 else none)
  else if kind = 1 then (if 104 ≤ i ∨ (64 ≤ i ∧ i < 96) then some 2 else none)
  else if kind = 2 then (if 32 ≤ i then some 2 else if 214748365 < v.toNat then some 3 else none)
  else if kind = 3 then (if 1 ≤ v.toNat ∧ v.toNat ≤ 50 then none else some 3)
  else if kind = 4 then (if 3 ≤ i then some 2 else none)
  else if kind = 5 then (if 1 ≤ v.toNat ∧ v.toNat ≤ 3600 then none else some 3)
  else if kind = 6 then (if 12 ≤ i then some 2 else none)
  else some 2

/-- METER_PARAM (R298, R427). -/
def bodyMeterParam : Body := fun r d =>
  let kind := bits (arg r 2) 15 8
  let i := bits (arg r 2) 7 0
  match meterParamBad kind i (arg r 3) with
  | some a => d.say (.badArg a)
  | none => d.doneAtTick r (.meterParam kind i (arg r 3))

/-- METER_PARAM command. -/
def execMeterParam (r : Req) (s : State) : Host.Outcome State Fault Refusal :=
  onMain (iapin 0x0501 writes bodyMeterParam r) s

/-- A landed change of a gain or offset counts in CAL_SEQ (R298). -/
def Meter.calChange (m : Meter) (changed : Bool) : Meter := if changed then { m with calSeq := (m.calSeq + 1) % 65536 } else m

/-- A metering parameter lands (R298). -/
def landMeterParam (kind i : Nat) (v : Word) (d : Dev) : Dev :=
  let m := d.meter
  if kind = 0 then
    let d' := d.modAcc i (fun a => { a with gain := sval v })
    { d' with meter := d'.meter.calChange (decide ((d.accOf i).gain ≠ sval v)) }
  else if kind = 1 then
    let d' := d.modAcc i (fun a => { a with offset := sval v })
    { d' with meter := d'.meter.calChange (decide ((d.accOf i).offset ≠ sval v)) }
  else if kind = 2 then { d with meter := { m with litTh := tblSet 10737418 m.litTh i v.toNat } }
  else if kind = 3 then { d with meter := { m with mvTol := v.toNat } }
  else if kind = 4 then { d with meter := { m with truth := tblSet none m.truth i (some v) } }
  else if kind = 5 then { d with meter := { m with saveInterval := v.toNat } }
  else { d with meter := { m with lArm := tblSet 0 m.lArm i v } }

/-- PULSE_IN (R301, R427). -/
def bodyPulseIn : Body := fun r d =>
  let deb := bits (arg r 3) 6 0
  if deb = 0 ∨ 100 < deb then d.say (.badArg 3)
  else if (arg r 4).toNat = 0 ∨ 3600 < (arg r 4).toNat then d.say (.badArg 4)
  else if (arg r 5).toNat = 0 ∨ 1000 < (arg r 5).toNat then d.say (.badArg 5)
  else d.doneAtTick r (.pulseIn (bits (arg r 2) 3 0) (arg r 3) (arg r 4) (arg r 5))

/-- PULSE_IN command. -/
def execPulseIn (r : Req) (s : State) : Host.Outcome State Fault Refusal := onMain (iapin 0x0502 writes bodyPulseIn r) s

/-- A pulse input's configuration lands. -/
def landPulseIn (i : Nat) (w3 w4 w5 : Word) (d : Dev) : Dev :=
  d.modIn i (fun p => { p with en := bit w3 31, activeLow := bit w3 30, debounce := bits w3 6 0
                               stuckLim := w4.toNat, maxRate := w5.toNat })

/-- PULSE_OUT (R304, R427). -/
def bodyPulseOut : Body := fun r d =>
  if 135 < bits (arg r 3) 23 16 ∨ bits (arg r 3) 7 0 = 0 then d.say (.badArg 3)
  else if arg r 4 = 0 then d.say (.badArg 4)
  else d.doneAtTick r (.pulseOut (bits (arg r 2) 2 0) (arg r 3) (arg r 4))

/-- PULSE_OUT command. -/
def execPulseOut (r : Req) (s : State) : Host.Outcome State Fault Refusal := onMain (iapin 0x0503 writes bodyPulseOut r) s

/-- A pulse output's configuration lands: a change of SRC or WEIGHT drops what is owed (R304, R312). -/
def landPulseOut (j : Nat) (w3 w4 : Word) (d : Dev) : Dev :=
  d.modOut j (fun o =>
    let same := decide (o.src = bits w3 23 16) && decide (o.weight = w4.toNat)
    { o with en := bit w3 31, activeLow := bit w3 30, src := bits w3 23 16, width := bits w3 7 0, weight := w4.toNat
             residual := if same then o.residual else 0, backlog := if same then o.backlog else 0
             owing := o.owing && same })

/-- METER_CLEAR (R309). -/
def bodyMeterClear : Body := fun _ d =>
  Dev.doneNow { d with meter := { d.meter with unattr := [], gapS := 0, uncertWh := 0, uncertMol := 0 } }

/-- METER_CLEAR command. -/
def execMeterClear (r : Req) (s : State) : Host.Outcome State Fault Refusal :=
  onMain (iapin 0x0504 writes bodyMeterClear r) s

/-- A write of the first metering word: the W1C bits clear at once, and SNAP_REQ lands at tick, SNAP_READY being
clear until then (R300, R311). -/
def Dev.writeMeter0 (d : Dev) (v : Word) : Dev :=
  let m := d.meter
  let m := { m with gap := m.gap && !bit v 28, saveFail := m.saveFail && !bit v 25
                    truthMis := m.truthMis &&& (7 ^^^ bits v 18 16) }
  let d := { d with meter := m }
  if bit v 31 then ({ d with meter := { d.meter with snapReady := false } }).land .snapReq else d

/-- SNAP_REQ. -/
def execSnapReq (m : Master) (v : Word) (s : State) : Host.Outcome State Fault Refusal :=
  onMain (fun d => d.guarded m 2 (fun d => d.writeMeter0 v)) s

/-- The snapshot bank latches (R300). -/
def landSnapReq (d : Dev) : Dev :=
  let was := d.meter.snapReady
  let snap := (List.range 136).foldl (fun t q =>
    tblSet {} t q { value := (d.accOf q).value, wrap := (d.accOf q).wrap, valid := true }) ([] : Tbl SnapAcc)
  let d := { d with meter := { d.meter with snap := snap, snapTick := d.tk.tick, snapReady := true } }
  if was then d else d.levelUp 9

/-! ### Pulse inputs and outputs (R302 to R305) -/

/-- RAW of the stuck-input source. -/
def Dev.rawStuck (d : Dev) : Dev := d.setRaw 0x091 (d.meter.pulseIn.any (fun p => p.2.stuckRaw))

/-- PULSE_INPUT_CHANGE: an accepted level change; an input that is not enabled counts none (R302). -/
def execPulseInputChange (i : Fin 16) (active : Bool) (s : State) : Host.Outcome State Fault Refusal :=
  onMain (fun d =>
    let p := d.inOf i.val
    if p.level == active then d
    else if active then
      let d := d.modIn i.val (fun p => { p with level := true, activeAt := d.now })
      if p.stuckRaw || !p.en then d
      else
        let d := d.modIn i.val (fun p => { p with window := p.window + 1 })
        (d.gain (104 + i.val) (d.corrected (104 + i.val) 1 false)).useFresh
    else (d.modIn i.val (fun p => { p with level := false, stuckRaw := false })).rawStuck) s

/-- PULSE_INPUT_STUCK: active for longer than STUCK_LIM (R302). -/
def execPulseInputStuck (i : Fin 16) (s : State) : Host.Outcome State Fault Refusal :=
  onMain (fun d =>
    let p := d.inOf i.val
    if p.en && p.level && !p.stuckRaw then
      match d.timeUp (p.activeAt + 1250000000 * p.stuckLim) with
      | some d => (d.modIn i.val (fun p => { p with stuck := true, stuckRaw := true })).level 0x091 (word i.val)
      | none => d
    else d) s

/-- Ticks of an over-rate window: floor(1 s ÷ tick length) (R303). -/
def Dev.windowTicks (d : Dev) : Nat := 1250000000 / d.tickCycles

/-- The windows of all inputs that end are judged (R303). -/
def Dev.judgeWindows (d : Dev) : Dev :=
    let fast := (List.range 16).filter (fun i => decide ((d.inOf i).maxRate < (d.inOf i).window))
    let d1 := forEach fast (fun i x =>
      (x.modIn i (fun p => { p with overRate := true })).gain (120 + i) (d.corrected (120 + i) (d.inOf i).window false)) d
    let d2 := forEach (d1.meter.pulseIn.map (·.1)) (fun i x =>
      x.modIn i (fun p => { p with rateLast := min 65535 p.window, window := 0 })) d1
    let d3 := { d2 with fresh := d2.fresh + 140 }
    match fast with
    | i :: _ => d3.event 0x092 (word i)
    | [] => d3

/-- New windows begin with this tick. -/
def Dev.openWindows (d : Dev) : Dev :=
  { d with meter := { d.meter with windowTick := some d.tk.tick, pulseIn := d.meter.pulseIn.map (fun p => (p.1, { p.2 with window := 0 })) } }

/-- OVER_RATE_WINDOW: at a tick whose number is a multiple of the window, the windows that began one window ago end and are
judged, and the next begin; anywhere else nothing ends (R303, note 150). -/
def execOverRateWindow (s : State) : Host.Outcome State Fault Refusal :=
  onMain (fun d =>
    if !d.tk.seqRun || decide (d.tk.tick % d.windowTicks ≠ 0) || d.meter.windowTick == some d.tk.tick then d
    else if (d.meter.windowTick.map (· + d.windowTicks)) == some d.tk.tick then d.judgeWindows.openWindows
    else d.openWindows) s

/-- This member drives its pulse outputs (R305). -/
def Dev.drivesPulses (d : Dev) : Bool := !d.isMember || d.ply.pstate == .active

/-- PULSE_OUTPUT_START (R304). -/
def execPulseOutputStart (j : Fin 8) (s : State) : Host.Outcome State Fault Refusal :=
  onMain (fun d =>
    let o := d.outOf j.val
    if d.drivesPulses && o.en && decide (o.phase = 0) && decide (o.backlog ≠ 0) then
      d.modOut j.val (fun o => { o with phase := 1, phaseAt := d.now, backlog := o.backlog - 1, owing := o.owing && decide (o.backlog ≠ 1) })
    else d) s

/-- PULSE_OUTPUT_END: WIDTH has passed, of the pulse and then of the inactive time (R304). -/
def execPulseOutputEnd (j : Fin 8) (s : State) : Host.Outcome State Fault Refusal :=
  onMain (fun d =>
    let o := d.outOf j.val
    if o.phase = 0 then d
    else match d.timeUp (o.phaseAt + 1250000 * o.width) with
      | some d => d.modOut j.val (fun o => { o with phase := if o.phase = 1 then 2 else 0, phaseAt := d.now })
      | none => d) s

/-- The level of PULSE_OUT[j]: active during a pulse of an enabled output that this member drives, and else inactive, with
ACTIVE_LOW as configured; high impedance in reset (R304, R305, R451). -/
def Dev.pulsePin (d : Dev) (j : Nat) : Option Bool :=
  let o := d.outOf j
  if d.pwr.held then none else some ((d.drivesPulses && o.en && decide (o.phase = 1)) != o.activeLow)

/-! ### Images (R307) -/

/-- The sequence of the newest image latched. -/
def Dev.latchedSeq (d : Dev) : Nat := (d.meter.latched.map (·.seq)).getD d.meter.saveSeq

/-- The device rating in W (R286). -/
def Dev.rating (d : Dev) : Nat :=
  match d.mapForce with
  | some m => (mapCells m).foldl (fun n k => n + mapRated m k) 0
  | none => 0

/-- The highest efficacy in force. -/
def Dev.etaMax (d : Dev) : Nat := d.recipes.chans.foldl (fun n p => max n p.2.cal.eta) 0

/-- The image of the present state (R307). -/
def Dev.meterImage (d : Dev) : MeterImage :=
  let m := d.meter
  { seq := (d.latchedSeq + 1) % 2 ^ 32, tick := d.tk.tick, session := m.session, calSeq := m.calSeq, rating := d.rating
    limit := d.therm.limit, interval := m.saveInterval, etaMax := d.etaMax
    accs := m.accs.map (fun p => (p.1, { value := p.2.value, frac := p.2.frac, wrap := p.2.wrap }))
    pulses := m.pulseOut.map (fun p => (p.1, (p.2.residual, p.2.backlog)))
    totals := m.totals, unattr := m.unattr, gapS := m.gapS, uncertWh := m.uncertWh, uncertMol := m.uncertMol }

/-- An image latched, to be written (R307). -/
def Dev.latchImage (d : Dev) : Dev :=
  { d with meter := { d.meter with latched := some d.meterImage, writing := true, retried := false } }

/-- Ticks between images: floor(SAVE_INTERVAL ÷ tick length). -/
def Dev.saveTicks (d : Dev) : Nat := 1250000000 * d.meter.saveInterval / d.tickCycles

/-- METER_IMAGE_LATCH, once in a tick whose number is a multiple of the interval (R307). -/
def execMeterImageLatch (s : State) : Host.Outcome State Fault Refusal :=
  onMain (fun d =>
    if d.tk.seqRun && decide (d.tk.tick % d.saveTicks = 0) && d.meter.imageTick != some d.tk.tick then
      { d.latchImage with meter := { d.latchImage.meter with imageTick := some d.tk.tick } }
    else d) s

/-- What an image holds, in the order of R307. -/
def MeterImage.contents (i : MeterImage) : List Nat :=
  [i.seq, i.tick, i.session, i.calSeq, i.rating, i.limit, i.interval, i.etaMax] ++
    (List.range 136).flatMap (fun q => let a := tblGet ⟨0, 0, 0⟩ i.accs q; [a.value, a.frac, a.wrap]) ++
    (List.range 8).flatMap (fun j => let p := tblGet (0, 0) i.pulses j; [p.1, p.2]) ++
    (List.range 6).map (tblGet 0 i.totals) ++ (List.range 6).map (tblGet 0 i.unattr) ++ [i.gapS, i.uncertWh, i.uncertMol]

/-- The bytes of an image, at most 2 KiB, with its CRC-32 last (R307, note 148). -/
def MeterImage.bytes (i : MeterImage) : List Byte :=
  let b := (Config.imageLayout i.contents).take 2044
  b ++ wordBytes (crc32 b)

/-- The newest valid image of the FRAM, with its slot (R309). -/
def Fram.newest (f : Fram) : Option (MeterImage × Nat) :=
  if !f.present then none
  else
    let a := f.slot0.bind (fun i => if i.good then some i else none)
    let b := f.slot1.bind (fun i => if i.good then some i else none)
    match a, b with
    | some x, some y => if x.seq < y.seq then some (y, 1) else some (x, 0)
    | some x, none => some (x, 0)
    | none, some y => some (y, 1)
    | none, none => none

/-- An image written to the slot that does not hold the newest valid one (R307). -/
def Fram.put (f : Fram) (i : MeterImage) : Fram :=
  if !f.present then f
  else match f.newest with
    | some (_, 0) => { f with slot1 := some i, spi := spiStore (slotAddr 1) i.bytes }
    | _ => { f with slot0 := some i, spi := spiStore (slotAddr 0) i.bytes }

/-- IMAGE_WRITE_DONE with the result of the read-back (R307); the registers of the main logic are not touched while
it is held. -/
def execImageWriteDone (ok : Bool) (s : State) : Host.Outcome State Fault Refusal :=
  onDev (fun d =>
    match d.meter.latched with
    | none => d
    | some i =>
      if !d.meter.writing then d
      else if ok then
        let m := if d.pwr.held then d.meter else { d.meter with saveSeq := i.seq, saveTick := i.tick }
        { d with fram := d.fram.put i, meter := { m with writing := false } }
      else
        { d with fram := d.fram.put { i with good := false }
                 meter := { d.meter with saveFail := d.meter.saveFail || !d.pwr.held, retried := true
                                         writing := !d.meter.retried } }) s

/-! ### Collapse and restore (R308, R309) -/

/-- CAUSE of a collapse (R308). -/
def collapseCode : CollapseCause → Nat
  | .pfail => 1
  | .vcoreUv => 2
  | .thermal => 3

/-- The always-on block abandons an image write and writes the close record with the totals of the last completed tick
(R308). -/
def Dev.closeRecord (d : Dev) (cause sensor : Nat) : Dev :=
  if d.pwr.closeWriting.isSome || d.pwr.collapseHold then d
  else
    let rec_ : CloseRec := { typ := 0xC1, cause := cause, sensor := sensor, saveSeq := d.latchedSeq
                             lastTick := d.meter.doneTick % 2 ^ 32, totals := d.meter.doneTotals }
    { d with meter := { d.meter with writing := false }, pwr := { d.pwr with closeWriting := some rec_.sign } }

/-- A required domain that has left its range holds the reset until it is back (R435, R440). -/
def Dev.outOfRange (d : Dev) (dom : Domain) : Dev :=
  if d.pwr.out.contains dom then d else { d with pwr := { d.pwr with out := d.pwr.out ++ [dom] } }

/-- The always-on block declares a collapse (R308); VCORE below its undervoltage level is out of range. -/
def Dev.collapse (d : Dev) (c : CollapseCause) (sensor : Nat) : Dev :=
  let e := d.closeRecord (collapseCode c) (if c = .thermal then sensor else 0)
  if c = .vcoreUv then e.outOfRange .vcore else e

/-- A save gap (R309, step 3). -/
def Dev.saveGap (d : Dev) (i : MeterImage) : Dev :=
  let wh := (i.rating * i.limit * i.interval + 4096 * 3600 - 1) / (4096 * 3600)
  let mol := (wh * 3600 * i.etaMax + 65536 * 1000000 - 1) / (65536 * 1000000)
  let m := d.meter
  { d with meter := { m with gap := true, gapS := i.interval, uncertWh := satAdd 32 m.uncertWh wh
                             uncertMol := satAdd 32 m.uncertMol mol } }

/-- The accumulators of an image, under default gains and offsets. -/
def MeterImage.restoredAccs (i : MeterImage) : Tbl Acc :=
  i.accs.foldl (fun (t : Tbl Acc) p => tblSet {} t p.1 { value := p.2.value, frac := p.2.frac, wrap := p.2.wrap }) []

/-- The pulse outputs of an image, not yet configured. -/
def MeterImage.restoredPulses (i : MeterImage) : Tbl PulseOut :=
  i.pulses.foldl (fun (t : Tbl PulseOut) p => tblSet {} t p.1 { residual := p.2.1, backlog := p.2.2 }) []

/-- METER_RESTORE: accumulators, outputs and registers from the newest image, the close record's totals or a
save gap, and a new image (R309). -/
def Dev.meterRestore (d : Dev) : Dev :=
  let d := { d with meter := { d.meter with latched := none } }
  let d := match d.fram.newest with
    | none => { d with meter := { d.meter with initBlank := true, nvFail := !d.fram.present, totals := [] } }
    | some (i, _) =>
      let m := d.meter
      let d := { d with meter := { m with
          accs := i.restoredAccs, pulseOut := i.restoredPulses
          totals := i.totals, unattr := i.unattr, gapS := i.gapS, uncertWh := i.uncertWh, uncertMol := i.uncertMol
          session := i.session + 1, saveSeq := i.seq, saveTick := i.tick } }
      let c := d.fram.close
      if c.valid ∧ (c.saveSeq = i.seq ∨ c.saveSeq = (i.seq + 1) % 2 ^ 32) then
        let un := (List.range 6).foldl (fun t u =>
          tblSet 0 t u ((tblGet 0 t u + tblGet 0 c.totals u + (2 ^ 64 - tblGet 0 i.totals u)) % 2 ^ 64)) d.meter.unattr
        { d with meter := { d.meter with unattr := un, closeOk := true } }
      else (d.saveGap i).event 0x090 (word i.interval)
  ({ d with fram := d.fram.putClose { d.fram.close with typ := 0 } 1, meter := { d.meter with doneTotals := d.meter.totals } }).latchImage

/-! ### Truth channels (R296) -/

/-- The section of the arm that the truth channel of phase p is held against (R296). -/
def Dev.truthSection (d : Dev) (p : Nat) : Nat :=
  match d.mapForce with
  | some m => ((truthArm m p).getD 0) / armsPerSection (mapArrange m)
  | none => 0

/-- Full scale of a range in µV (R313). -/
def rangeMicrovolts (range : Nat) : Nat := 2500000 / 2 ^ range

/-- A truth channel that reads `v` volts differs by more than MV_TOL from the RMS whose square is the mean of `hist` (R296;
DEDUCED, note 161: the tolerance is of the reconstruction). -/
def truthDiffers (mvTol : Nat) (v : Rat) (hist : List Rat) : Bool :=
  let sq := hist.foldl (· + ·) 0 / (hist.length : Rat)
  let up : Rat := 1 + (mvTol : Rat) / 1000
  let lo : Rat := 1 - (mvTol : Rat) / 1000
  decide (v < 0) || decide (sq * up * up < v * v) || decide (v * v < sq * lo * lo)

/-- A result of a converter input that a phase is assigned to, against the reconstruction over the same `len` core cycles: a
third consecutive difference above MV_TOL, and each that follows it, sets TRUTH_MIS (R296). A result whose window began
before the metering is not judged (DEDUCED, note 161). -/
def Dev.truthResult (d : Dev) (input range : Nat) (code : Int) (len : Nat) : Dev :=
  let ticks := max 1 (len / d.tickCycles)
  let ps := (List.range 3).filter (fun p => match tblGet none d.meter.truth p with
    | some w => Config.truthInput w == input
    | none => false)
  ps.foldl (fun d p =>
    let hist := (tblGet [] d.meter.truthHist p).take ticks
    if hist.length < ticks then d
    else
      let scale := Config.truthScale ((tblGet none d.meter.truth p).getD 0)
      let bad := truthDiffers d.meter.mvTol (scale * (code : Rat) * (rangeMicrovolts range : Rat) / (8388608000000 : Nat)) hist
      let n := if bad then min 3 (tblGet 0 d.meter.truthBad p + 1) else 0
      let d := { d with meter := { d.meter with truthBad := tblSet 0 d.meter.truthBad p n } }
      if n = 3 then
        ({ d with meter := { d.meter with truthMis := d.meter.truthMis ||| 2 ^ p } }).event 0x099 (pack [(8, d.truthSection p), (0, p)])
      else d) d

end Sys2Proof.Machine
end

