-- ==== Sys2Proof/Machine/Adc.lean ====
section
/-!
DEFINITION. The integrating converters (R313 to R326): conversions, settling, reference checks, interleaved
pairs, urgent requests, buffers, calibration, and their commands.
-/

namespace Sys2Proof.Machine

/-! ### Settings -/

/-- The even converter of c's pair runs it interleaved (R320). -/
def Dev.interleaved (d : Dev) (c : Nat) : Bool :=
  let e := d.adcOf (c / 2 * 2)
  e.cfg.intlv && e.cfg.mode == 1

/-- BUF_BASE of converter c: by default 0x0004_0000 × c (R325). -/
def AdcCfg.base (x : AdcCfg) (c : Nat) : Nat := x.bufBase.getD (0x40000 * c)

/-- The mains period in core cycles: nominal until TB2 has been valid once, else that of TB2's ω within 45 Hz to 66 Hz
(R314, R343). -/
def Dev.mainsCycles (d : Dev) : Nat :=
  let q : Rat :=
    if !d.clk.tb2.everValid then 1250000000 / (d.mainsHz : Rat)
    else if 100 * d.clk.tb2Omega < 45 * 2 ^ 31 then 1250000000 / 45
    else if 66 * 2 ^ 31 < 100 * d.clk.tb2Omega then 1250000000 / 66
    else (d.clk.mainsPeriod : Rat) * 10 / 1024
  (roundNear q d.fresh).toNat

/-- Core cycles of the settling interval (R314). -/
def settleCycles : Nat := 62500

/-- The length of a conversion: 50 µs and its window (R314). -/
def Dev.convLength (d : Dev) (tmode ncyc tfix : Nat) : Nat :=
  settleCycles + (if tmode = 0 then (ncyc + 1) * d.mainsCycles else 1250000 * tfix)

/-- Entry e of the scan list: input and range (R325). -/
def AdcCfg.entry (x : AdcCfg) (e : Nat) : Nat × Nat := (nbits x.scan (7 * e + 6) (7 * e + 2), nbits x.scan (7 * e + 1) (7 * e))

/-! ### Conversions (R314 to R321) -/

/-- Results that carry SETTLING when a conversion follows another (R318). -/
def settleFor (idle : Bool) (old new : AdcConv) : Nat :=
  if idle || old.tmode != new.tmode || old.ncyc != new.ncyc || old.tfix != new.tfix then 2
  else if old.input != new.input || old.range != new.range || old.kind == 1 then 1 else 0

/-- Converter c starts a conversion with a window setting. -/
def Dev.startWith (d : Dev) (c : Nat) (kind input range : Nat) (least : Nat) (tmode ncyc tfix : Nat) : Dev :=
  let v : AdcConv := { kind := kind, input := input, range := range, tmode := tmode, ncyc := ncyc, tfix := tfix
                       len := d.convLength tmode ncyc tfix, startAt := d.now, pair := d.interleaved c }
  (d.modAdc c (fun x =>
    { x with conv := v, busy := true, follows := true, settle := max (max x.settle least) (settleFor (!x.follows) x.conv v)
             refCount := if kind = 1 then 0 else x.refCount + 1
             nomPeriod := if tmode = 0 then !d.clk.tb2.everValid else x.nomPeriod })).useFresh

/-- Converter c starts a conversion with the window setting that stands, the even converter's in an interleaved pair (R314, R320). -/
def Dev.startConv (d : Dev) (c : Nat) (kind input range : Nat) (least : Nat) : Dev :=
  let s := (d.adcOf (if c % 2 = 1 ∧ d.interleaved c then c - 1 else c)).cfg
  d.startWith c kind input range least s.tmode s.ncyc s.tfix

/-- The window of converter c's running conversion takes the mains period that stands now (R314). -/
def Dev.openWindow (d : Dev) (c : Nat) : Dev :=
  let x := d.adcOf c
  let v := x.conv
  if x.busy && !v.opened then
    (d.modAdc c (fun x =>
      { x with conv := { v with len := d.convLength v.tmode v.ncyc v.tfix, opened := true }
               nomPeriod := if v.tmode = 0 then !d.clk.tb2.everValid else x.nomPeriod })).useFresh
  else d

/-- Windows that started before now keep their length, whatever changes the mains period now (R314, R326). -/
def Dev.openAdcWindows (d : Dev) : Dev :=
  forEach (List.range 8) (fun c d =>
    if (d.adcOf c).conv.startAt + settleCycles < d.now then d.openWindow c else d) d

/-- The next conversion of the converter's own mode (R316). -/
def Dev.startMode (d : Dev) (c : Nat) : Dev :=
  let x := d.adcOf c
  if x.cfg.mode = 1 then d.startConv c 0 x.cfg.input x.cfg.range 0
  else if x.cfg.mode = 2 then
    let e := x.cfg.entry x.scanIdx
    let d := d.startConv c 0 e.1 e.2 (if x.scanRep = 0 then 1 else 0)
    d.modAdc c (fun x =>
      if x.scanRep = x.cfg.rept then { x with scanRep := 0, scanIdx := if x.scanIdx = x.cfg.scanLen then 0 else x.scanIdx + 1 }
      else { x with scanRep := x.scanRep + 1 })
  else
    let d := d.modAdc c (fun x => { x with busy := false, follows := false })
    if c % 2 = 0 then d.modAdc (c + 1) (fun x => { x with follows := x.busy }) else d

/-- The range at which converter c checks its reference: the one its mode converts at now (R319). -/
def Adc.presentRange (x : Adc) : Nat := if x.cfg.mode = 2 then (x.cfg.entry x.scanIdx).2 else x.cfg.range

/-- The urgent request that waits for its conversion (R321). -/
def Adc.waiting (x : Adc) : Option Urgent := x.urgent.filter (fun u => decide (u.stage < 2))

/-- A calibration lacks valid raw results, of the odd slots too where the pair is interleaved (R323). -/
def AdcCalSt.lacks (k : AdcCalSt) (pair : Bool) : Bool :=
  decide (k.raws.length < 4) || (pair && decide (k.rawsOdd.length < 4))

/-- What converter c does next: an urgent request, a reference check, a calibration, or its mode (R319, R321,
R323). The odd converter of an interleaved pair waits for its slot, but for a request that was pending when the pair
was formed (R326). -/
def Dev.startNext (d : Dev) (c : Nat) : Dev :=
  let x := d.adcOf c
  match x.waiting with
  | some u =>
    if u.stage = 0 ∧ (x.conv.kind = 1 ∨ x.conv.input ≠ u.input ∨ x.conv.range ≠ u.range) then
      (d.startConv c 2 u.input u.range 0).modAdc c (fun x => { x with urgent := some { u with stage := 1 } })
    else (d.startConv c 3 u.input u.range 0).modAdc c (fun x => { x with urgent := some { u with stage := 2 } })
  | none =>
      if c % 2 = 1 ∧ d.interleaved c then d.modAdc c (fun x => { x with busy := false })
      else if x.cfg.refEvery ≠ 0 ∧ x.cfg.refEvery ≤ x.refCount ∧ x.cfg.mode ≠ 0 then d.startConv c 1 x.conv.input x.presentRange 0
      else match x.cal with
        | some k => if k.lacks (d.interleaved c) then d.startConv c 4 k.input k.range 0 else d.startMode c
        | none => d.startMode c

/-- ODD_CONVERSION_START: half a conversion after an even one of the interleaved pair, under its settings (R320). -/
def execOddConversionStart (pair : Fin 4) (s : State) : Host.Outcome State Fault Refusal :=
  onMain (fun d =>
    let e := 2 * pair.val
    if d.interleaved e && (d.adcOf e).busy && (d.adcOf e).conv.pair && !(d.adcOf (e + 1)).busy then
      let o := d.openWindow e
      let v := (o.adcOf e).conv
      match o.timeUp (v.startAt + v.len / 2) with
      | some d => d.startWith (e + 1) v.kind v.input v.range 0 v.tmode v.ncyc v.tfix
      | none => d
    else d) s

/-! ### Results (R317, R319, R322) -/

/-- The coefficients of an input and range (R324). -/
def Dev.coefFor (d : Dev) (input range : Nat) : AdcCoef := tblGet {} d.adcs.coefs (4 * input + range)

/-- (raw − OFS) × GAIN to nearest, and whether it saturates (R317). -/
def adcResult (raw : Int) (ofs gain : Word) (e : Nat) : Int × Bool :=
  let y := roundNear (((raw * 256 - sval ofs) * sval gain : Int) / ((2 ^ 38 : Nat) : Rat)) e
  (clampI (-8388607) 8388607 y, decide (clampI (-8388607) 8388607 y ≠ y))

/-- A result word (R317). -/
def resultWord (settling urgent ref : Bool) (input : Nat) (code : Int) : Word :=
  pack [(31, b1 settling), (30, b1 urgent), (29, b1 ref), (24, if ref then 0 else input), (0, lowBits 24 code)]

/-- A result word written at WR_IDX of converter c's buffer (R322). -/
def Dev.writeResult (d : Dev) (c : Nat) (w : Word) : Dev :=
  let x := d.adcOf c
  let a := areaLo + x.cfg.base c + 4 * x.wrIdx
  ({ d with bar2 := memPutWord d.bar2 a w }).modAdc c (fun x =>
    { x with wrIdx := (x.wrIdx + 1) % 2 ^ x.cfg.bufLog2, seq := (x.seq + 1) % 2 ^ 32 })

/-- A valid raw result joins a calibration of its input and range (R323). -/
def Dev.feedCal (d : Dev) (c : Nat) (v : AdcConv) (raw : Int) : Dev :=
  let h := if v.pair then c / 2 * 2 else c
  match (d.adcOf h).cal with
  | some k =>
    if k.input = v.input ∧ k.range = v.range then
      d.modAdc h (fun x => { x with cal := some (
        if c = h then { k with raws := (k.raws ++ [raw]).take 4 } else { k with rawsOdd := (k.rawsOdd ++ [raw]).take 4 }) })
    else d
  | none => d

/-- CONVERSION_END: the result of converter c's conversion, under the settings it started with, and its next conversion (R314
to R322). -/
def Dev.conversionEnd (d : Dev) (c : Nat) (raw : Int) : Dev :=
  let x := d.adcOf c
  let v := x.conv
  let odd := decide (c % 2 = 1) && v.pair
  let ref := v.kind == 1
  let settling := ref || decide (0 < x.settle)
  let k := d.coefFor v.input v.range
  let res := if ref then (raw, false)
    else if odd then adcResult raw k.ofsO k.gainO d.fresh else adcResult raw k.ofsE k.gainE d.fresh
  let w := resultWord settling (v.kind == 2 || v.kind == 3) ref v.input res.1
  let fuse := Config.referenceFuse c v.range
  let bad := ref && decide (fuse.natAbs < 2000 * (raw - fuse).natAbs)
  let d := { d with fresh := d.fresh + 2 }
  let d := d.modAdc c (fun x =>
    { x with settle := x.settle - 1, ovrSeen := x.ovrSeen || res.2, newest := w
             refFail := x.refFail || bad, lastTick := d.tk.tick % 2 ^ 32, lastConv := v.len
             urgent := if v.kind = 3 then x.urgent.map (fun u => if u.stage = 2 then { u with result := some w } else u) else x.urgent })
  let d := if bad then d.event 0x098 (word c) else d
  let d := d.writeResult (if odd then c - 1 else c) w
  let d := if settling || v.kind == 2 || v.kind == 3 then d else d.feedCal c v raw
  let d := if settling then d else d.truthResult v.input v.range res.1 (v.len - settleCycles)
  d.startNext c

/-- CONVERSION_END: the window of converter c ends (R314). -/
def execConversionEnd (c : Fin 8) (raw : Int) (s : State) : Host.Outcome State Fault Refusal :=
  onMain (fun d =>
    let o := d.openWindow c.val
    let v := (o.adcOf c.val).conv
    if (d.adcOf c.val).busy then
      match o.timeUp (v.startAt + v.len) with
      | some d => d.conversionEnd c.val raw
      | none => d
    else d) s

/-- At a boundary, or the end of a period of R486, converters that stand idle start what waits for them (R318, R321, note 176). -/
def Dev.adcBoundary (d : Dev) : Dev :=
  forEach (List.range 8) (fun c d =>
    let x := d.adcOf c
    let own := decide (x.cfg.mode ≠ 0) || (match x.cal with | some k => k.lacks (d.interleaved c) | none => false)
    if !x.busy && (x.waiting.isSome || (own && !(decide (c % 2 = 1) && d.interleaved c))) then d.startNext c else d) d

/-! ### Commands (R321, R323 to R325) -/

/-- The eight words of converter c's record (R325). -/
def Dev.adcWords (d : Dev) (c : Nat) : List Word :=
  let x := d.adcOf c
  let g := x.cfg
  [ pack [(30, g.mode), (29, b1 g.intlv), (28, g.tmode), (24, g.ncyc), (15, g.tfix), (10, g.input), (8, g.range), (4, g.rept), (2, g.scanLen)],
    word g.scan, word (g.base c), pack [(27, g.bufLog2), (12, g.refEvery)],
    pack [(16, x.wrIdx), (15, b1 x.busy), (14, b1 (x.urgent.isSome)), (13, b1 (x.busy && (decide (0 < x.settle) || x.conv.kind == 1))),
          (12, b1 x.refFail), (11, b1 x.ovrSeen), (10, b1 x.nomPeriod)],
    word x.seq, word x.lastTick, word x.lastConv ]

/-- Word 0 of converter c's record is refused (R316, R320, R325). -/
def adcWord0Bad (c : Nat) (w : Word) : Bool :=
  decide (bits w 31 30 = 3) || (bit w 29 && (decide (c % 2 = 1) || decide (bits w 31 30 ≠ 1))) ||
  decide (bits w 23 15 = 0) || decide (320 < bits w 23 15) || decide (bits w 7 4 = 0)

/-- The first record word that a write of converter c fails on; a BUF_BASE beside a size out of range is judged with the smallest
(R322, R325, R411). -/
def Dev.adcBad (d : Dev) (c : Nat) (f : RecForm) : Option Nat :=
  let ws := d.adcWords c
  let base := (f.wordOr 2 (wat ws 2)).toNat
  let log2 := bits (f.wordOr 3 (wat ws 3)) 31 27
  let noSize := decide (log2 < 6) || decide (16 < log2)
  let outside := decide (areaEnd - areaLo < base + 4 * 2 ^ (if noSize then 6 else log2))
  if (f.wordFor 0).any (adcWord0Bad c) then some 0
  else if (f.wordFor 2).isSome && (decide (base % 64 ≠ 0) || outside) then some 2
  else if (f.wordFor 3).isSome && (noSize || outside) then some 3
  else none

/-- ADC (R325): W1C bits at once, the configuration at tick. -/
def bodyAdc : Body := fun r d =>
  if bits (arg r 2) 31 16 = 8 then
    match recForm r 9 1 with
    | none => d.say (.badArg 2)
    | some f =>
      if !r.write then d.say (f.readReply r [word (b1 d.adcs.mainsNom)])
      else d.doneAtTick r (.adc 8 0 [f.wordOr 0 0])
  else match recForm r 8 8 with
    | none => d.say (.badArg 2)
    | some f =>
      if !r.write then d.say (f.readReply r (d.adcWords f.index))
      else match d.adcBad f.index f with
        | some i => d.say (.badArg (f.argOf i))
        | none =>
          let w4 := f.wordOr 4 0
          (d.modAdc f.index (fun x => { x with refFail := x.refFail && !bit w4 12, ovrSeen := x.ovrSeen && !bit w4 11 })).doneAtTick r
            (.adc f.index f.first (f.data.take f.count))

/-- ADC command. -/
def execAdc (r : Req) (s : State) : Host.Outcome State Fault Refusal := onMain (iapin 0x0505 readsRec bodyAdc r) s

/-- A converter's settings with carried record words 0 to 3 in place. -/
def AdcCfg.write (g : AdcCfg) (f : RecForm) : AdcCfg :=
  let g := match f.wordFor 0 with
    | some w => { g with mode := bits w 31 30, intlv := bit w 29, tmode := bits w 28 28, ncyc := bits w 27 24, tfix := bits w 23 15
                         input := bits w 14 10, range := bits w 9 8, rept := bits w 7 4, scanLen := bits w 3 2 }
    | none => g
  let g := match f.wordFor 1 with | some w => { g with scan := bits w 27 0 } | none => g
  let g := match f.wordFor 2 with | some w => { g with bufBase := some w.toNat } | none => g
  match f.wordFor 3 with
  | some w => { g with bufLog2 := bits w 31 27, refEvery := bits w 23 12 }
  | none => g

/-- A converter's configuration lands: a new buffer starts at slot 0, and a new scan at its first entry (R318,
R322). -/
def landAdc (c first : Nat) (words : List Word) (d : Dev) : Dev :=
  if c = 8 then { d with adcs := { d.adcs with mainsNom := bit (wat words 0) 0 } }
  else
    let g := (d.adcOf c).cfg
    let g' := g.write { index := c, first := first, count := words.length, data := words }
    d.modAdc c (fun x =>
      { x with
        cfg := g', wrIdx := if g.base c = g'.base c ∧ g.bufLog2 = g'.bufLog2 then x.wrIdx else 0
        scanIdx := if g.mode = g'.mode ∧ g.scan = g'.scan ∧ g.scanLen = g'.scanLen ∧ g.rept = g'.rept then x.scanIdx else 0
        scanRep := if g.mode = g'.mode ∧ g.scan = g'.scan ∧ g.scanLen = g'.scanLen ∧ g.rept = g'.rept then x.scanRep else 0 })

/-- ADC_URGENT (R321). -/
def bodyAdcUrgent : Body := fun r d =>
  let c := bits (arg r 2) 2 0
  if d.interleaved c then d.say .wrongState
  else
    let p := d.beginLong 0x0506 r
    if p.1.status = 1 then
      (p.1, p.2.modAdc c (fun x => { x with urgent := some { input := bits (arg r 3) 4 0, range := bits (arg r 3) 9 8, stage := 0 } }))
    else p

/-- ADC_URGENT command. -/
def execAdcUrgent (r : Req) (s : State) : Host.Outcome State Fault Refusal := onMain (iapin 0x0506 writes bodyAdcUrgent r) s

/-- The converter that calibrates an input: one that converts it continuously, else any, since the command names
none (R323, note 25). -/
def Dev.calConverter (d : Dev) (input : Nat) : Nat :=
  ((List.range 8).find? (fun c => (d.adcOf c).cfg.mode == 1 && (d.adcOf c).cfg.input == input &&
    !(decide (c % 2 = 1) && d.interleaved c))).getD
      (let c := Config.freeNat d.fresh % 8
       if d.interleaved c then c / 2 * 2 else c)

/-- ADC_CAL (R323). -/
def bodyAdcCal : Body := fun r d =>
  let full := bit (arg r 2) 31
  let input := bits (arg r 2) 4 0
  let range := bits (arg r 2) 9 8
  let v := sval (arg r 3)
  let fs := rangeMicrovolts range
  if full ∧ (100 * v.natAbs < 50 * fs ∨ 95 * fs < 100 * v.natAbs) then d.say (.badArg 3)
  else
    let p := d.beginLong 0x0507 r
    if p.1.status = 1 then
      let c := d.calConverter input
      if (d.adcOf c).cal.isSome then d.say .busy
      else (p.1, (p.2.modAdc c (fun x => { x with cal := some { full := full, input := input, range := range, vApp := v } })).useFresh)
    else p

/-- ADC_CAL command. -/
def execAdcCal (r : Req) (s : State) : Host.Outcome State Fault Refusal := onMain (iapin 0x0507 writes bodyAdcCal r) s

/-- The four words of a coefficient record (R324). -/
def AdcCoef.words (k : AdcCoef) : List Word := [k.ofsE, k.gainE, k.ofsO, k.gainO]

/-- ADC_COEF (R324). -/
def bodyAdcCoef : Body := recRead 128 4 (fun d i => (tblGet ({} : AdcCoef) d.adcs.coefs i).words)

/-- ADC_COEF command. -/
def execAdcCoef (r : Req) (s : State) : Host.Outcome State Fault Refusal := onMain (iapin 0x0508 reads bodyAdcCoef r) s

/-! ### Ends of long-running commands -/

/-- The final reply of an urgent request, once its result is there (R321). -/
def Dev.urgentDone (d : Dev) (r : Req) : Option (Rep × Dev) :=
  let c := bits (arg r 2) 2 0
  match (d.adcOf c).urgent with
  | some u => u.result.map (fun w => (.ok [w], d.modAdc c (fun x => { x with urgent := none })))
  | none => none

/-- OFS from four raw results, Q24.8 (R323). -/
def calOffset (raws : List Int) : Word := sword (64 * raws.foldl (· + ·) 0)

/-- GAIN from four raw results, Q2.30; none where it lies outside 0.9 to 1.1 (R323). -/
def calGain (range : Nat) (vApp : Int) (raws : List Int) (ofs : Word) (e : Nat) : Option Word :=
  let den : Rat := (raws.foldl (· + ·) 0 : Int) / (4 : Rat) - (sval ofs : Rat) / 256
  let g : Rat := (vApp : Rat) / (rangeMicrovolts range : Rat) * (2 ^ 23 : Nat) / den
  if den = 0 ∨ g < 9 / 10 ∨ 11 / 10 < g then none else some (sword (roundNear (g * (2 ^ 30 : Nat)) e))

/-- The final reply of a calibration, once its results are there: the coefficient lands with it (R323). -/
def Dev.calDone (d : Dev) (r : Req) : Option (Rep × Dev) :=
  let input := bits (arg r 2) 4 0
  match (List.range 8).find? (fun c => ((d.adcOf c).cal.map (·.input)) == some input) with
  | none => none
  | some c =>
    match (d.adcOf c).cal with
    | none => none
    | some k =>
      let pair := d.interleaved c
      if k.lacks pair then none
      else
        let o := d.coefFor k.input k.range
        let d := (d.modAdc c (fun x => { x with cal := none })).useFresh
        let put := fun (v : AdcCoef) => { d with adcs := { d.adcs with coefs := tblSet {} d.adcs.coefs (4 * k.input + k.range) v } }
        if !k.full then
          let v := { o with ofsE := calOffset k.raws, ofsO := if pair then calOffset k.rawsOdd else o.ofsO }
          some (.ok (if pair then [v.ofsE, v.ofsO] else [v.ofsE]), put v)
        else
          let e := calGain k.range k.vApp k.raws o.ofsE d.fresh
          let q := if pair then calGain k.range k.vApp k.rawsOdd o.ofsO d.fresh else some o.gainO
          match e, q with
          | some ge, some go => some (.ok (if pair then [ge, go] else [ge]), put { o with gainE := ge, gainO := go })
          | _, _ => some (.badArg 3, d)

end Sys2Proof.Machine
end

