-- ==== Sys2Proof/Machine/Cmac.lean ====
section
/-!
DEFINITION. The AES-CMAC that tags coordination frames (R362, which names NIST SP 800-38B), over AES-128 in the form
of FIPS 197: bytes in order, the state column by column.
-/

namespace Sys2Proof.Machine

/-- Doubling in the field of AES. -/
def gfDouble (b : Byte) : Byte := (b <<< 1) ^^^ (if b.msb then 0x1B else 0)

/-- Product in the field of AES. -/
def gfMul (a b : Byte) : Byte :=
  ((List.range 8).foldl (fun (p : Byte × Byte) i =>
    (if b.getLsbD i then p.1 ^^^ p.2 else p.1, gfDouble p.2)) (0, a)).1

/-- Inverse in the field of AES, 0 for 0: the power 254. -/
def gfInv (a : Byte) : Byte :=
  ((List.range 7).foldl (fun (p : Byte × Byte) _ => let q := gfMul p.2 p.2; (gfMul p.1 q, q)) (1, a)).1

/-- The AES substitution of a byte. -/
def aesSub (a : Byte) : Byte :=
  let i := gfInv a
  i ^^^ i.rotateLeft 1 ^^^ i.rotateLeft 2 ^^^ i.rotateLeft 3 ^^^ i.rotateLeft 4 ^^^ 0x63

/-- Exclusive or of two byte strings. -/
def xorBytes (a b : List Byte) : List Byte := List.zipWith (· ^^^ ·) a b

/-- The next round key from a round key and its round constant. -/
def nextKey (k : List Byte) (rc : Byte) : List Byte :=
  let t := [aesSub (k.getD 13 0) ^^^ rc, aesSub (k.getD 14 0), aesSub (k.getD 15 0), aesSub (k.getD 12 0)]
  let w0 := xorBytes (k.take 4) t
  let w1 := xorBytes w0 ((k.drop 4).take 4)
  let w2 := xorBytes w1 ((k.drop 8).take 4)
  w0 ++ w1 ++ w2 ++ xorBytes w2 (k.drop 12)

/-- The rows of the state shifted. -/
def shiftRows (s : List Byte) : List Byte := (List.range 16).map (fun i => s.getD ((i + 4 * (i % 4)) % 16) 0)

/-- The columns of the state mixed. -/
def mixColumns (s : List Byte) : List Byte :=
  (List.range 16).map (fun i =>
    let at_ := fun (r : Nat) => s.getD (4 * (i / 4) + (i + r) % 4) 0
    gfDouble (at_ 0) ^^^ (gfDouble (at_ 1) ^^^ at_ 1) ^^^ at_ 2 ^^^ at_ 3)

/-- One AES-128 encryption of a block. -/
def aesBlock (key block : List Byte) : List Byte :=
  let go := (List.range 10).foldl (fun (p : List Byte × List Byte × Byte) r =>
    let k := nextKey p.2.1 p.2.2
    let s := shiftRows (p.1.map aesSub)
    (xorBytes (if r = 9 then s else mixColumns s) k, k, gfDouble p.2.2)) (xorBytes block key, key, 1)
  go.1

/-- The number of a byte string, first byte most significant. -/
def bytesNat (l : List Byte) : Nat := l.foldl (fun n b => n * 256 + b.toNat) 0

/-- The 16 bytes of a number below 2^128, most significant first. -/
def natBlock (n : Nat) : List Byte := (List.range 16).map (fun i => BitVec.ofNat 8 (n / 2 ^ (8 * (15 - i))))

/-- Doubling of a subkey (SP 800-38B). -/
def cmacDouble (l : List Byte) : List Byte :=
  let n := bytesNat l
  natBlock ((2 * n % 2 ^ 128) ^^^ (if 2 ^ 127 ≤ n then 0x87 else 0))

/-- The chaining over blocks of 16 bytes; `n` bounds their number. -/
def cmacGo (key k1 k2 : List Byte) : Nat → List Byte → List Byte → List Byte
  | 0, x, _ => x
  | n + 1, x, m =>
    if m.length ≤ 16 then
      let last := if m.length = 16 then xorBytes m k1 else xorBytes (fit 16 0 (m ++ [0x80])) k2
      aesBlock key (xorBytes x last)
    else cmacGo key k1 k2 n (aesBlock key (xorBytes x (m.take 16))) (m.drop 16)

/-- AES-CMAC under a 128-bit key. -/
def cmac (key : BitVec 128) (m : List Byte) : List Byte :=
  let k := natBlock key.toNat
  let k1 := cmacDouble (aesBlock k (List.replicate 16 0))
  cmacGo k k1 (cmacDouble k1) (m.length / 16 + 1) (List.replicate 16 0) m

/-- The two TAG words of a coordination frame's words before it (R362). -/
def coordTag (key : BitVec 128) (ws : List Word) : List Word := bytesWords ((cmac key (wordsBytes ws)).take 8)

end Sys2Proof.Machine
end

