-- ==== Sys2Proof/Machine/Ptp.lean ====
section
/-!
DEFINITION. PTP messages in frames (R353; the layouts are those of IEEE 802.3, 802.1Q and 1588-2019, note 27): their fields,
the messages that the device sends, and the choice of a master.
-/

namespace Sys2Proof.Machine

/-! ### Fields of frames -/

/-- Byte i of a frame. -/
def byteAt (l : List Byte) (i : Nat) : Nat := (l.getD i 0).toNat

/-- A 16-bit field of a frame, most significant byte first. -/
def half (l : List Byte) (i : Nat) : Nat := byteAt l i * 256 + byteAt l (i + 1)

/-- The n bytes of a frame from offset o as a number, most significant byte first. -/
def fieldAt (l : List Byte) (o n : Nat) : Nat := bytesNat ((l.drop o).take n)

/-- A MAC address of a frame. -/
def macAt (l : List Byte) (o : Nat) : BitVec 48 := BitVec.ofNat 48 (fieldAt l o 6)

/-- A multicast or broadcast address. -/
def groupMac (m : BitVec 48) : Bool := m.getLsbD 40

/-- A frame carries an S-tag (R349). -/
def stagged (l : List Byte) : Bool := half l 12 == 0x88A8

/-- The VID of a frame's C-tag; none without one (R349). -/
def ctagVid (l : List Byte) : Option (BitVec 12) := if half l 12 = 0x8100 then some (BitVec.ofNat 12 (half l 14)) else none

/-- Bytes of a frame that a C-tag takes. -/
def tagLen (l : List Byte) : Nat := if half l 12 = 0x8100 then 4 else 0

/-- The EtherType of a frame behind its tag. -/
def etherType (l : List Byte) : Nat := half l (12 + tagLen l)

/-- A MAC Control PAUSE frame (R348). -/
def pauseFrame (l : List Byte) : Bool := etherType l == 0x8808 && half l (14 + tagLen l) == 1

/-- A PTP message in a frame: its offset, whether it lies in UDP over IPv4, its type, domain and sequenceId. -/
structure PtpAt where
  off : Nat
  udp : Bool
  typ : Nat
  domain : BitVec 8
  seqId : BitVec 16
  deriving DecidableEq, Repr

/-- The PTP message that a frame carries. -/
def ptpOf (l : List Byte) : Option PtpAt :=
  let t := tagLen l
  let mk := fun (o : Nat) (u : Bool) => some
    { off := o, udp := u, typ := byteAt l o % 16, domain := BitVec.ofNat 8 (byteAt l (o + 4)), seqId := BitVec.ofNat 16 (half l (o + 30)) }
  if half l (12 + t) = 0x88F7 then mk (14 + t) false
  else if half l (12 + t) = 0x0800 ∧ byteAt l (23 + t) = 17 ∧ (half l (36 + t) = 319 ∨ half l (36 + t) = 320) then mk (42 + t) true
  else none

/-- An event message: Sync, Delay_Req, Pdelay_Req or Pdelay_Resp (R351, R353). -/
def PtpAt.event (m : PtpAt) : Bool := decide (m.typ < 4)

/-- A peer delay message: Pdelay_Req, Pdelay_Resp or Pdelay_Resp_Follow_Up (R359). -/
def PtpAt.peer (m : PtpAt) : Bool := m.typ == 2 || m.typ == 3 || m.typ == 0xA

/-- The timestamp field of a message, in units of 2^-32 ns. -/
def stampAt (l : List Byte) (m : PtpAt) : Int := ((fieldAt l (m.off + 34) 6 * 1000000000 + fieldAt l (m.off + 40) 4) * 2 ^ 32 : Nat)

/-- The correctionField of a message, in units of 2^-32 ns. -/
def corrAt (l : List Byte) (m : PtpAt) : Int := signed 64 (fieldAt l (m.off + 8) 8) * 65536

/-- The sourcePortIdentity of a message, and the requestingPortIdentity of a response. -/
def sourceAt (l : List Byte) (m : PtpAt) : Nat := fieldAt l (m.off + 20) 10
def requesterAt (l : List Byte) (m : PtpAt) : Nat := fieldAt l (m.off + 44) 10

/-- The twoStepFlag of a message. -/
def twoStep (l : List Byte) (m : PtpAt) : Bool := nbit (byteAt l (m.off + 6)) 1

/-! ### Changing a message -/

/-- Bytes with n bytes from offset o replaced by the low bytes of v, most significant first. -/
def putField (l : List Byte) (o n v : Nat) : List Byte :=
  l.take o ++ (List.range n).map (fun i => BitVec.ofNat 8 (v / 2 ^ (8 * (n - 1 - i)))) ++ l.drop (o + n)

/-- The one's-complement checksum after n 16-bit fields from offset o have changed. -/
def checksumFix (old new : List Byte) (o n sum : Nat) : Nat :=
  let go := (List.range n).foldl (fun c i => c + (65535 - half old (o + 2 * i)) + half new (o + 2 * i)) (65535 - sum)
  let c := go % 65536 + go / 65536
  65535 - (c % 65536 + c / 65536)

/-- A message with 2·n bytes from offset o replaced, its UDP checksum kept where it has one (R359). -/
def putChecked (l : List Byte) (m : PtpAt) (o n v : Nat) : List Byte :=
  let l' := putField l o (2 * n) v
  if m.udp ∧ half l (m.off - 2) ≠ 0 then putField l' (m.off - 2) 2 (checksumFix l l' o n (half l (m.off - 2))) else l'

/-- `v` added to the correctionField of a PTP message, in 2^-16 ns (R359). -/
def addCorrection (l : List Byte) (m : PtpAt) (v : Int) : List Byte :=
  putChecked l m (m.off + 8) 4 (lowBits 64 (fieldAt l (m.off + 8) 8 + v))

/-- The originTimestamp of a message set (R360). -/
def setOrigin (l : List Byte) (m : PtpAt) (sec ns : Nat) : List Byte := putChecked l m (m.off + 34) 5 (sec * 2 ^ 32 + ns)

/-! ### Messages of the device (R353, R360) -/

/-- The C-tag of PTP frames under PTP_TAG (R349, R361). -/
def EthPort.tag (e : EthPort) : List Byte :=
  if e.ptpTag then putField [] 0 2 0x8100 ++ putField [] 0 2 (e.ptpPcp * 8192 + e.ptpVid) else []

/-- The frame of a PTP message that the device sends on port p: 802.3, to the peer delay address or to that of the other messages,
or UDP (R353, R361). -/
def Dev.ptpFrame (d : Dev) (p : Nat) (udp peer : Bool) (msg : List Byte) : List Byte :=
  let tag := (d.portOf p).tag
  if udp then
    let h := Config.udpHeader p msg
    h.take 12 ++ tag ++ h.drop 12 ++ msg
  else putField [] 0 6 (if peer then 0x0180C200000E else 0x011B19000000) ++ putField [] 0 6 (Config.macAddress p).toNat ++ tag ++
    putField [] 0 2 0x88F7 ++ msg

/-- The body of a timestamp in units of 2^-32 ns. -/
def stampBytes (t : Nat) : List Byte :=
  putField [] 0 6 (t / 2 ^ 32 / 1000000000) ++ putField [] 0 4 (t / 2 ^ 32 % 1000000000)

/-- A Pdelay_Resp or Pdelay_Resp_Follow_Up to the request or response `b` whose message is `m`: its type, flags and
correctionField, and a timestamp in units of 2^-32 ns (R353, R359, R360). -/
def pdelayMessage (p typ flags : Nat) (corr : Int) (stamp : Nat) (b : List Byte) (m : PtpAt) (requester : List Byte) : List Byte :=
  let h := putField (putField [] 0 1 (byteAt b m.off / 16 * 16 + typ)) 1 1 (byteAt b (m.off + 1)) ++ putField [] 0 2 54 ++
    putField [] 0 1 m.domain.toNat ++ putField [] 0 1 0 ++ putField [] 0 2 flags ++ putField [] 0 8 (lowBits 64 corr) ++ putField [] 0 4 0
  h ++ putField [] 0 10 (Config.portIdentity p).toNat ++ putField [] 0 2 m.seqId.toNat ++ putField [] 0 2 0x057F ++
    stampBytes stamp ++ requester

/-- A Delay_Req (type 1) or Pdelay_Req (type 2) with an originTimestamp in units of 2^-32 ns (R353, R360). -/
def requestMessage (p typ dom : Nat) (seq : BitVec 16) (t : Nat) : List Byte :=
  putField [] 0 2 (typ * 256 + 0x12) ++ putField [] 0 2 (if typ = 1 then 44 else 54) ++ putField [] 0 2 (dom * 256) ++
    List.replicate 14 0 ++ putField [] 0 10 (Config.portIdentity p).toNat ++ putField [] 0 2 seq.toNat ++
    putField [] 0 2 (if typ = 1 then 0x017F else 0x057F) ++ stampBytes t ++ (if typ = 1 then [] else List.replicate 10 0)

/-! ### The master of a domain (R354) -/

/-- The comparison of the best master clock algorithm as one number: priority1, clockQuality, priority2, grandmasterIdentity and
stepsRemoved of an Announce, then its sender. -/
def announceRank (l : List Byte) (m : PtpAt) : Nat := fieldAt l (m.off + 47) 16 * 2 ^ 80 + sourceAt l m

/-- The interval that a message states, in core cycles. -/
def intervalOf (l : List Byte) (m : PtpAt) : Nat :=
  let e := clampI (-8) 8 (signed 8 (byteAt l (m.off + 33)))
  if 0 ≤ e then 1250000000 * 2 ^ e.toNat else 1250000000 / 2 ^ (-e).toNat

/-- A master takes part: two Announces within four intervals, the last at most three intervals old, and fewer than 255 steps
removed. -/
def Foreign.alive (f : Foreign) (now : Nat) : Bool :=
  (match f.before with | some b => decide (f.last ≤ b + 4 * f.interval) | none => false) &&
  decide (now ≤ f.last + 3 * f.interval) && decide (f.rank / 2 ^ 80 % 65536 < 255)

/-- The best master of a domain. -/
def Servo.master (s : Servo) (now : Nat) : Option Foreign :=
  (s.masters.filter (fun f => f.alive now)).foldl (fun b f =>
    match b with
    | none => some f
    | some x => if f.rank < x.rank then some f else some x) none

/-- An Announce is noted. -/
def Servo.announce (s : Servo) (now p : Nat) (l : List Byte) (m : PtpAt) : Servo :=
  let was := s.masters.find? (fun f => f.source == sourceAt l m && f.port == p)
  { s with masters := { source := sourceAt l m, port := p, rank := announceRank l m, last := now, before := was.map (·.last)
                        interval := intervalOf l m } ::
                      s.masters.filter (fun f => !(f.source == sourceAt l m && f.port == p)) }

end Sys2Proof.Machine
end

