-- ==== Sys2Proof/Machine/TrimDrv.lean ====
section
/-!
DEFINITION. Trim channels: the PWM generator and its masks (R142 to R149, R154) and the gate driver
(R202 to R210).
-/

namespace Sys2Proof.Machine

/-! ### Generator -/

/-- Counter of the generator: core cycles since its period started, 0 while EN is clear (R142). The events of the period's
and of the duty's end come at their counts. -/
def Trim.count (t : Trim) (now : Nat) : Nat := if t.en then now - t.start else 0

/-- DUTY is at or above PERIOD (R142); `duty` is in delay-line taps. -/
def Trim.full (t : Trim) : Bool := decide (64 * t.period ≤ t.duty)

/-- A period starts: the output goes high unless DUTY is 0, and DUTY_FULL records a full one (R142). -/
def Trim.startPeriod (t : Trim) (now : Nat) : Trim :=
  { t with start := now, out := t.en && decide (t.duty ≠ 0), dutyFull := t.dutyFull || (t.en && t.full) }

/-- A PERIOD value the generator accepts (R143). -/
def periodOk (p : Nat) : Bool := decide (2 ≤ p) && decide (p ≤ 16777216)

/-- PERIOD, DUTY or both land at once in the running period (R143, R144). -/
def Trim.writePair (t : Trim) (now : Nat) (p d : Option Nat) : Trim :=
  let t1 := match p with
    | some v => if periodOk v then { t with period := v } else { t with wrReject := true }
    | none => t
  let t2 := match d with
    | some v => { t1 with duty := v }
    | none => t1
  let n := t.count now
  let t2 := { t2 with dutyFull := t2.dutyFull || (t.en && t2.full) }
  if t.en && (match p with | some v => periodOk v && decide (v ≤ n + 1) | none => false) then
    { t2.startPeriod (now + 1) with periodCut := true }
  else if d.isSome && t2.out then
    { t2 with out := decide (64 * n < t2.duty) }
  else t2

/-! ### Driver -/

/-- The command to each switch, high side first (R142, R148): the mask in force, or the generator. -/
def Trim.command (t : Trim) : Bool × Bool :=
  if !t.en then (false, false)
  else if t.maskAct = 0 then (t.out, !t.out)
  else if t.maskAct = 1 then (false, true)
  else if t.maskAct = 2 then (true, false)
  else (false, false)

/-- The driver follows its commands at core cycle `now`, under R29, R203, R206, R207 and R208. `live` says that the member
owns its trims and no cut holds the channel. A gate that turns on is driven from DT_MIN after the turn-off command of the
opposite switch, or at once where that has passed. DESIGN CHOICE (note 197): only the commands of the generator and the mask count
as commanded edges and on-intervals, no pulse of the pre-charge, and only while READY passes them does one turn a switch off. -/
def Trim.drive (t : Trim) (live : Bool) (now : Nat) : Trim :=
  let h := t.command.1
  let l := t.command.2
  let rise := (h && !t.cmdH) || (l && !t.cmdL)
  let endSame := decide (t.onAt ≤ now) && ((t.gateH && !h && t.tripHs) || (t.gateL && !l && !t.tripHs))
  let latched := t.latched && !(live && rise)
  let started := decide (t.onAt ≤ now)
  let pass := live && t.ready && !t.lockout && !latched
  let gh := pass && h && !t.bstUv && (t.gateH || !t.vgsL)
  let gl := pass && l && (t.gateL || !t.vgsH)
  let offH := if (t.ready || t.gateH) && t.cmdH && !h then now + 1 else t.offH
  let offL := if (t.ready || t.gateL) && t.cmdL && !l then now + 1 else t.offL
  let from_ := fun (off : Nat) => if off = 0 then now else max now (off - 1 + t.drv.dtMin)
  { t with
    cmdH := h, cmdL := l, latched := latched, gateH := gh, gateL := gl
    preFrom := if t.latched && !latched then max t.preFrom now else t.preFrom
    vgsH := t.vgsH || gh, vgsL := t.vgsL || gl, offH := offH, offL := offL
    onAt := if gh && !t.gateH then from_ offL else if gl && !t.gateL then from_ offH
      else if started || gh || gl then t.onAt else t.onWas
    onWas := if started then t.onAt else t.onWas
    tripLatch := latched && t.tripLatch
    retrip := if endSame then 0 else t.retrip }

/-- The gates as driven now, high side first: a turn-on waits for its dead time (R203). -/
def Trim.gates (t : Trim) (now : Nat) : Bool × Bool :=
  (t.gateH && decide (t.onAt ≤ now), (t.gateL && decide (t.onAt ≤ now)) || t.prePulse now)

/-- The time is within BLANK of a turn-on at an instant. -/
def Trim.blankOf (t : Trim) (now on_ : Nat) : Bool := decide (0 < on_) && decide (on_ ≤ now) && decide (now < on_ + 10 * t.drv.blank)

/-- The time is within BLANK of a turn-on of either switch, a pulse of the pre-charge among them, timed from the instant at
which its gate is driven (R204). -/
def Trim.inBlank (t : Trim) (now : Nat) : Bool :=
  t.blankOf now t.onAt || t.blankOf now t.onWas || (t.preDriven now).any (t.blankOf now)

/-- A DIDT voltage in mV crosses the threshold in force (R204). -/
def Trim.crosses (t : Trim) (now : Nat) (didt : BitVec 16) : Bool :=
  decide (100 * (if t.inBlank now then t.drv.didtThBl else t.drv.didtTh) ≤ didt.toNat)

/-- The driver of channel n is not held by a cut or by missing ownership (R190, R209). -/
def Dev.trimLive (d : Dev) (n : Nat) : Bool := d.cut.trimOwn && !d.trimCut n

/-- Channel n changed by f, then its driver follows. -/
def Dev.modDrive (d : Dev) (n : Nat) (f : Trim → Trim) : Dev :=
  d.modTrim n (fun t => (f t).drive (d.trimLive n) d.now)

/-- Pre-charge starts: its first pulse comes at once, or once DT_MIN has passed since the high side's turn-off command (R203,
R208). -/
def Trim.startPre (t : Trim) (now : Nat) : Trim :=
  { t with prechg := true, preAt := now, preFrom := if t.offH = 0 then now else max now (t.offH - 1 + t.drv.dtMin)
           preWait := false, readyDue := false }

/-- EN lands, or the driver proceeds as at EN (R208, R209): pre-charge with BST_UV set, READY at once
without, and a wait under a cut, or in lock-out with BST_UV set (R206). DESIGN CHOICE (note 198): BOOT_FAIL clears here. -/
def Trim.enable (t : Trim) (cut : Bool) (now : Nat) : Trim :=
  let t := t.endPre now
  if cut || (t.lockout && t.bstUv) then { t with preWait := true }
  else if t.bstUv then { t.startPre now with ready := false, bootFail := false }
  else { t with ready := true, prechg := false, preWait := false, readyDue := false, bootFail := false }

/-- EN cleared: READY clears and both gates are held off (R208, R142). -/
def Trim.disable (t : Trim) (now : Nat) : Trim :=
  { t.endPre now with en := false, out := false, ready := false, readyDue := false, preWait := false }

/-- EN takes a value at a boundary (R147, R208). -/
def Dev.setEn (d : Dev) (n : Nat) (en : Bool) : Dev :=
  let t := d.trimOf n
  if en && !t.en then
    d.modDrive n (fun t =>
      let t := ({ t with en := true }).startPeriod d.now
      if d.cut.trimOwn then t.enable (d.trimCut n) d.now else t)
  else if !en && t.en then d.modDrive n (fun t => t.disable d.now)
  else d

/-! ### Ownership and masks -/

/-- The island's demand word of a channel as the main logic read it last (R268). -/
def Dev.demandOf (d : Dev) (n : Nat) : Nat := tblGet 0 d.isl.demandsRead n

/-- The warp table writes PERIOD and DUTY: OWNER set, or ZERO or CLAMP in force (R145). -/
def Dev.warpOwns (d : Dev) (n : Nat) : Bool :=
  (d.trimOf n).owner || nbit (d.demandOf n) 31 || nbit (d.demandOf n) 30

/-- MASK_NEXT staged for MASK_EVT, replacing a pending one, which an event of this core cycle still applies (R147, R149). -/
def Trim.stageMask (t : Trim) (next evt now : Nat) : Trim :=
  { t with
    maskPending := true, pendMask := next % 4, pendEvt := evt % 4, pendAt := now + 1
    pendWas := if t.pendAt = now + 1 then t.pendWas else if t.maskPending then some (t.pendMask, t.pendEvt) else none }

/-- The mask that an event of a core cycle applies, with its event: the one staged before that cycle (R149). -/
def Trim.maskFor (t : Trim) (cyc : Nat) : Option (Nat × Nat) :=
  if t.pendAt = cyc + 1 then t.pendWas else if t.maskPending then some (t.pendMask, t.pendEvt) else none

/-- A mask waits for an event in a core cycle. -/
def Trim.waitsFor (t : Trim) (evt cyc : Nat) : Bool := (t.maskFor cyc).any (fun m => m.2 == evt)

/-- The mask that waits for an event is applied at it; one staged in the same core cycle waits on (R148, R149). -/
def Trim.applyMask (t : Trim) (evt cyc : Nat) : Trim :=
  match t.maskFor cyc with
  | some m =>
    if m.2 ≠ evt then t
    else if t.pendAt = cyc + 1 then { t with maskAct := m.1, pendWas := none }
    else { t with maskAct := m.1, maskPending := false }
  | none => t

/-- The event that the pending mask of a channel waits for, and the device as its clock reaches it (R148): the boundary that has
just come, or the zero crossing of this tick, where there is one to come. An edge on an event pin comes as TRIM_EVT. A mask staged
in the core cycle of an event waits for the next one (R149). -/
def Dev.maskEvent (d : Dev) (t : Trim) : Option (Nat × Dev) :=
  let z := tblGet 0 d.tk.zcNow t.zcArm
  if d.tk.seqRun && decide (d.now = d.tk.tickStart) && t.waitsFor 0 d.now then some (0, d)
  else if decide (z ≠ 0) && decide (64 * d.now ≤ z - 1) && t.waitsFor 1 ((z - 1) / 64) then some (1, d.advanceUntil ((z - 1) / 64))
  else none

/-- Both commands of a driver as they stand after they rose together. -/
def Trim.bothUp (t : Trim) : Trim := { t with cmdH := true, cmdL := true }

/-- Both commands of a driver rise in one core cycle, by a fault in the command path (R203): with both switches off, neither
turns on, and the fault latches until the next edge of a command (R206); during a trip the trip governs (R212). A command that
stands already does not rise: the driver follows the mask alone. -/
def Dev.bothRise (d : Dev) (n : Nat) : Dev :=
  let t := d.trimOf n
  if t.cmdH || t.cmdL || t.gateH || t.gateL then d.modDrive n id
  else if t.tripLatch then d.modTrim n Trim.bothUp
  else (d.modTrim n (fun t => { t.bothUp with bothOn := true, latched := true, latchAt := if t.latched then t.latchAt else d.now + 1 })).event 0x049 (word n)

/-- MASK_APPLY: the pending mask of a channel meets its event. Whether the command path raises both commands with it is a
hardware fault that the command brings (note 63). -/
def execMaskApply (e : MaskEvent) (s : State) : Host.Outcome State Fault Refusal :=
  onMain (fun d =>
    match d.maskEvent (d.trimOf e.gen.val) with
    | none => d
    | some (evt, d) =>
      if e.bothOn then (d.modTrim e.gen.val (fun t => t.applyMask evt d.now)).bothRise e.gen.val
      else d.modDrive e.gen.val (fun t => t.applyMask evt d.now)) s

/-- The instant at which the reference of an arm crosses zero in the coming tick, in units of 12.5 ps and plus 1; 0 where it
does not (R148). DESIGN CHOICE (note 193): a reference that is zero at one end has no sign there, and so no crossing. -/
def Dev.zeroCross (d : Dev) (arm : Nat) : Nat :=
  let a := sval (memWord d.weft (Config.armReference arm false))
  let b := sval (memWord d.weft (Config.armReference arm true))
  if a < 0 ∧ 0 < b ∨ 0 < a ∧ b < 0 then
    64 * (d.tk.tickStart + d.tickCycles) + 64 * d.tickCycles * a.natAbs / (a.natAbs + b.natAbs) + 1
  else 0

/-- The deliver phase places the zero crossings of the coming tick (R148). -/
def Dev.placeCrossings (d : Dev) : Dev :=
  { d with tk := { d.tk with zcNext := (List.range 16).foldl (fun t a => tblSet 0 t a (d.zeroCross a)) [] } }

/-- TRIM_EVT: an edge on an event pin applies the masks that wait for it (R148). -/
def execTrimEvt (pin : Fin 4) (falling : Bool) (s : State) : Host.Outcome State Fault Refusal :=
  onMain (forEach (List.range 32) (fun n d =>
    let t := d.trimOf n
    if t.waitsFor 2 d.now && decide (t.evtPin = pin.val) && (t.evtEdge == falling) then
      d.modDrive n (fun t => t.applyMask 2 d.now)
    else d)) s

/-! ### Generator and driver events -/

/-- TRIM_PERIOD_END: the counter has reached PERIOD and restarts at 0 (R142). -/
def execTrimPeriodEnd (n : Fin 32) (s : State) : Host.Outcome State Fault Refusal :=
  onMain (fun d =>
    let t := d.trimOf n.val
    if t.en then
      let d := d.advanceUntil (t.start + t.period)
      d.modDrive n.val (fun t => t.startPeriod (d.now - (d.now - t.start) % t.period))
    else d) s

/-- TRIM_DUTY_END: the counter has reached DUTY and the output goes low, unless DUTY fills the period (R142). -/
def execTrimDutyEnd (n : Fin 32) (s : State) : Host.Outcome State Fault Refusal :=
  onMain (fun d =>
    let t := d.trimOf n.val
    if t.en && t.out && !t.full then
      (d.advanceUntil (t.start + (t.duty + 63) / 64)).modDrive n.val (fun t => { t with out := false })
    else d) s

/-- The low gate falls below VGS_TH, unless it is driven (R203). -/
def Trim.lowFalls (t : Trim) (now : Nat) : Trim :=
  if t.gateL || t.prePulse now then t else { t with vgsL := false, lowFell := now + 1 }

/-- The high gate falls below VGS_TH, unless it is driven; a pulse of the pre-charge that waited for it may come (R203). -/
def Trim.highFalls (t : Trim) (now : Nat) : Trim :=
  if t.gateH then t else { t with vgsH := false, preFrom := if t.vgsH then max t.preFrom now else t.preFrom }

/-- OPPOSITE_GATE_FALL: the gate opposite to the waiting switch is below VGS_TH, so that switch turns on
(R203). -/
def execOppositeGateFall (n : Fin 32) (high : Bool) (s : State) : Host.Outcome State Fault Refusal :=
  onMain (fun d => d.modDrive n.val (fun t =>
    if high then t.lowFalls d.now else t.highFalls d.now)) s

/-- A short trip as the driver takes it (R204, R206): gates off, fault latched, and lock-out on the 4th
consecutive trip. TRIP_HS stays where neither switch is on. DESIGN CHOICE (note 196): RETRIP_CNT, of two bits, stays at 3. -/
def Trim.trip (t : Trim) (now : Nat) : Trim :=
  { t.notePre now with
    gateH := false, gateL := false, latched := true, tripLatch := true
    latchAt := if t.latched then t.latchAt else now + 1
    offL := if t.prePulse now then now + 1 else t.offL, vgsL := t.vgsL || t.prePulse now
    tripHs := if (t.gates now).1 then true else if (t.gates now).2 then false else t.tripHs
    tripBlank := t.inBlank now
    tripCnt := satInc 16 t.tripCnt
    lockout := t.lockout || decide (3 ≤ t.retrip)
    retrip := min 3 (t.retrip + 1) }

/-- The channels of a list of trips that lock out by it. -/
def Dev.lockouts (d : Dev) (ts : List Trip) : List Nat :=
  (List.range 32).filter (fun n => ts.any (fun t => t.chan.val == n) && !(d.trimOf n).lockout && decide (3 ≤ (d.trimOf n).retrip))

/-- The trip of the lowest channel among trips of one core cycle. -/
def lowestTrip (t : Trip) (ts : List Trip) : Trip :=
  ts.foldl (fun a b => if b.chan.val < a.chan.val then b else a) t

/-- SHORT_TRIP: crossings of one core cycle (R204 to R206); two or more fire TRIM_DUAL (R188, R205), two core cycles after
the trips as the example of R257 has it. A voltage below the threshold in force is no trip. -/
def execShortTrip (first : Trip) (others : List Trip) (s : State) : Host.Outcome State Fault Refusal :=
  onMain (fun d =>
    match (first :: others.filter (fun t => t.chan != first.chan)).filter (fun t => (d.trimOf t.chan.val).crosses d.now t.didt) with
    | [] => d
    | t :: more =>
      let ts := t :: more
      let low := lowestTrip t ts
      let d1 := ts.foldl (fun d t => d.modTrim t.chan.val (fun x => x.trip d.now)) d
      let x := d1.trimOf low.chan.val
      let ev1 := [(0x048, pack [(9, b1 x.tripHs), (8, b1 x.tripBlank), (0, low.chan.val)])]
      let ev2 := match d.lockouts ts with
        | [] => []
        | n :: _ => [(0x04B, word n)]
      let d2 := d1.events (ev1 ++ ev2)
      if more.isEmpty then d2
      else
        let d3 := { d2 with cut := { d2.cut with dualTrip := true } }
        (d3.advance 2).fire 2 low.chan.val (d3.matrixRow 256)) s

/-- A switch waits for the opposite gate, whose turn-off command has been given (R203). -/
def Trim.waits (t : Trim) (high : Bool) : Bool :=
  t.ready && if high then t.cmdH && !t.gateH && !t.gateL && t.vgsL && decide (t.offL ≠ 0)
  else t.cmdL && !t.gateL && !t.gateH && t.vgsH && decide (t.offH ≠ 0)

/-- STUCK: 2.0 µs after its turn-off command the opposite gate has not fallen; the waiting switch never turns on (R203). -/
def execStuck (n : Fin 32) (highWaiting : Bool) (s : State) : Host.Outcome State Fault Refusal :=
  onMain (fun d =>
    let t := d.trimOf n.val
    if t.waits highWaiting then
      let d := d.advanceUntil ((if highWaiting then t.offL else t.offH) + 2499)
      let d := d.modTrim n.val (fun t => { t with stuck := true, latched := true, tripLatch := false, gateH := false, gateL := false })
      d.event 0x04A (pack [(8, b1 highWaiting), (0, n.val)])
    else d) s

/-- A bootstrap below its threshold locks its driver out (R207). -/
def Dev.bstLow (d : Dev) (n : Nat) : Dev :=
  d.modDrive n (fun t => { t with bstUv := true, uvCnt := satInc 16 t.uvCnt })

/-- BST_UV (R207). -/
def execBstUv (n : Fin 32) (s : State) : Host.Outcome State Fault Refusal :=
  onMain (fun d => if (d.trimOf n.val).bstUv then d else (d.bstLow n.val).event 0x04C (word n.val)) s

/-- The lockout of a bootstrap ends (R207). DESIGN CHOICE (note 169): the release tells that VDRV is back where it had fallen, and
the driver's pre-charge, in which the release falls, counts from it (R208, R453). -/
def Trim.bstBack (t : Trim) (own cut : Bool) (now : Nat) : Trim :=
  let pre := t.vdrvOut && t.en && own && !t.prechg
  let t := { t with bstUv := false, vdrvOut := false }
  if !pre then t
  else if cut || t.lockout then { t with preWait := true }
  else { t.startPre now with bootFail := false }

/-- BST_UV_RELEASE: the lockout ends (R207). -/
def execBstUvRelease (n : Fin 32) (s : State) : Host.Outcome State Fault Refusal :=
  onMain (fun d => d.modDrive n.val (fun t => t.bstBack d.cut.trimOwn (d.trimCut n.val) d.now)) s

/-- VDRV falls under channel n: its bootstrap locks out, and its gates go off until it has pre-charged again (R453). -/
def Dev.vdrvLow (d : Dev) (n : Nat) : Dev :=
  d.modDrive n (fun t =>
    { t.endPre d.now with ready := false, readyDue := false, preWait := false, vdrvOut := true, bstUv := true,
                          uvCnt := if t.bstUv then t.uvCnt else satInc 16 t.uvCnt })

/-- PRECHARGE_END: the last gap, of PRE_N pulses, has ended; READY is due at the next boundary, or BOOT_FAIL (R208). -/
def execPrechargeEnd (n : Fin 32) (s : State) : Host.Outcome State Fault Refusal :=
  onMain (fun d =>
    let t := d.trimOf n.val
    let d := d.advanceUntil (if t.prechg then t.preAt + 2 * t.drv.preN * t.preWidth else 0)
    if !t.prechg then d
    else if t.bstUv then
      (d.modDrive n.val (fun t => { t.endPre d.now with bootFail := true })).event 0x04D (word n.val)
    else d.modTrim n.val (fun t => { t.endPre d.now with readyDue := true })) s

/-! ### Ownership in a ply -/

/-- Every driver proceeds as at EN when ownership is taken (R209). -/
def Dev.takeTrims (d : Dev) : Dev :=
  let d := { d with cut := { d.cut with trimOwn := true, ownWait := 0 } }
  forEach (List.range 32) (fun n d =>
    d.modDrive n (fun t => if t.en then t.enable (d.trimCut n) d.now else t)) d

/-- Ownership released: both gates off (R209). -/
def Dev.dropTrims (d : Dev) : Dev :=
  let d := { d with cut := { d.cut with trimOwn := false } }
  forEach (List.range 32) (fun n d =>
    d.modDrive n (fun t => { t.endPre d.now with ready := false, readyDue := false, preWait := false })) d

/-- TRIM_OWNERSHIP_TAKE: the first boundary at which the active sees PLY_TRIM_OWN_IN low (R209). -/
def execTrimOwnershipTake (s : State) : Host.Outcome State Fault Refusal :=
  onMain (fun d =>
    if d.isMember && d.ply.pstate == .active && !d.cut.trimOwn && !d.cut.ownIn then d.takeTrims else d) s

/-- OWNERSHIP_WAIT: PLY_TRIM_OWN_IN is still high, and has been at 16 boundaries or more since the claim (R209). -/
def execOwnershipWait (s : State) : Host.Outcome State Fault Refusal :=
  onMain (fun d =>
    if d.isMember && d.ply.pstate == .active && !d.cut.trimOwn && d.cut.ownIn && decide (16 ≤ d.cut.ownWait) then
      d.event 0x04E (word d.cut.ownWait)
    else d) s

/-! ### Records -/

/-- The four words of a generator's record (R147). -/
def Trim.genWords (t : Trim) : List Word :=
  [ pack [(0, t.period)], pack [(0, t.duty)],
    pack [(15, b1 t.owner), (14, b1 t.evtEdge), (12, t.evtPin), (8, t.zcArm), (5, t.maskEvt),
          (3, t.maskNext), (1, b1 t.tickAlign), (0, b1 t.en)],
    pack [(7, b1 t.wrReject), (6, b1 t.periodCut), (5, b1 t.dutyFull), (4, b1 t.maskPending), (0, t.maskAct)] ]

/-- The at-once fields of generator word 2 (R147). -/
def Trim.writeWord2 (t : Trim) (w : Word) (now : Nat) : Trim :=
  let t := { t with evtEdge := bit w 14, evtPin := bits w 13 12, zcArm := bits w 11 8,
                    maskEvt := bits w 6 5, maskNext := bits w 4 3 }
  if bit w 7 then t.stageMask (bits w 4 3) (bits w 6 5) now else t

/-- The write-1-to-clear bits of generator word 3 (R147). What the same write brings sets them again, DUTY_FULL also where its cause
stands (R12). -/
def Trim.clearWord3 (t : Trim) (w : Word) : Trim :=
  { t with wrReject := t.wrReject && !bit w 7, periodCut := t.periodCut && !bit w 6,
           dutyFull := t.dutyFull && !bit w 5 }

/-- TRIM (R147, R424): reads, or writes that land as each field states. -/
def bodyTrim : Body := fun r d =>
  match recForm r 32 4 with
  | none => d.say (.badArg 2)
  | some f =>
    let n := f.index
    let pair := f.first = 0 ∨ (f.wordFor 1).isSome
    let w2 := f.wordFor 2
    if !r.write then d.say (f.readReply r (d.trimOf n).genWords)
    else if pair ∧ d.warpOwns n then d.say .wrongState
    else if (w2.map (fun w => bit w 7 && decide (bits w 6 5 = 3))).getD false then d.say (.badArg (f.argOf 2))
    else
      let d := d.modTrim n (fun t => match f.wordFor 3 with | some w => t.clearWord3 w | none => t)
      let d := d.modDrive n (fun t =>
        t.writePair d.now ((f.wordFor 0).map (fun w => bits w 24 0)) ((f.wordFor 1).map (fun w => bits w 30 0)))
      let d := match w2 with | some w => d.modTrim n (fun t => t.writeWord2 w d.now) | none => d
      match w2 with
      | some w => d.doneAtTick r (.trimEnAlign n w)
      | none => d.doneNow

/-- TRIM command. -/
def execTrim (r : Req) (s : State) : Host.Outcome State Fault Refusal :=
  onMain (iapin 0x0208 readsRec bodyTrim r) s

/-- EN and TICK_ALIGN land (R147). -/
def landTrim (n : Nat) (w : Word) (d : Dev) : Dev :=
  (d.modTrim n (fun t => { t with tickAlign := bit w 1 })).setEn n (bit w 0)

/-- TRIM_PAIR (R144). -/
def bodyTrimPair : Body := fun r d =>
  let n := bits (arg r 2) 4 0
  if d.warpOwns n then d.say .wrongState
  else (d.modDrive n (fun t => t.writePair d.now (some (arg r 3).toNat) (some (bits (arg r 4) 30 0)))).doneNow

/-- TRIM_PAIR command. -/
def execTrimPair (r : Req) (s : State) : Host.Outcome State Fault Refusal :=
  onMain (iapin 0x0209 writes bodyTrimPair r) s

/-- TRIM_STAGE (R145). -/
def bodyTrimStage : Body := fun r d =>
  let set : TrimSet := { owner := bit (arg r 3) 0, period := (arg r 4).toNat, duty := bits (arg r 5) 30 0,
                         tickAlign := bit (arg r 6) 1, en := bit (arg r 6) 0 }
  (d.modTrim (bits (arg r 2) 4 0) (fun t => { t with staged := some set })).doneStaged

/-- TRIM_STAGE command. -/
def execTrimStage (r : Req) (s : State) : Host.Outcome State Fault Refusal :=
  onMain (iapin 0x020A writes bodyTrimStage r) s

/-- The four words of a driver's record (R210). -/
def Trim.drvWords (t : Trim) : List Word :=
  [ pack [(28, t.drv.vgsTh), (24, t.drv.srcStr), (21, t.drv.snkStr), (12, t.drv.dtMin), (6, t.drv.blank)],
    pack [(27, t.drv.didtTh), (22, t.drv.didtThBl), (16, t.drv.preN), (8, t.drv.preW)],
    pack [(31, b1 t.ready), (30, b1 t.prechg), (29, b1 t.lockout), (28, b1 t.latched), (27, b1 t.tripHs),
          (26, b1 t.tripBlank), (25, b1 t.bothOn), (24, b1 t.stuck), (23, b1 t.bstUv), (22, b1 t.bootFail),
          (20, t.retrip)],
    pack [(16, t.tripCnt), (0, t.uvCnt)] ]

/-- Driver settings with the carried words in place (R210). -/
def DrvSet.write (s : DrvSet) (f : RecForm) : DrvSet :=
  let s := match f.wordFor 0 with
    | some w => { s with vgsTh := bits w 31 28, srcStr := bits w 26 24, snkStr := bits w 23 21,
                         dtMin := bits w 20 12, blank := bits w 11 6 }
    | none => s
  match f.wordFor 1 with
  | some w => { s with didtTh := bits w 31 27, didtThBl := bits w 26 22, preN := bits w 21 16, preW := bits w 15 8 }
  | none => s

/-- The record word of driver settings that is out of range, if one is (R210). -/
def DrvSet.bad (s : DrvSet) : Option Nat :=
  if s.vgsTh = 15 ∨ s.dtMin < 8 ∨ s.blank = 0 then some 0
  else if s.didtTh = 0 ∨ s.didtThBl < s.didtTh ∨ s.preN = 0 ∨ s.preW = 0 then some 1
  else none

/-- The write-1-to-clear bits of driver word 2 (R210). -/
def Trim.clearDrv (t : Trim) (w : Word) : Trim :=
  { t with bothOn := t.bothOn && !bit w 25, stuck := t.stuck && !bit w 24 }

/-- TRIM_DRIVER (R210): settings are staged for TRIM; flags clear at once. -/
def bodyTrimDriver : Body := fun r d =>
  match recForm r 32 4 with
  | none => d.say (.badArg 2)
  | some f =>
    let n := f.index
    let t := d.trimOf n
    if !r.write then d.say (f.readReply r t.drvWords)
    else
      let set := (t.stagedDrv.getD t.drv).write f
      match if f.first ≤ 1 then set.bad else none with
      | some i => d.say (.badArg (if f.first ≤ i then f.argOf i else 3))
      | none =>
        let d := d.modTrim n (fun t => match f.wordFor 2 with | some w => t.clearDrv w | none => t)
        if f.first ≤ 1 then (d.modTrim n (fun t => { t with stagedDrv := some set })).doneStaged else d.doneNow

/-- TRIM_DRIVER command. -/
def execTrimDriver (r : Req) (s : State) : Host.Outcome State Fault Refusal :=
  onMain (iapin 0x020B readsRec bodyTrimDriver r) s

/-- LOCKOUT_CLEAR (R206): only while no group that targets the channel is cut. -/
def bodyLockoutClear : Body := fun r d =>
  let n := bits (arg r 2) 4 0
  if d.trimCut n then d.say .wrongState else d.doneAtTick r (.lockoutClear n)

/-- LOCKOUT_CLEAR command. -/
def execLockoutClear (r : Req) (s : State) : Host.Outcome State Fault Refusal :=
  onMain (iapin 0x020C writes bodyLockoutClear r) s

/-- A lock-out clear lands (R206): RETRIP_CNT returns to 0, and pre-charge runs if BST_UV is set. -/
def landLockoutClear (n : Nat) (d : Dev) : Dev :=
  d.modDrive n (fun t =>
    let t := { t with lockout := false, retrip := 0 }
    if (t.bstUv || t.preWait) && t.en && d.cut.trimOwn then t.enable (d.trimCut n) d.now else t)

/-- A TRIM commit lands the staged sets (R145, R210): PERIOD and DUTY as one write, then EN. -/
def Dev.commitTrim (d : Dev) : Dev :=
  forEach (List.range 32) (fun n d =>
    let t := d.trimOf n
    let d := match t.stagedDrv with
      | some s => d.modTrim n (fun t => { t with drv := s, stagedDrv := none })
      | none => d
    match t.staged with
    | none => d
    | some s =>
      let d := d.modDrive n (fun t =>
        { (t.writePair d.now (some s.period) (some s.duty)) with
          owner := s.owner, tickAlign := s.tickAlign, staged := none })
      d.setEn n s.en) d

/-- What the boundary does to every trim channel, after a TRIM commit (R146, R208): tick-boundary masks,
counters with TICK_ALIGN, and READY where pre-charge has ended. -/
def Dev.trimBoundary (d : Dev) : Dev :=
  forEach (List.range 32) (fun n d =>
    d.modDrive n (fun t =>
      let t := t.applyMask 0 d.now
      let t := if t.tickAlign && t.en then t.startPeriod d.now else t
      if t.readyDue then { t with readyDue := false, ready := true } else t)) d

/-- A released channel's driver (R195, R208): a waiting pre-charge proceeds as at EN, and the gates follow
their commands again. -/
def Dev.releaseTrim (d : Dev) (n : Nat) : Dev :=
  if d.trimCut n then d
  else d.modDrive n (fun t => if t.preWait && d.cut.trimOwn then t.enable false d.now else t)

/-! ### Cut groups -/

/-- The targets follow the groups that are cut (R190): new ones are held, and a trim that none targets any longer drives on. -/
def Dev.regroup (d : Dev) : Dev :=
  forEach ((List.range 32).filter (fun n => !d.trimCut n)) (fun n d => d.releaseTrim n) (d.holdTargets d.cut.active)

/-- CUT_GROUP (R189). -/
def bodyCutGroup : Body := fun r d =>
  match recForm r 16 10 with
  | none => d.say (.badArg 2)
  | some f =>
    if !r.write then d.say (f.readReply r (d.groupWords f.index))
    else if d.tk.seqRun then d.say (.wrongState 1)
    else
      let g := tblSet {} d.cut.groups f.index ((d.groupOf f.index).write f)
      (Dev.regroup { d with cut := { d.cut with groups := g } }).doneNow

/-- CUT_GROUP command. -/
def execCutGroup (r : Req) (s : State) : Host.Outcome State Fault Refusal :=
  onMain (iapin 0x0021 readsRec bodyCutGroup r) s

/-! ### XDIE trim blocks -/

/-- One channel of a trim block (R48): a paired write where the warp table owns it, and a mask staging. DESIGN CHOICE (note 192):
MASK_EVT and MASK_NEXT as word 2 of the record reads keep what the host wrote. -/
def Dev.xdieChannel (d : Dev) (n : Nat) (period duty ctl : Word) : Dev :=
  let d := if bit ctl 0 && d.warpOwns n then
      d.modDrive n (fun t => t.writePair d.now (some (bits period 24 0)) (some (bits duty 30 0)))
    else d
  if bit ctl 1 && decide (bits ctl 5 4 ≠ 3) then
    d.modTrim n (fun t => t.stageMask (bits ctl 3 2) (bits ctl 5 4) d.now)
  else d

/-- A 64-byte trim block (R48); a block whose KIND is not 1 changes nothing. -/
def Dev.xdieBlock (d : Dev) (ws : List Word) : Dev :=
  if bits (wat ws 0) 31 28 ≠ 1 then d
  else forEach [0, 1, 2, 3] (fun i d =>
    d.xdieChannel (4 * bits (wat ws 0) 2 0 + i) (wat ws (1 + 3 * i)) (wat ws (2 + 3 * i)) (wat ws (3 + 3 * i))) d

end Sys2Proof.Machine
end

