-- ==== Sys2Proof/Machine/Ply.lean ====
section
/-!
DEFINITION. The ply member (R213 to R230, R234 to R238): link, HELLO, claims, states, the image of each tick, frame
comparison, transfer and health report.
-/

namespace Sys2Proof.Machine

/-- Ply fields changed by f. -/
def Dev.modPly (d : Dev) (f : Ply → Ply) : Dev := { d with ply := f d.ply }

/-- The state codes of R226. -/
def PState.code : PState → Nat
  | .init => 0 | .candidate => 1 | .xfer => 2 | .shadow => 3 | .standby => 4 | .active => 5 | .yielded => 6

/-! ### Fitness and claims (R224, R230) -/

/-- FIT of a ply member (R230); a device that is none is not fit. -/
def Dev.fits (d : Dev) : Bool :=
  let p := d.ply
  d.isMember && p.lockstepOk && p.eccOk && p.spinDualOk && !d.flt.aliveStop && d.tk.seqRun &&
  ((p.pstate != .shadow && p.pstate != .standby) || (p.link == .up && p.sync))

/-- The highest FLOOR of the last FRESH uplink over ACTIVE strands (R224, R238). -/
def Dev.floorTop (d : Dev) : Nat :=
  d.strands.foldl (fun m p => if p.2.state == .active then max m p.2.floorSeen.toNat else m) 0

/-- One more than the highest of the floors and of both CLAIM_MAX values (R224). -/
def Dev.nextClaim (d : Dev) : Nat := max d.floorTop (max d.ply.claimMax.toNat d.ply.partnerMax.toNat) + 1

/-- The ply record in the FRAM follows CLAIM_LAST and CLAIM_MAX (R224). -/
def Dev.recordClaims (d : Dev) : Dev := { d with fram := d.fram.putPly d.ply.claimLast d.ply.claimMax }

/-- The claim is taken and recorded; none where it would be exhausted (R224). -/
def Dev.takeClaim (d : Dev) : Option Dev :=
  let c := d.nextClaim
  if 0xFFFFFFFE < c then none
  else some (d.modPly (fun p =>
    { p with held := some (word c), claimLast := word c, claimMax := word c
             switchCnt := satInc 16 p.switchCnt, claimTick := d.tk.tick })).recordClaims

/-- The claim exhausted source (R224). -/
def Dev.exhausted (d : Dev) : Dev := d.event 0x053 (word d.floorTop)

/-- The partner's HELLO shows ACTIVE. -/
def Ply.partnerActive (p : Ply) : Bool := (p.hello.map (·.pstate)) == some 5

/-! ### Commands (R426) -/

/-- PLY_START (R226). -/
def bodyPlyStart : Body := fun _ d =>
  if d.isMember && d.ply.pstate == .init then (d.modPly (fun p => { p with pstate := .candidate })).doneNow
  else d.say .wrongState

/-- PLY_START command. -/
def execPlyStart (r : Req) (s : State) : Host.Outcome State Fault Refusal := onMain (iapin 0x0401 writes bodyPlyStart r) s

/-- CLAIM_START: a single device takes its claim once, at the next boundary (R225). -/
def bodyClaimStart : Body := fun _ d =>
  if d.ply.role != .single || d.ply.held.isSome || d.ply.claimStart then d.say .wrongState
  else (.ok [d.landTick], d.modPly (fun p => { p with claimStart := true }))

/-- CLAIM_START command. -/
def execClaimStart (r : Req) (s : State) : Host.Outcome State Fault Refusal :=
  onMain (iapin 0x0402 writes bodyClaimStart r) s

/-! ### Link (R216) -/

/-- A member falls back to CANDIDATE (R226). -/
def Ply.toCandidate (p : Ply) : Ply :=
  { p with pstate := .candidate, sync := false, sealLost := false, xferReq := false, xferAsk := false, xferDue := false, shadowDue := false, xferLeft := 0
           missRun := 0, linkDownTicks := 0 }

/-- XFER entered, with a request for a full transfer (R226, R237). -/
def Ply.toXfer (p : Ply) : Ply :=
  { p with pstate := .xfer, sealLost := false, xferReq := true, xferAsk := true, xferDue := false, shadowDue := false, missRun := 0, judged := true }

/-- XFER from SHADOW or STANDBY: SYNC clears, and DIVERGE as R226 has it or only when the transfer completes, as R235 has it: the
rules differ, and the choice is left free (note 133). -/
def Ply.resync (p : Ply) : Ply := { p.toXfer with sync := false, diverge := p.diverge && !Config.divergeClearsOnResync }

/-- The link goes DOWN; leaving UP is reported, and a transfer ends (R216, R226). -/
def Dev.plyLinkDown (d : Dev) : Dev :=
  let wasUp := d.ply.link == .up
  let d := d.modPly (fun p =>
    let p := { p with link := .down, xferJob := none, xferAgain := false }
    if wasUp && p.pstate == .xfer then p.toCandidate else p)
  if wasUp then d.event 0x050 3 else d

/-- Some lane of the ply link runs under a test mode, which leaves the link in DOWN (R459). -/
def Dev.plyUnderTest (d : Dev) : Bool := d.test.lanes.any (fun p => p.1 / 256 == 1 && p.2.mode != 0)

/-- PLY_LINK_LOCK. -/
def execPlyLinkLock (s : State) : Host.Outcome State Fault Refusal :=
  onMain (fun d => if d.isMember && d.ply.link == .down && !d.plyUnderTest then d.modPly (fun p => { p with link := .lock }) else d) s

/-- PLY_LINK_ALIGN. -/
def execPlyLinkAlign (s : State) : Host.Outcome State Fault Refusal :=
  onMain (fun d => if d.isMember && d.ply.link == .lock then d.modPly (fun p => { p with link := .align }) else d) s

/-- PLY_LINK_ERROR. -/
def execPlyLinkError (s : State) : Host.Outcome State Fault Refusal :=
  onMain (fun d => if d.isMember && d.ply.link != .down then d.plyLinkDown else d) s

/-- PLY_LINK_RESTART: 50 ms without reaching UP. -/
def execPlyLinkRestart (s : State) : Host.Outcome State Fault Refusal :=
  onMain (fun d =>
    if d.isMember && (d.ply.link == .lock || d.ply.link == .align) then d.modPly (fun p => { p with link := .down }) else d) s

/-! ### Units (R217) -/

/-- One byte of the CRC-16 of R217. -/
def crc16Byte (c : Nat) (b : Byte) : Nat :=
  (List.range 8).foldl (fun x _ => (if 0x8000 ≤ x then (2 * x) ^^^ 0x1021 else 2 * x) % 65536) (c ^^^ (b.toNat * 256))

/-- The CRC-16 of R217. -/
def crc16 (bs : List Byte) : Nat := bs.foldl crc16Byte 0xFFFF

/-- The two tag words of a TABLE unit (R217): KIND 1 with its offset, the low bits of its tick, and the UCRC. -/
def tableTag (off tick ucrc : Nat) : List Word := [pack [(28, 1), (0, off)], pack [(16, tick % 65536), (0, ucrc % 65536)]]

/-- The UCRC of a TABLE unit: over tag word 0, tag bits [31:16] and the data, in the order sent (R217). -/
def tableUcrc (off tick : Nat) (data : List Byte) : Nat :=
  let t := tableTag off tick 0
  crc16 (wordBytes (wat t 0) ++ (wordBytes (wat t 1)).drop 2 ++ data)

/-- A received unit whose UCRC holds (R217). -/
def goodUnit (u : PlyRx) : Bool :=
  match u.unit with
  | .table off data c => decide (tableUcrc off.toNat u.tick.toNat data = c.toNat)
  | _ => u.ucrcOk

/-! ### HELLO (R218) -/

/-- The pieces of a transfer image: banks and commit fields, staged contents, the spindle, records and parameters that are
mirrored, accumulators, and every weft block that a table of either bank names as a MIRROR source (R220, R237). -/
def Dev.xferKeys (d : Dev) : List XferKey :=
  let blocks := fun (k : Bank) => (k.entries.filter (fun e => e.cls == clsMirror)).flatMap (fun e =>
    (List.range e.count).map (fun i => XferKey.weft (e.src + 64 * i)))
  [.bank 0, .bank 1, .runBank, .map false, .map true, .fields, .commit, .recipes, .coefs, .allocs, .stopTh] ++
  (List.range 512).map .severity ++ (List.range 7).map .thermal ++ (List.range d.strandCount).map .strand ++
  (List.range 2048).map .inst ++ (List.range 16).map .slot ++ (List.range 32).map .channel ++ (List.range 6).map .sec ++
  (List.range d.strandCount).flatMap (fun k => [.derate k, .enc k, .flags k]) ++ (List.range 32).map .trim ++ (List.range 32).map .trimStaged ++ (List.range 9).map .adc ++
  (List.range 16).map .pulseIn ++ (List.range 8).flatMap (fun j => [.pulseOut j, .pulse j]) ++
  ([(0, 136), (1, 136), (2, 32), (3, 1), (4, 3), (5, 1), (6, 12)] : List (Nat × Nat)).flatMap (fun p =>
    (List.range p.2).map (XferKey.meterParam p.1)) ++
  [.meter] ++ (List.range 136).map .acc ++ [.start] ++ blocks d.tk.bank0 ++ blocks d.tk.bank1

/-- A request for a full transfer in the partner's HELLO, where the HELLO before it showed none: an active with none to send
starts one, and else the request waits (R237). -/
def Dev.askTransfer (d : Dev) (h : Hello) : Dev :=
  let asked := ((d.ply.hello.map (·.xferReq)).getD false)
  if d.ply.pstate == .active && h.xferReq && !asked then
    if d.ply.xferJob.isSome then d.modPly (fun p => { p with xferAgain := true })
    else d.modPly (fun p => { p with xferJob := some d.xferKeys, xferCrc := 0xFFFFFFFF })
  else d

/-- The newest good HELLO is kept, with the CLAIM_MAX that it shows (R218, R224); it also tells of the tick whose image it ends. -/
def Dev.keepHello (d : Dev) (h : Hello) : Dev :=
  let t := h.tick.toNat
  (d.modPly (fun p =>
    { p with hello := some h, partnerMax := h.claimMax
             rx := { p.rx with heard := p.rx.heard || decide (t = d.tk.tick) }
             rxPrev := { p.rxPrev with heard := p.rxPrev.heard || decide (t + 1 = d.tk.tick) }
             claimMax := if p.claimMax.toNat < h.claimMax.toNat then h.claimMax else p.claimMax })).recordClaims

/-- What a HELLO does to a member whose link is UP (R218, R224, R226, R237). -/
def Dev.takeHello (d : Dev) (h : Hello) : Dev :=
  (((d.askTransfer h).keepHello h).modPly (fun p =>
    let tie := p.pstate == .active && p.role == .memberB && decide (h.pstate = 5) && p.held == some h.claim
    let p := { p with yieldDue := p.yieldDue || tie }
    if p.pstate == .xfer && decide (h.pstate ≠ 5) then p.toCandidate else p))

/-- The stepping of this edition, B0 (R4, R5). -/
def stepping : BitVec 8 := 0x20

/-- A HELLO shows the same part, stepping and firmware image (R216); an image is told by its version (note 134). -/
def Dev.sameDevice (d : Dev) (h : Hello) : Bool :=
  h.part == d.part && h.stepping == stepping && h.firmware == d.host.fwVersion

/-- A unit with a wrong UCRC is discarded and counted (R217). -/
def Dev.badUnit (d : Dev) : Dev := d.modPly (fun p => { p with ucrcErr := p.ucrcErr + 1 })

/-- The receive injections of the ply lanes (R463). -/
def Dev.plyInjections (d : Dev) : List Injection := (List.range 4).map (fun l => tblGet {} d.test.injections (injKey 1 l 1))

/-- Since a core cycle an injection has brought 16 invalid headers within 64 on a lane, which takes the link DOWN (R216, R465). -/
def Dev.plyLoses (d : Dev) (from_ : Nat) : Bool := d.plyInjections.any (fun i => i.losesLink from_ d.now)

/-- What a receive injection makes of a unit that arrives now, over the 18 core cycles of its slot (R217, R463, R465): the link goes
DOWN, or the unit fails its UCRC; none where it leaves the unit alone. -/
def Dev.struckUnit (d : Dev) : Option Dev :=
  if d.plyLoses d.tk.tickStart then some d.plyLinkDown
  else if d.plyInjections.any (fun i => i.altersIn d.now 18) then some d.badUnit
  else none

/-- A unit arrives over the link: an injection strikes it, or it is judged by its UCRC, or f takes it. -/
def Dev.onUnit (d : Dev) (good : Bool) (f : Dev → Dev) : Dev :=
  match d.struckUnit with
  | some e => e
  | none => if good then f d else d.badUnit

/-- HELLO: in ALIGN it decides between UP and INCOMPAT (R216). -/
def execHello (h : Hello) (s : State) : Host.Outcome State Fault Refusal :=
  onMain (fun d =>
    if !d.isMember || d.ply.link == .down then d
    else d.onUnit h.ucrcOk (fun d =>
      match d.ply.link with
      | .align =>
        if d.sameDevice h then (d.modPly (fun p => { p with link := .up })).takeHello h
        else ((d.modPly (fun p => { p with link := .incompat })).keepHello h).event 0x051 0
      | .up => d.takeHello h
      | .incompat => d.keepHello h
      | .down | .lock => d)) s

/-- The device as a HELLO describes it (R218). -/
def Dev.helloNow (d : Dev) : Hello :=
  let p := d.ply
  { ucrcOk := true, part := d.part, stepping := stepping, firmware := d.host.fwVersion, pstate := p.pstate.code, fit := d.fits
    sync := p.sync, diverge := p.diverge, resyncReq := p.xferReq, xferReq := p.xferAsk, claim := d.sentClaim
    claimLast := p.claimLast, claimMax := p.claimMax, tick := BitVec.ofNat 48 d.tk.tick, tickSteps := d.tk.tickSteps
    guardLen := d.tk.guardLen, alignSrc := Fin.ofNat 4 d.tk.alignSrc, alignOrigin := d.tk.alignOrigin
    syncDelay := d.tk.syncDelay, commitGuard := d.tk.commitGuard }

/-- The HELLO that a member sends now: while its sequencer runs it describes the last boundary (R218). DESIGN CHOICE (note 175): a
claim or yield at that boundary does not show in it. -/
def Dev.helloSend (d : Dev) : Hello := if d.tk.seqRun then d.ply.helloAt.getD d.helloNow else d.helloNow

/-- A HELLO is sent. -/
def Dev.sayHello (d : Dev) : Dev :=
  let h := d.helloSend
  d.modPly (fun p => { p with helloSent := p.helloSent + 1, helloTx := some h })

/-- HELLO_TIMER: before the sequencer runs, a HELLO every 10 µs from ALIGN on (R218). -/
def execHelloTimer (s : State) : Host.Outcome State Fault Refusal :=
  onMain (fun d =>
    if d.isMember && !d.tk.seqRun && (d.ply.link == .align || d.ply.link == .up || d.ply.link == .incompat) then d.sayHello else d) s

/-- HELLO_ABSENT (R218). -/
def execHelloAbsent (s : State) : Host.Outcome State Fault Refusal :=
  onMain (fun d => d.modPly (fun p =>
    let p := { p with hello := none }
    if p.pstate == .xfer then p.toCandidate else p)) s

/-! ### Grants, claims and yields (R226, R232, R234) -/

/-- GRANT recognised. -/
def execGrant (s : State) : Host.Outcome State Fault Refusal :=
  onMain (fun d =>
    if !d.isMember then d
    else
      let ok := (d.ply.pstate == .candidate && !d.ply.tickClash || d.ply.pstate == .standby) && d.fits
      d.modPly (fun p =>
        { p with grantSeen := true, grantIgnored := p.grantIgnored || !ok
                 claimDue := if ok then some d.now else p.claimDue })) s

/-- RESYNC recognised. -/
def execResync (s : State) : Host.Outcome State Fault Refusal :=
  onMain (fun d =>
    if !d.isMember then d
    else
      let ok := d.ply.pstate == .shadow || d.ply.pstate == .standby
      d.modPly (fun p =>
        let p := { p with resyncSeen := true, grantIgnored := p.grantIgnored || !ok }
        if ok then p.resync else p)) s

/-- A granted member becomes ACTIVE at a boundary; a standby discards work in flight (R226, R234). -/
def Dev.becomeActive (d : Dev) : Dev :=
  let fromStandby := d.ply.pstate == .standby
  let d := d.modPly (fun p => { p with claimDue := none })
  match d.takeClaim with
  | none => d.exhausted
  | some d =>
    let d := d.modPly (fun p => { p with pstate := .active, xferDue := false, log := [], logPart := 0 })
    let d := { d with cut := { d.cut with ownWait := 0 }
                      landing := d.landing.filter (fun p => p.1 != Landing.snapReq) }
    let d := d.event 0x055 (d.ply.held.getD 0)
    if fromStandby then d.discardHere.owedFromTick else d

/-- YIELD: the boundary after a higher FLOOR, or an equal claim at member B (R209, R226). -/
def execYieldClaim (s : State) : Host.Outcome State Fault Refusal :=
  onMain (fun d =>
    if d.ply.yieldDue && d.ply.pstate == .active then
      (((d.modPly (fun p =>
        { p with pstate := .yielded, yieldDue := false, held := none, log := [], logPart := 0, answers := []
                 deferred := [], xferJob := none, xferAgain := false })).dropTrims).discardHere).owedFromTick
    else d) s

/-! ### Joining and transfer (R226, R227, R237) -/

/-- The tick values of a HELLO are the member's own. -/
def Dev.sameTick (d : Dev) (h : Hello) : Bool :=
  let t := d.tk
  t.tickSteps == h.tickSteps && t.guardLen == h.guardLen && t.alignSrc == h.alignSrc.val &&
  t.alignOrigin == h.alignOrigin && t.syncDelay == h.syncDelay && t.commitGuard == h.commitGuard

/-- Tick values taken from a HELLO as if TICK_CONFIG had set them (R227, step 1). -/
def Dev.adoptTick (d : Dev) (h : Hello) : Dev :=
  let t := { d.tk with
    tickSteps := h.tickSteps, guardLen := h.guardLen, alignSrc := h.alignSrc.val
    alignOrigin := h.alignOrigin, syncDelay := h.syncDelay, commitGuard := h.commitGuard }
  (({ d with tk := t }).recheck 0).recheck 1

/-- PLY_JOIN: a CANDIDATE sees an ACTIVE partner over a link that is UP (R226, R227). -/
def execPlyJoin (s : State) : Host.Outcome State Fault Refusal :=
  onMain (fun d =>
    if !d.isMember || d.ply.pstate != .candidate || d.ply.link != .up || !d.ply.partnerActive || d.ply.tickClash then d
    else match d.ply.hello with
      | none => d
      | some h =>
        if d.tk.seqRun then
          if d.sameTick h then d.modPly (fun p => { p with xferDue := true, xferReq := true })
          else (d.modPly (fun p => { p with tickClash := true })).event 0x051 1
        else if d.tk.starting.isSome then d
        else
          let d := d.adoptTick h
          if !d.alignReady then d
          else
            ({ d with tk := { d.tk with starting := some 0, noBank := true, startAt := d.now, firstPulse := none } }).modPly
              (fun p => { p with joined := true, xferDue := true, xferReq := true })) s

/-- XFER_END: one with a wrong UCRC is discarded and counted, whatever the state (R217, R226). -/
def execXferEnd (crcOk : XferClose) (s : State) : Host.Outcome State Fault Refusal :=
  onMain (fun d =>
    if !d.isMember || d.ply.link != .up then d
    else d.onUnit crcOk.ucrcOk (fun d =>
      if d.ply.pstate != .xfer then d
      else d.modPly (fun p => if crcOk.crcOk then { p with shadowDue := true } else { p with xferAsk := true }))) s

/-- XFER_TIMEOUT: no XFER unit for 100 ms (R226). -/
def execXferTimeout (s : State) : Host.Outcome State Fault Refusal :=
  onMain (fun d => if d.ply.pstate == .xfer then d.modPly Ply.toCandidate else d) s

/-- Instance state from the transfer image (R81, R220, R237): the coefficients, the Mirrored fields of words 14 and 15, and the
lanes with the values they hold. The Local fields stay the member's own. -/
def Inst.fromXfer (i : Inst) (record : List Word) (lanes : List Lane) (preload : Bool) : Inst :=
  let c := wat record 15
  { i with
    coef := fit 14 0 record, manual := wat record 14
    isOpen := bit c 31, pendingOc := bit c 30, holdSel := bit c 29, preload := preload
    lanes := (lanes.zipIdx).foldl (fun (t : Tbl Lane) p => tblSet {} t p.2 p.1) [] }

/-- TB2_SRC of an instance from its record (R81). DESIGN CHOICE (note 132): a designation that comes so names lane 0. -/
def Dev.fromTb2Src (d : Dev) (n : Nat) (src : Bool) : Dev :=
  let own := (d.spin.tb2Lane.map (·.1)) == some n
  if src && !own then { d with spin := { d.spin with tb2Lane := some (n, 0) } }
  else if !src && own then { d with spin := { d.spin with tb2Lane := none } }
  else d

/-- START_STATE of a start state (R450). -/
def StartState.code : StartState → Nat
  | .wait => 0 | .precharge => 1 | .closing => 2 | .sync => 3 | .run => 4 | .tripped => 7

/-- The start state of a code. -/
def startOf (c : Nat) : StartState :=
  ([.precharge, .closing, .sync, .run, .tripped] : List StartState).find? (fun s => s.code == c) |>.getD .wait

/-- The start state enters another state, and its time starts again (R446, R450). -/
def Dev.toStart (d : Dev) (s : StartState) : Dev := { d with pwr := { d.pwr with start := s, stateStart := (d.now : Int) } }

/-- The start state with its time and its outputs as the active has them (R446, R449, R450). -/
def Dev.mirrorStart (d : Dev) (code reason : Nat) (pre main : Bool) (time : Nat) : Dev :=
  { d with pwr := { d.pwr with start := startOf code, stateStart := (d.now : Int) - time, tripReason := reason, preCmd := pre
                               mainCmd := main
                               preCmdTime := if pre == d.pwr.preCmd then d.pwr.preCmdTime else d.now
                               mainCmdTime := if main == d.pwr.mainCmd then d.pwr.mainCmdTime else d.now } }

/-- Core cycles for which the start state has stood. -/
def Dev.startTime (d : Dev) : Nat := ((d.now : Int) - d.pwr.stateStart).toNat

/-- The map in force as a transfer brings it: what a MAP commit sets with it (R124, R135, R152, R237, R485). -/
def Dev.landMap (d : Dev) (m : List Word) : Dev :=
  let d := { d with mapForce := some m, tk := { d.tk with devPhase := mapDevPhase m } }
  let d := d.mapToSections m
  forEach (List.range d.strandCount) (fun k d => d.refreshCell k) d

/-- COMPARED_TICKS_DONE: 1,000 clean compared ticks take SHADOW to STANDBY (R226). -/
def execComparedTicksDone (s : State) : Host.Outcome State Fault Refusal :=
  onMain (fun d =>
    if d.ply.pstate == .shadow && decide (1000 ≤ d.ply.cleanRun) then
      d.modPly (fun p => { p with pstate := .standby, sync := true })
    else d) s

/-! ### The image as the standby lands it (R219, R221, R223) -/

/-- The first core cycle at which no unit of the tick before may land any more: the first SPIN or ALLOC entry's
start, or the tick's end (R221). -/
def Dev.imageEnd (d : Dev) : Nat :=
  let es := d.running?.entries
  match (es.zip (spans es)).find? (fun p => p.1.cls == clsSpin || p.1.cls == clsAlloc) with
  | some p => p.2.1
  | none => d.tickCycles

/-- A TABLE unit lands in the weft region. -/
def Dev.landTable (d : Dev) (u : Nat × List Byte) : Dev := { d with weft := memPutBytes d.weft u.1 (u.2.take (weftSize - u.1)) }

/-- Encoder state of a strand lands. -/
def Cell.fromImage (c : Cell) (e : EncImage) : Cell :=
  { c with swallow := e.swallow, omitted := e.omitted, swMin := e.swMin, edgeMax := e.edgeMax
           levelA := e.levelA, levelB := e.levelB, edgeLimit := e.edgeLimit, blocked := e.blocked
           lastA := e.lastA, lastB := e.lastB, mPrev := e.mPrev, blockPrev := e.blockPrev, everSent := e.everSent, built := e.built }

/-- Generator, mask and driver settings of a trim channel land, but for EN and the Local flags (R147, R219). -/
def Trim.fromImage (t : Trim) (x : TrimImage) : Trim :=
  let w2 := wat x.words 2
  let w3 := wat x.words 3
  { t with
    period := bits (wat x.words 0) 24 0, duty := bits (wat x.words 1) 30 0
    owner := bit w2 15, evtEdge := bit w2 14, evtPin := bits w2 13 12, zcArm := bits w2 11 8
    maskEvt := bits w2 6 5, maskNext := bits w2 4 3, tickAlign := bit w2 1
    maskPending := bit w3 4, maskAct := bits w3 1 0, pendMask := x.pendMask.val, pendEvt := x.pendEvt.val
    drv := t.drv.write { index := 0, first := 0, count := min 2 x.drv.length, data := x.drv } }

/-- The TRAILER lands (R219, R305); one of the tick before comes after a boundary, which its encoder state passes too. -/
def Dev.landTrailer (d : Dev) (past : Bool) (t : TrailerImage) : Dev :=
  let d := (t.accs.zipIdx).foldl (fun d p =>
    d.modAcc p.2 (fun x => { x with value := p.1.value, frac := p.1.frac, wrap := p.1.wrap })) d
  let tot := (t.totals.zipIdx).foldl (fun (m : Tbl Nat) p => tblSet 0 m p.2 p.1) d.meter.totals
  let outs := (t.pulses.zipIdx).foldl (fun (m : Tbl PulseOut) p =>
    tblMod {} m p.2 (fun o => { o with residual := p.1.residual, backlog := p.1.backlog, owing := p.1.owing })) d.meter.pulseOut
  let ins := (t.pulseIns.zipIdx).foldl (fun (m : Tbl PulseIn) p => tblMod {} m p.2 (fun i => { i with window := p.1 })) d.meter.pulseIn
  let d := { d with meter := { d.meter with totals := tot, pulseOut := outs, pulseIn := ins } }
  let d := t.encs.foldl (fun d e => d.modCell e.strand.val (fun c =>
    if past then (c.fromImage e).tickEnd (64 * d.tickCycles) else c.fromImage e)) d
  t.trims.foldl (fun d x => (d.modTrim x.chan.val (fun c => c.fromImage x)).setEn x.chan.val (bit (wat x.words 2) 0)) (d.takeHello t.hello)

/-- The commit logic as the active has it (R60, R219, R237); IDLE arms no recipe slot. -/
def Dev.mirrorCommit (d : Dev) (st : Nat) (epoch : Word) (target set : Nat) (campus : Bool) : Dev :=
  let t := { d.tk with
    commit := if st = 0 then .idle else if st = 1 then .armed else .committed
    epoch := epoch, target := target, set := set, campus := campus }
  { d with tk := t, recipes := { d.recipes with armed := if st = 0 then none else d.recipes.armed } }

/-- The SEAL lands: the commit state at once; releases, strand flags and the write log are due at the next boundary
(R196, R219, R221). A bank that the active has found not valid is so here too; one that it has loaded comes by the log (R15). -/
def Dev.landSeal (d : Dev) (x : SealImage) : Dev :=
  let d := d.mirrorCommit x.commitState.val x.epoch x.target.toNat x.set.toNat x.campus
  let t := { d.tk with
    appliedEpoch := x.appliedEpoch, appliedTick := x.appliedTick.toNat
    bank0 := { d.tk.bank0 with valid := d.tk.bank0.valid && x.valid0 }
    bank1 := { d.tk.bank1 with valid := d.tk.bank1.valid && x.valid1 } }
  let d := { d with tk := t, cut := { d.cut with releases := d.cut.releases ++ x.releases.map (fun (g : BitVec 16) => (g.toNat, ({} : Accepted))) } }
  let d := d.mirrorStart x.start.val x.reason.val x.preCmd x.mainCmd x.stateTime
  d.modPly (fun p => { p with flagsDue := p.flagsDue ++ x.flags, logDue := p.logDue ++ x.log
                              rx := { p.rx with sealImg := some x } })

/-- The image that a unit belongs to: of the tick before, or of this one. -/
def Ply.modRx (p : Ply) (prev : Bool) (f : ImageRx → ImageRx) : Ply :=
  if prev then { p with rxPrev := f p.rxPrev } else { p with rx := f p.rx }

/-- A unit of the image arrives (R221): one of the tick before that comes after the deadline is dropped, as is its seal,
whose boundary has passed; TABLE and TRAILER units of this tick wait for the guard window. -/
def Dev.plyUnit (d : Dev) (u : PlyRx) : Dev :=
  let mine := decide (u.tick.toNat = d.tk.tick % 65536)
  let prev := decide (u.tick.toNat = (d.tk.tick + 65535) % 65536)
  if !mine && !prev then d
  else if prev && decide (d.imageEnd < d.cyc) then d.modPly (fun p => p.modRx true (fun x => { x with dropped := true }))
  else
    let lands := prev || d.inGuard
    match u.unit with
    | .fill => d
    | .table off data _ =>
      let x := (off.toNat, fit 64 (0 : Byte) data)
      let d := d.modPly (fun p => p.modRx prev (fun r => { r with tables := r.tables ++ [x], unitCount := r.unitCount + 1 }))
      if lands then d.landTable x else d
    | .seal img => if prev then d.modPly (fun p => p.modRx true (fun x => { x with dropped := true })) else d.landSeal img
    | .trailer img =>
      let d := d.modPly (fun p => p.modRx prev (fun r => { r with trailer := some img }))
      if lands then d.landTrailer prev img else d

/-- PLY_UNIT. -/
def execPlyUnit (u : PlyRx) (s : State) : Host.Outcome State Fault Refusal :=
  onMain (fun d =>
    if !d.isMember || d.ply.link != .up then d
    else d.onUnit (goodUnit u) (fun d => if d.ply.receives && d.tk.seqRun then d.plyUnit u else d)) s

/-- TABLE and TRAILER units that waited for the guard window land in it, in order (R221). -/
def Dev.landWaiting (d : Dev) : Dev :=
  if d.isMember && d.ply.receives then
    let d := d.ply.rx.tables.foldl Dev.landTable d
    match d.ply.rx.trailer with
    | some t => d.landTrailer false t
    | none => d
  else d

/-- The image gathered is complete (R223). -/
def ImageRx.complete (x : ImageRx) : Bool :=
  match x.sealImg with
  | some s => x.trailer.isSome && !x.dropped && decide (x.unitCount = s.units) &&
      decide (crc32 (x.tables.flatMap (·.2)) = s.unitsCrc)
  | none => false

/-- The inputs of the image's tick matched: FRESH flags and intake digests of every strand (R235). -/
def Dev.inputsMatch (d : Dev) (x : ImageRx) : Bool :=
  match x.sealImg, x.trailer with
  | some _, some t => (List.range d.strandCount).all (fun k =>
      decide (tblGet false d.ply.freshSeal k = tblGet false d.ply.freshPrev k) && decide ((t.digests.getD k 0).toNat = tblGet 0 d.ply.digestsPrev k))
  | _, _ => false

/-- Strands whose frames are compared in this tick (R235). -/
def Dev.comparable (d : Dev) (k : Nat) : Bool :=
  let s := d.strandOf k
  s.fresh && (match s.last with
    | some u => !bit (wat u.control 22) 29 && !bit (wat u.header 1) 30
    | none => false)

/-- The comparison of frame CRCs of the tick before (R235). -/
def Dev.compareFrames (d : Dev) : Dev :=
  let n := ((List.range d.strandCount).filter (fun k =>
    d.comparable k && decide ((d.strandOf k).crcEcho ≠ (d.strandOf k).ctrlCrcPrev))).length
  if n = 0 then d.modPly (fun p => { p with mismatch := 0, mismatchRun := 0, cleanRun := p.cleanRun + 1 })
  else
    let d := d.modPly (fun p =>
      { p with mismatch := min 255 n, mismatchRun := p.mismatchRun + 1, cleanRun := 0, mismatchCnt := satInc 16 p.mismatchCnt })
    if d.ply.mismatchRun = 2 then (d.modPly (fun p => { p with diverge := true })).event 0x052 (word d.ply.mismatch) else d

/-- Something that the active sends behind its seal has come: the TRAILER or the HELLO of that tick (R218, R219). -/
def ImageRx.heardAfter (x : ImageRx) : Bool := x.trailer.isSome || x.heard

/-- An incomplete image (R223, R226). DEDUCED (note 203): a missing seal calls for a transfer where something sent behind it shows
that the active goes on; where nothing does, as when the active has failed or the link is down, the standby stays as it is and can be
granted (R234, R239), and the transfer is due when the active is heard again. -/
def Ply.missed (p : Ply) : Ply :=
  let p := { p with imageMiss := satInc 16 p.imageMiss, missRun := p.missRun + 1 }
  let noSeal := p.rxPrev.sealImg.isNone
  if p.pstate == .xfer then p
  else if 16 ≤ p.missRun then p.toCandidate
  else if noSeal && !p.rxPrev.heardAfter then { p with sealLost := true }
  else if noSeal || p.sealLost then p.resync
  else p

/-- A complete image: the transfer that a seal missed before calls for is due (R223). -/
def Ply.gathered (p : Ply) : Ply :=
  let p := { p with missRun := 0 }
  if p.sealLost && p.pstate != .xfer then p.resync else p

/-- The landing deadline of the tick before: comparison and completeness (R223, R235). -/
def Dev.imageDeadline (d : Dev) : Dev :=
  let x := d.ply.rxPrev
  let d := if (d.ply.pstate == .shadow || d.ply.pstate == .standby) && d.ply.prevComplete && d.inputsMatch x then d.compareFrames else d
  d.modPly (fun p =>
    let ok := x.complete
    let p := { p with judged := true, missTick := !ok, prevComplete := ok }
    if ok then p.gathered else p.missed)

/-- A member that gathers images, whose image of the tick before has not been judged. -/
def Dev.toJudge (d : Dev) : Bool := d.isMember && d.ply.receives && d.tk.seqRun && !d.ply.judged

/-- IMAGE_DEADLINE. -/
def execImageDeadline (s : State) : Host.Outcome State Fault Refusal :=
  onMain (fun d => if d.toJudge then d.imageDeadline else d) s

/-- The images move on by one tick; one that no deadline judged is judged now (R223, R229). -/
def Dev.imageBoundary (d : Dev) : Dev :=
  let d := if d.toJudge then d.imageDeadline else d
  d.modPly (fun p =>
    { p with missWindow := (p.missTick :: p.missWindow).take 256, missTick := false, judged := false, rxPrev := p.rx, rx := {} })

/-- LOCKSTEP_MISMATCH (R236, R243). -/
def execLockstepMismatch (pc : Word) (s : State) : Host.Outcome State Fault Refusal :=
  onMain (fun d => (d.modPly (fun p => { p with lockstepOk := false })).event 0x072 pc) s

/-! ### The image as the active sends it (R219) -/

/-- CRC-32 of the TABLE units sent in this tick. -/
def Ply.unitsCrc (p : Ply) : Word :=
  crc32 (p.txUnits.flatMap (fun u => match u with | .table _ data _ => data | _ => []))

/-- The entries whose last part goes into a seal with room for n units, the log left over, and the units of its first entry
that have gone (R219). -/
def sealLog : Nat → Nat → List LogEntry → List LogEntry × List LogEntry × Nat
  | _, part, [] => ([], [], part)
  | n, part, e :: es =>
    if LogEntry.units e ≤ part + n then
      let q := sealLog (part + n - LogEntry.units e) 0 es
      (e :: q.1, q.2)
    else ([], e :: es, part + n)

/-- Commands for the endpoint of strand k that are pending at the active (R171, R219). -/
def Dev.pendingFlags (d : Dev) (k : Nat) : SealFlags :=
  let s := d.strandOf k
  let slot := fun (c : Nat) => (s.cmd.waiting && s.cmd.cmd == c) || s.devCmds.any (fun x => x.cmd == c)
  { strand := Fin.ofNat 256 k, fresh := s.fresh, lost := s.lost, bypass := (s.lost && !s.bypassSent) || slot 1
    deepRest := slot 4, wake := d.landing.any (fun p => p.1 == .wake k), returnCell := d.landing.any (fun p => p.1 == .returnCell k) }

/-- The SEAL of this tick, with the log entries whose last part it carries. -/
def Dev.sealNow (d : Dev) (log : List LogEntry) : SealImage :=
  let t := d.tk
  { tick := BitVec.ofNat 48 t.tick, claim := d.ply.held.getD d.ply.claimLast
    appliedEpoch := t.appliedEpoch, appliedTick := BitVec.ofNat 48 t.appliedTick
    commitState := match t.commit with | .idle => 0 | .armed => 1 | .committed => 2
    epoch := t.epoch, target := BitVec.ofNat 48 t.target, set := BitVec.ofNat 16 t.set, campus := t.campus
    units := (d.ply.txUnits.filter (fun u => match u with | .table _ _ _ => true | _ => false)).length
    unitsCrc := d.ply.unitsCrc
    releases := (d.cut.releases.filter (fun r => r.2.skip == 0)).map (fun r => BitVec.ofNat 16 r.1)
    flags := (List.range d.strandCount).map d.pendingFlags
    log := log, start := Fin.ofNat 8 d.pwr.start.code, reason := Fin.ofNat 8 d.pwr.tripReason
    preCmd := d.pwr.preCmd, mainCmd := d.pwr.mainCmd, stateTime := d.startTime
    valid0 := d.tk.bank0.valid, valid1 := d.tk.bank1.valid }

/-- Encoder state of a strand as a TRAILER carries it (R219). -/
def Cell.image (c : Cell) (k : Nat) : EncImage :=
  { strand := Fin.ofNat 256 k, swallow := c.swallow, omitted := c.omitted, swMin := c.swMin, edgeMax := c.edgeMax
    levelA := c.levelA, levelB := c.levelB, edgeLimit := c.edgeLimit, blocked := c.blocked
    lastA := c.lastA, lastB := c.lastB, mPrev := c.mPrev, blockPrev := c.blockPrev, everSent := c.everSent, built := c.built }

/-- Generator, mask and driver settings of a trim channel as a TRAILER carries them (R219). -/
def Trim.image (t : Trim) (n : Nat) : TrimImage :=
  { chan := Fin.ofNat 32 n, words := t.genWords, drv := t.drvWords.take 2, pendMask := Fin.ofNat 4 t.pendMask
    pendEvt := Fin.ofNat 4 t.pendEvt }

/-- The TRAILER of this tick. -/
def Dev.trailerNow (d : Dev) : TrailerImage :=
  { accs := (List.range 136).map (fun q => { value := (d.accOf q).value, frac := (d.accOf q).frac, wrap := (d.accOf q).wrap })
    totals := (List.range 6).map (fun i => tblGet 0 d.meter.totals i)
    pulses := (List.range 8).map (fun j => let o := tblGet ({} : PulseOut) d.meter.pulseOut j; ⟨o.residual, o.backlog, o.owing⟩)
    pulseIns := (List.range 16).map (fun i => (tblGet ({} : PulseIn) d.meter.pulseIn i).window)
    digests := (List.range 256).map (fun k => BitVec.ofNat 16 (tblGet 0 d.ply.digests k))
    encs := (List.range d.strandCount).map (fun k => (d.cellOf k).image k)
    trims := (List.range 32).map (fun n => (d.trimOf n).image n)
    hello := d.helloSend }

/-- TABLE units that wait on the link at the seal step, 200 cycles into the guard window (R221). -/
def Dev.queuedTables (d : Dev) : Nat := (d.ply.linkBusy - (d.tickCycles - d.tk.guardLen + 200) + 17) / 18

/-- OKs given for the writes that have been sealed; those whose log entry is left over wait on (R219, R432). -/
def Dev.answerSealed (d : Dev) (rest : List LogEntry) : Dev :=
  let waits := fun (a : WaitingReply) => rest.any (fun e => e.op == a.op && e.req == a.req)
  let late := d.ply.answers.filter waits
  let d := (d.modPly (fun p => { p with answers := p.answers.filter (fun a => !waits a) })).giveAnswers
  d.modPly (fun p => { p with answers := late })

/-- The active's seal: SEAL units go out ahead of TABLE units that still wait, the TRAILER after the last of them (R219,
R221). -/
def Dev.sealImage (d : Dev) : Dev :=
  let q := sealLog 16 d.ply.logPart d.ply.log
  let k := d.ply.txUnits.length - d.queuedTables
  let us := d.ply.txUnits.take k ++ [.seal (d.sealNow q.1)] ++ d.ply.txUnits.drop k ++ [.trailer d.trailerNow]
  (d.modPly (fun p => { p with txUnits := us, log := q.2.1, logPart := q.2.2 })).answerSealed q.2.1

/-- The seal step (R219, R221): the active seals its image, whose last unit is its HELLO; every other member sends its HELLO
alone (R218). -/
def Dev.sealStep (d : Dev) : Dev :=
  if !d.isMember then d
  else (if d.ply.pstate == .active then d.sealImage else d).sayHello

/-! ### Health report (R228, R229) -/

/-- DEGRADED (R200). -/
def CutPath.degraded (c : CutPath) : Bool := c.railAFail || c.railBFail

/-- HCRC of a report's first 14 bytes. -/
def healthCrc (w0 w1 w2 w3 : Word) : Nat := crc16 (wordsBytes [w0, w1, w2] ++ (wordBytes w3).take 2)

/-- The health report of a boundary (R229). -/
def Dev.healthWords (d : Dev) : List Word :=
  let p := d.ply
  let w0 := pack [(24, 1), (0, d.tk.tick % 2 ^ 24)]
  let w1 := d.sentClaim
  let w2 := pack [(30, if p.role == .memberA then 1 else 2), (27, p.pstate.code), (26, b1 d.fits), (25, b1 p.sync), (24, b1 p.diverge),
    (23, b1 ((p.hello.map (·.diverge)).getD false)), (22, b1 d.cut.degraded), (21, b1 p.lockstepOk), (20, b1 p.eccOk),
    (19, b1 p.spinDualOk), (18, b1 (p.link == .up)), (17, b1 d.flt.aliveStop), (16, b1 p.xferReq),
    (8, p.mismatch), (0, min 255 (p.missWindow.filter id).length)]
  let e := pack [(0, bits d.tk.appliedEpoch 15 0)]
  [w0, w1, w2, pack [(16, healthCrc w0 w1 w2 e), (0, bits d.tk.appliedEpoch 15 0)]]

/-- The report is sent in this tick: every tick of 6.8 µs or longer, else every even one (R228). -/
def Dev.sendsReport (d : Dev) : Bool := d.isMember && (decide (8500 ≤ d.tickCycles) || decide (d.tk.tick % 2 = 0))

/-- HEALTH_OUT half a bit time at a time, 20 ns each, from the start of the report (R228): 16 preamble bits of 1, the start
delimiter, and 128 data bits, bytes rising and each byte from its least significant bit; 0 is high then low, 1 low then
high. -/
def healthLine (ws : List Word) : List Bool :=
  let coded := fun (b : Bool) => [!b, b]
  let data := (wordsBytes ws).flatMap (fun x => (List.range 8).flatMap (fun i => coded (x.getLsbD i)))
  (List.replicate 16 (coded true)).flatten ++ [true, true, false, false] ++ data

/-- The level of HEALTH_OUT: the report starts 400 ns after its boundary, and the line idles low (R228). -/
def Dev.healthLevel (d : Dev) : Bool :=
  let t := d.now - d.ply.healthAt
  decide (500 ≤ t) && (healthLine d.ply.healthOut).getD ((t - 500) / 25) false && !d.ply.healthOut.isEmpty

/-! ### What a boundary does (R225, R226) -/

/-- A single device's claim after CLAIM_START (R225). -/
def Dev.singleClaim (d : Dev) : Dev :=
  if d.ply.role == .single && d.ply.claimStart then
    let d := d.modPly (fun p => { p with claimStart := false })
    (d.takeClaim).getD d.exhausted
  else d

/-- A completed transfer: SHADOW, and a joined member runs RUN_BANK (R226, R227, R235, R229). -/
def Dev.toShadow (d : Dev) : Dev :=
  let d := if d.ply.joined then { d with tk := { d.tk with noBank := false } } else d
  d.modPly (fun p =>
    { p with pstate := .shadow, shadowDue := false, xferReq := false, xferAsk := false, xferLeft := 0, joined := false
             xferCnt := satInc 16 p.xferCnt, diverge := false, mismatchRun := 0, cleanRun := 0, missRun := 0
             linkDownTicks := 0, lockstepOk := true, eccOk := true, spinDualOk := true })

/-- State changes of a member at a boundary (R226). -/
def Dev.memberBoundary (d : Dev) : Dev :=
  if !d.isMember then d
  else
    let d := if d.ply.link != .down && d.plyLoses (d.now - d.tickCycles) then d.plyLinkDown else d
    let p := d.ply
    match p.pstate with
    | .xfer => if p.shadowDue then d.toShadow else d
    | .candidate =>
      if p.xferDue then (if p.link == .up && p.partnerActive then d.modPly Ply.toXfer else d.modPly (fun p => { p with xferDue := false, xferReq := false }))
      else d
    | .yielded => if p.link == .up && p.partnerActive && d.fits then d.modPly Ply.toXfer else d
    | .shadow | .standby =>
      if p.link == .up then d.modPly (fun p => { p with linkDownTicks := 0 })
      else if 16 ≤ p.linkDownTicks + 1 then d.modPly Ply.toCandidate
      else d.modPly (fun p => { p with linkDownTicks := p.linkDownTicks + 1 })
    | _ => d

/-- The tick's books of a boundary: floors, FRESH flags and digests of the tick that ends, the queue of sent units,
and the report (R219, R228, R235, R238). DESIGN CHOICE (note 174): the report shows the member before the commits, state changes
and claims of this boundary. -/
def Dev.plyBooks (d : Dev) : Dev :=
  let fresh := d.strands.foldl (fun (t : Tbl Bool) p => tblSet false t p.1 p.2.fresh) []
  let d := d.modPly (fun p =>
    { p with floorMax := word d.floorTop, digestsPrev := p.digests, digests := [], freshPrev := fresh, txUnits := [], linkBusy := 0
             xferTx := [], xferEndTx := none })
  if d.sendsReport then d.modPly (fun p => { p with healthOut := d.healthWords, healthAt := d.tk.tickStart }) else d

/-- LOST and the pending commands of one strand land (R219, R221). A cell newly LOST is owed its BYPASS_CLOSE (R177); a wake
and a returned cell land by the log of the same seal; a DEEP_REST or BYPASS_CLOSE that the active still repeats is taken over
by a member in XFER, which has not had the command itself. -/
def Strand.landFlags (s : Strand) (joins : Bool) (f : SealFlags) : Strand :=
  let has := fun (c : Nat) => (s.cmd.waiting && s.cmd.cmd == c) || s.devCmds.any (fun x => x.cmd == c)
  let again := (f.lost && !s.lost) || (joins && f.bypass && !has 1)
  let s' := { s with bypassSent := s.bypassSent && !again, lost := f.lost }
  if joins && f.deepRest && !has 4 then s'.queueCmd { cmd := 0x04, arg0 := 0, args := [0, 0, 0], host := false } else s'

/-- The strand flags of the last seal land; the active's FRESH flags stand for the comparison (R221, R235). A cell newly LOST
is an occurrence here too (R241). -/
def Dev.landFlags (d : Dev) : Dev :=
  let fs := d.ply.flagsDue
  let joins := d.ply.pstate == .xfer
  let new := (fs.filter (fun f => f.lost && !(d.strandOf f.strand.val).lost)).map (fun f => ((0x027 : Nat), word f.strand.val))
  let d := fs.foldl (fun d f => d.modStrand f.strand.val (fun s => s.landFlags joins f)) d
  let d := d.modPly (fun p =>
    { p with flagsDue := [], freshSeal := fs.foldl (fun t f => tblSet false t f.strand.val f.fresh) p.freshSeal })
  if new.isEmpty then d else d.events new

/-- The member as the HELLO of this tick describes it (R218). -/
def Dev.noteHello (d : Dev) : Dev := if d.isMember then d.modPly (fun p => { p with helloAt := some d.helloNow }) else d

end Sys2Proof.Machine
end

