-- ==== Sys2Proof/Machine/Test.lean ====
section
/-!
DEFINITION. Commissioning mode, loopbacks, PRBS checkers, the link fault injector and the capture setting (R429,
R454 to R466).
-/

namespace Sys2Proof.Machine

/-- A safety output of the island is energised (R454). -/
def Dev.outputsOn (d : Dev) : Bool := decide (d.isl.outputs ≠ 0)

/-- Test record of a lane changed by f. -/
def Dev.modLane (d : Dev) (key : Nat) (f : LaneTest → LaneTest) : Dev :=
  { d with test := { d.test with lanes := tblMod {} d.test.lanes key f } }

/-- Injection of a key. -/
def Dev.injOf (d : Dev) (key : Nat) : Injection := tblGet {} d.test.injections key

/-- Lanes of a class: 0 strands, 1 ply, 2 Ethernet, 3 PCIe lanes (R457). -/
def Dev.laneCount (d : Dev) (cls : Nat) : Nat :=
  if cls = 0 then d.strandCount else if cls = 1 then 4 else if cls = 2 then d.portCount else 2

/-! ### TEST_MODE (R454) -/

/-- TEST_MODE: switching it on is refused while a safety output is energised. -/
def bodyTestMode : Body := fun r d =>
  let on := bit (arg r 2) 0
  if on && d.outputsOn then d.say .safetyLocked else d.doneAtTick r (.testMode on)

/-- TEST_MODE command. -/
def execTestMode (r : Req) (s : State) : Host.Outcome State Fault Refusal := onMain (iapin 0x0801 writes bodyTestMode r) s

/-- TEST_MODE lands (R454 to R456). -/
def landTestMode (on : Bool) (d : Dev) : Dev :=
  if on then
    if d.test.commissioning then d
    else ({ d with test := { d.test with commissioning := true, ending := false } }).level 0x1C1 1
  else { d with test := { d.test with ending := d.test.commissioning } }

/-! ### LOOPBACK (R457 to R461) -/

/-- The precondition of a mode change on a lane (R457): the reason it fails with. -/
def Dev.loopbackReason (d : Dev) (chan cls lane : Nat) : Option Nat :=
  if cls = 3 then (if (d.boxOf chan).reqId = 1 ∨ (d.boxOf chan).reqId = 2 then some 3 else none)
  else if cls = 0 then (if (d.strandOf lane).state != .off || (d.strandOf lane).enable then some 2 else none)
  else if cls = 1 then
    (if d.ply.pstate == .init || d.ply.pstate == .candidate || d.ply.pstate == .yielded then none else some 2)
  else if (d.portOf lane).mode = 0 then some 2 else none

/-- An injection is in force on a lane, or has been accepted and has not landed (R466). -/
def Dev.injected (d : Dev) (cls lane : Nat) : Bool :=
  decide ((d.injOf (injKey cls lane 0)).action ≠ 0) || decide ((d.injOf (injKey cls lane 1)).action ≠ 0) ||
  d.landing.any (fun p => match p.1 with
    | .inject k a _ _ => k / 2 == laneKey cls lane && decide (a ≠ 0)
    | _ => false)

/-- Bits a class's line carries in 20 core cycles (R158, R215, R348, R390). -/
def Dev.bitsPer20 (d : Dev) (key : Nat) : Nat :=
  let cls := key / 256
  if cls = 0 then 50 else if cls = 1 then 165 else if cls = 3 then 128
  else if (d.portOf (key % 256)).mode = 1 then 165 else 20

/-- Core cycles for which the checker of a lane has been locked. -/
def Dev.lockedCycles (d : Dev) (x : LaneTest) : Nat := x.lockedFor + (if x.prbsLock then d.now - x.since else 0)

/-- The four words of a lane's test record (R461). -/
def Dev.laneWords (d : Dev) (key : Nat) : List Word :=
  let x := d.laneTest key
  [pack [(30, x.mode), (29, b1 x.prbsLock), (28, b1 x.lockLost)], word x.errCnt,
   word (min (d.lockedCycles x * d.bitsPer20 key / (20 * 2 ^ 20)) 0xFFFFFFFF), 0]

/-- Bit errors that a locked checker has counted since it was looked at last: their number is the line's, and free
here. -/
def Dev.countErrors (d : Dev) (key : Nat) : Dev :=
  if (d.laneTest key).prbsLock then
    (d.modLane key (fun x => { x with errCnt := satAdd 32 x.errCnt (Config.freeNat d.fresh) })).useFresh
  else d

/-- LOOPBACK: a READ clears LOCK_LOST; a mode change lands at tick. -/
def bodyLoopback : Body := fun r d =>
  let w := arg r 2
  let cls := bits w 1 0
  let lane := bits w 15 8
  let mode := bits w 17 16
  let key := laneKey cls lane
  if bits w 31 19 ≠ 0 ∨ bits w 7 2 ≠ 0 ∨ d.laneCount cls ≤ lane then d.say (.badArg 2)
  else if cls = 3 ∧ (mode = 1 ∨ mode = 2) then d.say (.badArg 2)
  else if !d.test.commissioning then d.say (.wrongState 1)
  else if d.outputsOn then d.say .safetyLocked
  else if bit w 18 then
    let d := d.countErrors key
    (.ok (w :: d.laneWords key), d.modLane key (fun x => { x with lockLost := false }))
  else match d.loopbackReason r.chan.val cls lane with
    | some n => d.say (.wrongState n)
    | none => if mode ≠ 0 ∧ cls ≠ 3 ∧ d.injected cls lane then d.say (.wrongState 2) else d.doneAtTick r (.loopback key mode)

/-- LOOPBACK command. -/
def execLoopback (r : Req) (s : State) : Host.Outcome State Fault Refusal := onMain (iapin 0x0802 writes bodyLoopback r) s

/-- An Ethernet port leaves link up (R348, R361). -/
def Dev.ethDown (d : Dev) (p : Nat) : Dev :=
  if (d.portOf p).linkUp then
    (d.modPort p (fun e =>
      { e with linkUp := false, lpiTx := false, lpiRx := false, anDone := false
               linkDownCnt := satInc 16 e.linkDownCnt })).event 0x0A8 (word p)
  else d

/-- What a lane's link does when a test mode takes it (R459). A strand that has been enabled since its test was accepted goes to
OFF (note 200). -/
def Dev.takeLane (d : Dev) (key : Nat) : Dev :=
  let cls := key / 256
  if cls = 0 then (if (d.strandOf key).state == .off then d else (d.enter key .off 0).kickPll)
  else if cls = 1 then (if d.ply.link == .down then d else d.plyLinkDown)
  else if cls = 2 then d.ethDown (key % 256)
  else if cls = 3 then d.event 0x0A0 0
  else d

/-- A lane's record as a mode finds it: a checker that is locked has counted up to now, and its lock ends; PRBS31 and near-end
loopback start its counts anew (R461). -/
def LaneTest.enter (x : LaneTest) (now mode : Nat) : LaneTest :=
  let y := { x with mode := mode, prbsLock := false, lockedFor := x.lockedFor + (if x.prbsLock then now - x.since else 0) }
  if mode = 1 ∨ mode = 3 then { y with errCnt := 0, lockedFor := 0 } else y

/-- A mode lands on a lane (R458 to R461); after the end of commissioning mode no test does (R456). Where the last test of the PCIe
lanes ends, the link trains anew (R460). -/
def landLoopback (key mode : Nat) (d : Dev) : Dev :=
  let q := (d.countErrors key).modLane key (fun x => x.enter d.now mode)
  if mode = 0 then (if d.pcieDown && !q.pcieDown then q.retrainPcie else q)
  else if !d.test.commissioning then d
  else if key / 256 = 3 ∧ d.pcieDown then q
  else q.takeLane key

/-- Key of a class and lane of the checker rows. -/
def classKey (c : LaneClass) (lane : Nat) : Nat :=
  laneKey (match c with | .strand => 0 | .ply => 1 | .eth => 2 | .pcie => 3) lane

/-- PRBS_CHECKER_LOCK: the checker runs in PRBS31 and near-end loopback (R458). -/
def execPrbsCheckerLock (cls : LaneClass) (lane : Fin 256) (s : State) : Host.Outcome State Fault Refusal :=
  onMain (fun d =>
    let x := d.laneTest (classKey cls lane.val)
    if (x.mode = 1 ∨ x.mode = 3) ∧ !x.prbsLock then
      d.modLane (classKey cls lane.val) (fun x => { x with prbsLock := true, since := d.now })
    else d) s

/-- PRBS_CHECKER_LOCK_LOST: 64 bit errors within 1,024 bits (R458). -/
def execPrbsCheckerLockLost (cls : LaneClass) (lane : Fin 256) (s : State) : Host.Outcome State Fault Refusal :=
  onMain (fun d =>
    let key := classKey cls lane.val
    if (d.laneTest key).prbsLock then
      let d := d.countErrors key
      d.modLane key (fun x =>
        { x with prbsLock := false, lockLost := true, errCnt := satAdd 32 x.errCnt 64
                 lockedFor := x.lockedFor + (d.now - x.since) })
    else d) s

/-! ### INJECT (R462, R463) -/

/-- The argument word that makes an INJECT wrong (R462, R463). -/
def Dev.injectBad (d : Dev) (cls lane dir action n rate : Nat) : Option Nat :=
  let lanes := if cls = 3 then 4 else d.laneCount cls
  let oneWay := (cls = 0 ∧ action = 4) ∨ (cls = 3 ∧ (action = 1 ∨ action = 4))
  if lanes ≤ lane then some 2
  else if 4 < action then some 3
  else if (action = 2 ∨ action = 3) ∧ n = 0 then some 3
  else if action ≠ 2 ∧ action ≠ 3 ∧ n ≠ 0 then some 3
  else if cls = 3 ∧ action = 2 then some 3
  else if dir = 1 ∧ oneWay then some 3
  else if 2 ^ 20 < rate then some 4
  else none

/-- The lane is in normal mode and its link is up (R463). -/
def Dev.injectReady (d : Dev) (cls lane : Nat) : Bool :=
  !(decide (cls < 3) && d.underTest cls lane) && !(d.landing.any (fun p => match p.1 with
    | .loopback k m => decide (cls < 3) && k == laneKey cls lane && decide (m ≠ 0)
    | _ => false)) &&
  (if cls = 0 then (d.strandOf lane).state == .active
   else if cls = 2 then (d.portOf lane).linkUp
   else if cls = 3 then !(d.canOf lane).config
   else true)

/-- Injections made under the action in force on a key: on a ply lane they follow from the time (R215). -/
def Dev.injectCount (d : Dev) (key : Nat) : Nat :=
  let i := d.injOf key
  if i.action = 0 then 0
  else if key / 512 = 1 then
    i.struckUnits ((d.now - i.since) / 8)
  else i.done

/-- INJECT: the reply to a stop waits until it lands. -/
def bodyInject : Body := fun r d =>
  let cls := bits (arg r 2) 1 0
  let lane := bits (arg r 2) 15 8
  let dir := bits (arg r 2) 16 16
  let action := bits (arg r 3) 2 0
  let n := bits (arg r 3) 15 8
  let rate := (arg r 4).toNat
  let key := injKey cls lane dir
  match d.injectBad cls lane dir action n rate with
  | some i => d.say (.badArg i)
  | none =>
    if action = 0 then
      let t := d.landTickOf (.inject key 0 0 0)
      let e : Dev := { d with test := { d.test with stops := d.test.stops ++ [{ req := r, key := key, tick := t }] } }
      (.ok [t], e.landFor r (.inject key 0 0 0))
    else if !d.test.commissioning then d.say (.wrongState 1)
    else if d.outputsOn then d.say .safetyLocked
    else if !d.injectReady cls lane then d.say (.wrongState 2)
    else d.doneAtTick r (.inject key action n rate)

/-- INJECT command. -/
def execInject (r : Req) (s : State) : Host.Outcome State Fault Refusal := onMain (iapin 0x0803 writes bodyInject r) s

/-- The reply to the first stop that waits on a key, with the number of injections that it has ended (R462). -/
def Dev.answerStop (d : Dev) (key n : Nat) : Dev :=
  match d.test.stops.find? (fun x => x.key == key) with
  | some x =>
    ({ d with test := { d.test with stops := d.test.stops.erase x } } : Dev).answer 0x0803 x.req (.ok [x.tick, word n])
  | none => d

/-- An injection or a stop lands; after the end of commissioning mode no injection does (R456). -/
def landInject (key action n rate : Nat) (d : Dev) : Dev :=
  let i : Injection := if action = 0 then {} else { action := action, n := n, rate := rate, since := d.now }
  if action ≠ 0 ∧ !d.test.commissioning then d
  else
    let e := { d with test := { d.test with injections := tblSet {} d.test.injections key i } }
    if action = 0 then e.answerStop key (d.injectCount key) else e

/-! ### End of commissioning (R456) -/

/-- Commissioning mode ends at this boundary. -/
def Dev.endCommissioning (d : Dev) : Dev :=
  if d.test.commissioning && (d.test.ending || decide (d.isl.readback ≠ 0)) then
    let keys := (d.test.lanes.filter (fun p => decide (p.2.mode ≠ 0))).map (·.1)
    let d := forEach keys (fun k d => landLoopback k 0 d) d
    let d := forEach (d.strands.map (·.1)) (fun k d => d.modStrand k (fun s => { s with withheld := none })) d
    ({ d with test := { d.test with commissioning := false, ending := false, injections := [] } }).setRaw 0x1C1 false
  else d

/-! ### CAPTURE (R395, R429, R437) -/

/-- CAPTURE: the ticks that the capture pool goes on for after a cut of a class in the mask. -/
def bodyCapture : Body := fun r d => d.doneAtTick r (.capture (arg r 2).toNat (bits (arg r 3) 15 0))

/-- CAPTURE command. -/
def execCapture (r : Req) (s : State) : Host.Outcome State Fault Refusal := onMain (iapin 0x0804 writes bodyCapture r) s

/-- CAPTURE lands: the pool runs until the next cut that the mask names. -/
def landCapture (ticks mask : Nat) (d : Dev) : Dev :=
  { d with test := { d.test with postCut := ticks, capMask := mask, capLeft := none } }

/-- Size of the capture pool (R395). -/
def poolSize : Nat := 0x1000000

/-- One byte appended to the capture pool ring. -/
def Dev.poolPut (d : Dev) (b : Byte) : Dev :=
  { d with bar2 := memPut d.bar2 (d.test.capPos % poolSize) b
           test := { d.test with capPos := (d.test.capPos + 1) % poolSize } }

/-- The count of post-cut ticks at a boundary. -/
def Dev.capBoundary (d : Dev) : Dev :=
  { d with test := { d.test with capLeft := d.test.capLeft.map (· - 1) } }

/-- The capture pool takes blocks. -/
def Dev.capturing (d : Dev) : Bool := d.test.capLeft != some 0

end Sys2Proof.Machine
end

