-- ==== Sys2Proof/Machine/Eth.lean ====
section
/-!
DEFINITION. Ethernet ports, PTP, launch queues, timestamp queues and the coordination protocol (R348 to R368).
-/

namespace Sys2Proof.Machine

/-! ### Sending -/

/-- The transparent clock is in use (R359). -/
def Dev.chained (d : Dev) : Bool :=
  d.part == .t9256 && (d.portOf 0).tcEn && decide ((d.portOf 0).mode = (d.portOf 1).mode) && decide ((d.portOf 0).mode ≠ 0)

/-- Time base of a domain: TB1 for PTP_DOM1, else TB0 (R353). -/
def Dev.tbOfDomain (d : Dev) (dom : BitVec 8) : Nat := if dom.toNat = d.eth.dom1 then 1 else 0

/-- A free deviation within ±b. -/
def within_ (b e : Nat) : Int := (Config.freeNat e % (2 * b + 1) : Nat) - (b : Int)

/-- The error of a timestamp of port p that R352 allows its mode, in ns. -/
def Dev.stampError (d : Dev) (p : Nat) : Nat := if (d.portOf p).mode = 1 then 2 else 4

/-- A timestamp, on time base n and in units of 2^-32 ns, of what passed port p `age` core cycles ago, with a latency adjustment in
ps and the error that R352 allows (R351). -/
def Dev.stamp (d : Dev) (p n adj age : Nat) : Int :=
  (d.baseAgo n age).getD (d.baseOf n).count + signed 16 adj * (2 ^ 32 : Nat) / 1000 + within_ (d.stampError p * 2 ^ 32) d.fresh

/-- An egress timestamp enters the queue of a port, or is dropped; where the firmware owns both servos, it takes the entry at once
(R355, note 181). -/
def Dev.queueStamp (d : Dev) (p : Nat) (m : PtpAt) (t : Int) : Dev :=
  let e : TsEntry := { seqId := m.seqId, msgType := m.typ, tb := d.tbOfDomain m.domain, domain := m.domain, count := t.toNat }
  if !d.eth.host0 && !d.eth.host1 then d
  else if (d.portOf p).ts.length < 16 then
    d.edge (d.modPort p (fun x => { x with ts := x.ts ++ [e] })) 8
  else (d.modPort p (fun x => { x with tsOvf := true, tsDrop := satInc 8 x.tsDrop })).event 0x0A9 (word p)

/-- Core cycles that a frame of n bytes, its FCS, preamble and delimiter take on the line of a port. -/
def Dev.wireCycles (d : Dev) (p n : Nat) : Nat := (n + 12) * (if (d.portOf p).mode = 1 then 1 else 10)

/-- Bytes go onto the line of a port, past the injector (R462, R463): a dropped frame is not sent, a corrupted one goes out spoilt, and
a reordered one follows the next. -/
def Dev.putOnLine (d : Dev) (p : Nat) (bytes : List Byte) : Dev :=
  let q := d.injectUnit (injKey 2 p 0)
  let d := q.2.modPort p (fun e => { e with lpiTx := false, wakeAt := min e.wakeAt d.now, idleAt := d.now + d.wireCycles p bytes.length })
  match q.1.map (·.action) with
  | some 4 => d.modPort p (fun e => { e with heldTx := some bytes })
  | some 1 => d
  | some a => d.modPort p (fun e =>
      { e with sent := e.sent ++ [bytes] ++ e.heldTx.toList, heldTx := none
               spoilt := e.spoilt ++ [(e.sent.length, a, (q.1.map (·.n)).getD 0)] })
  | none => d.modPort p (fun e => { e with sent := e.sent ++ [bytes] ++ e.heldTx.toList, heldTx := none })

/-- A frame of the launch queue goes out: an own event message leaves a timestamp, and in transparent-clock use a Delay_Req or
Pdelay_Req carries what its egress time is off its launch time (R351, R355, R360). -/
def Dev.sendOwn (d : Dev) (p : Nat) (f : LaunchFrame) : Dev :=
  match ptpOf f.bytes with
  | some m =>
    if m.event then
      if d.chained then
        let off := d.stamp p (f.base - 1) (d.portOf p).txLatAdj 0 / 65536 - (f.time : Int)
        d.useFresh.putOnLine p (if f.base ≠ 0 ∧ (m.typ = 1 ∨ m.typ = 2) then addCorrection f.bytes m off else f.bytes)
      else
        let t := d.stamp p (d.tbOfDomain m.domain) (d.portOf p).txLatAdj 0
        (d.useFresh.putOnLine p f.bytes).queueStamp p m t
    else d.putOnLine p f.bytes
  | none => d.putOnLine p f.bytes

/-- Time of a launch frame's time base in 2^-16 ns. -/
def Dev.launchNow (d : Dev) (f : LaunchFrame) : Nat := (d.baseOf (f.base - 1)).count / 2 ^ 16

/-- A timed frame is lost: its time base is INVALID, or its time lies further back than the launch error (R352, R357). -/
def Dev.launchLost (d : Dev) (f : LaunchFrame) : Bool :=
  !(d.baseOf (f.base - 1)).valid || decide (f.time + 524288 < d.launchNow f)

/-- The head is dropped (R357). -/
def Dev.missHead (d : Dev) (p : Nat) : Dev :=
  (d.modPort p (fun e => { e with queue := e.queue.drop 1, launchMiss := satInc 16 e.launchMiss })).event 0x0AA (word p)

/-! ### Low-power idle (R350) -/

/-- Core cycles that the transmitter of a port takes to leave LPI. -/
def Dev.wakeCycles (d : Dev) (p : Nat) : Nat :=
  let e := d.portOf p
  125 * (if e.twTx = 0 then Config.eeeWake e.mode else e.twTx)

/-- The transmitter is awake. -/
def Dev.txReady (d : Dev) (p : Nat) : Bool := !(d.portOf p).lpiTx && decide ((d.portOf p).wakeAt ≤ d.now)

/-- The head of the launch queue launches within the wake time and 1 µs, so that the transmitter wakes for it or is awake. -/
def Dev.launchSoon (d : Dev) (p : Nat) : Bool :=
  match (d.portOf p).queue with
  | f :: _ => decide (f.base ≠ 0) && decide (5 * f.time < 5 * d.launchNow f + (d.wakeCycles p + 1250) * 4 * 65536)
  | [] => false

/-- Core cycles until the head of the launch queue launches. -/
def Dev.cyclesToLaunch (d : Dev) (f : LaunchFrame) : Nat :=
  d.cyclesTo (f.base - 1) (((f.time * 2 ^ 16 : Nat) : Int) - ((d.baseOf (f.base - 1)).count : Int) : Int)

/-- A transmitter in LPI starts to wake, for a frame to send or because EEE_EN has cleared; one that has begun to wake for a launch
is awake 1 µs before that. -/
def Dev.wakeTx (d : Dev) (p : Nat) : Dev :=
  let at_ := match d.launchSoon p, (d.portOf p).queue with
    | true, f :: _ => min (d.wakeCycles p) (d.cyclesToLaunch f - 1250)
    | _, _ => d.wakeCycles p
  if (d.portOf p).lpiTx then d.modPort p (fun e => { e with lpiTx := false, wakeAt := d.now + at_ }) else d

/-! ### The queues of a port (R357, R358) -/

/-- Heads without a launch time go out while the link is up and the transmitter awake, and lost heads are dropped (R350, R357). -/
def Dev.settleQueue (d : Dev) (p : Nat) : Nat → Dev
  | 0 => d
  | n + 1 =>
    match (d.portOf p).queue with
    | [] => d
    | f :: _ =>
      if f.base = 0 then
        if !(d.portOf p).linkUp then d
        else if d.txReady p then Dev.settleQueue ((d.modPort p (fun e => { e with queue := e.queue.drop 1 })).sendOwn p f) p n
        else d.wakeTx p
      else if d.launchLost f then Dev.settleQueue (d.missHead p) p n
      else d

/-- A frame of the second queue would still be on the wire 100 ns before the launch of the head (R358). -/
def Dev.tooLong (d : Dev) (p len : Nat) : Bool :=
  match (d.portOf p).queue with
  | f :: _ =>
    if f.base = 0 then false
    else decide (f.time < d.launchNow f + (100 + (len + 12) * (if (d.portOf p).mode = 1 then 4 else 40) / 5) * 2 ^ 16)
  | [] => false

/-- The firmware's servo of a time base. -/
def Dev.servoOf (d : Dev) (n : Nat) : Servo := tblGet {} d.eth.servos n

/-- That servo changed by f. -/
def Dev.modServo (d : Dev) (n : Nat) (f : Servo → Servo) : Dev :=
  { d with eth := { d.eth with servos := tblMod {} d.eth.servos n f } }

/-- The firmware takes the transmit time of its own Delay_Req or Pdelay_Req (R353). -/
def Dev.noteSent (d : Dev) (p : Nat) (m : PtpAt) (t : Int) : Dev :=
  if m.typ = 1 then
    d.modServo (d.tbOfDomain m.domain) (fun s => { s with req := s.req.map (fun r => if r.1 = m.seqId then (r.1, some t) else r) })
  else if m.typ = 2 then
    d.modPort p (fun e => { e with pd := e.pd.map (fun x => if x.seqId = m.seqId then { x with sent := some t } else x) })
  else d

/-- An own message of the second queue goes out: an event message leaves a timestamp, which follows a two-step Pdelay_Resp in its
Follow_Up, with the correctionField of the request and the fraction that a timestamp has no room for; a one-step Pdelay_Resp carries its turnaround (R351, R353, R355, R358, R360). -/
def Dev.sendClock (d : Dev) (p : Nat) (f : SecondFrame) : Dev :=
  match ptpOf f.bytes with
  | none => d.putOnLine p f.bytes
  | some m =>
    if !m.event then d.putOnLine p f.bytes
    else
      let t := d.stamp p (d.tbOfDomain m.domain) (d.portOf p).txLatAdj 0
      let d := d.useFresh
      if d.chained then
        d.putOnLine p (match f.turn with | some i => addCorrection f.bytes m ((t - i) / 65536) | none => f.bytes)
      else
        let d := ((d.putOnLine p f.bytes).noteSent p m t).queueStamp p m t
        if m.typ = 3 then
          let b := d.ptpFrame p m.udp true (pdelayMessage p 0xA 0 (f.add + t / 65536 % 65536) t.toNat f.bytes m
            ((f.bytes.drop (m.off + 44)).take 10))
          d.modPort p (fun e => { e with second := e.second ++ [{ own := true, bytes := b }] })
        else d

/-- The residence of a frame that leaves port q and whose ingress on the other port started at core cycle t, in 2^-16 ns: measured on
the timestamp clock, scaled by TB0's RATE, between two timestamps (R352, R359). -/
def Dev.residence (d : Dev) (q t : Nat) : Int :=
  let cycles : Rat := ((d.now - t) * d.clk.tsRate : Nat) / (2 ^ 64 : Rat)
  (cycles * (16 / 5 * 65536) * (1 + (d.clk.tb0.rate : Rat) / 256000000000)).floor +
    (signed 16 (d.portOf q).txLatAdj - signed 16 (d.portOf (1 - q)).rxLatAdj) * 65536 / 1000 +
    within_ ((d.stampError q + d.stampError (1 - q)) * 65536) d.fresh

/-- A forwarded frame goes out; an event message carries its residence (R359). -/
def Dev.sendRelay (d : Dev) (q : Nat) (f : SecondFrame) : Dev :=
  match f.ingress, ptpOf f.bytes with
  | some t, some m => d.useFresh.putOnLine q (addCorrection f.bytes m (d.residence q t + f.add))
  | _, _ => d.putOnLine q f.bytes

/-- Frames of the second queue go out as far as they may (R350, R358). -/
def Dev.settleSecond (d : Dev) (p : Nat) : Nat → Dev
  | 0 => d
  | n + 1 =>
    match (d.portOf p).second with
    | [] => d
    | f :: _ =>
      if (d.portOf p).linkUp && !d.tooLong p f.bytes.length then
        if d.txReady p then
          let d := d.modPort p (fun e => { e with second := e.second.drop 1 })
          Dev.settleSecond (if f.own then d.sendClock p f else d.sendRelay p f) p n
        else d.wakeTx p
      else d

/-- Both queues of a port. -/
def Dev.settlePort (d : Dev) (p : Nat) : Dev :=
  let d := d.settleQueue p ((d.portOf p).queue.length + 1)
  d.settleSecond p (2 * (d.portOf p).second.length + 1)

/-- A frame enters the launch queue of a port. -/
def Dev.enqueue (d : Dev) (p : Nat) (f : LaunchFrame) : Dev :=
  (d.modPort p (fun e => if e.queue.length < 32 then { e with queue := e.queue ++ [f] } else e)).settlePort p

/-- An own message enters the second queue of a port (R358). -/
def Dev.sendSecond (d : Dev) (p : Nat) (f : SecondFrame) : Dev :=
  (d.modPort p (fun e => { e with second := e.second ++ [f] })).settlePort p

/-- The clock at the launch time of a frame, where that is reached in this tick. -/
def Dev.atLaunch (d : Dev) (f : LaunchFrame) : Option Dev :=
  d.timeUp (d.now + d.cyclesToLaunch f)

/-- The clock where a transmitter that frames wait for is awake (R350). -/
def Dev.atWake (d : Dev) (p : Nat) : Dev := if (d.portOf p).wakeAt ≤ d.now then d else (d.timeUp (d.portOf p).wakeAt).getD d

/-- LAUNCH: the head reaches its launch time, and is sent, or dropped; a waking transmitter is awake (R350, R357). -/
def execLaunch (p : Fin 2) (s : State) : Host.Outcome State Fault Refusal :=
  onMain (fun d =>
    let d := d.atWake p.val
    let d := match (d.portOf p.val).queue with
      | f :: _ =>
        if f.base = 0 then d
        else if d.launchLost f then d.missHead p.val
        else match d.atLaunch f with
          | none => d
          | some e =>
            if !(e.portOf p.val).linkUp then e.missHead p.val
            else (e.modPort p.val (fun x => { x with queue := x.queue.drop 1 })).sendOwn p.val f
      | [] => d
    d.settlePort p.val) s

/-- ETH_LINK_UP (R348, R357). -/
def execEthLinkUp (p : Fin 2) (s : State) : Host.Outcome State Fault Refusal :=
  onMain (fun d =>
    if p.val < d.portCount ∧ (d.portOf p.val).mode ≠ 0 ∧ !d.underTest 2 p.val then
      (d.modPort p.val (fun e =>
        { e with linkUp := true, idleAt := d.now, anDone := decide (e.mode = 3) || (decide (e.mode = 2) && e.anEn) })).settlePort p.val
    else d) s

/-- HOLD_LIMIT_EXPIRY: HOLD_S, by the model's clock, exceeds a HOLD_LIMIT that is not 0 (R339); frames with that time base are
dropped (R357). -/
def execHoldLimitExpiry (n : Fin 2) (s : State) : Host.Outcome State Fault Refusal :=
  onMain (fun d =>
    let t := d.baseOf n.val
    if t.state == .holdover && decide (t.holdLimit ≠ 0) && decide (t.holdLimit < t.holdCount / 1250000000) then
      forEach (List.range d.portCount) (fun p d => d.settlePort p) ((d.invalidate n.val).markBases d)
    else d) s

/-- FRAME_SEND (R357, R360, R429): the bytes of a frame but for its FCS, which with it is at most 1,522 bytes long (R348). -/
def bodyFrameSend : Body := fun r d =>
  let p := bits (arg r 2) 0 0
  let base := bits (arg r 2) 2 1
  let off := (arg r 6).toNat
  let len := (arg r 7).toNat
  if d.portCount ≤ p ∨ base = 3 then d.say (.badArg 2)
  else if 1000000000 ≤ (arg r 5).toNat ∧ base ≠ 0 then d.say (.badArg 5)
  else if off < areaLo ∨ areaEnd < off + len then d.say (.badArg 6)
  else if len = 0 ∨ 1518 < len then d.say (.badArg 7)
  else if base ≠ 0 && !(d.baseOf (base - 1)).valid then d.say .wrongState
  else if 32 ≤ (d.portOf p).queue.length then d.say .busy
  else
    let sec := join48 (arg r 3) (arg r 4)
    let ns := (arg r 5).toNat
    let raw := memBytes d.bar2 off len
    let bytes := match ptpOf raw with
      | some m => if d.chained && (m.typ == 1 || m.typ == 2) && decide (base ≠ 0) then setOrigin raw m sec ns else raw
      | none => raw
    let d := d.enqueue p { base := base, time := (sec * 1000000000 + ns) * 2 ^ 16, bytes := bytes }
    (.ok [d.nowTick], d)

/-- FRAME_SEND command. -/
def execFrameSend (r : Req) (s : State) : Host.Outcome State Fault Refusal :=
  onMain (iapin 0x0713 writes bodyFrameSend r) s

/-- A port may enter LPI: EEE_EN, a link, nothing to send and no launch that it must be awake for (R350). -/
def Dev.mayIdle (d : Dev) (p : Nat) : Bool :=
  let e := d.portOf p
  e.eeeEn && e.linkUp && e.second.isEmpty && e.queue.all (fun f => f.base != 0) && !d.launchSoon p

/-- LPI_ENTRY: LPI_IDLE without a frame to send (R350). -/
def execLpiEntry (p : Fin 2) (s : State) : Host.Outcome State Fault Refusal :=
  onMain (fun d =>
    match d.timeUp ((d.portOf p.val).idleAt + 1250 * (d.portOf p.val).lpiIdle) with
    | some e => if e.mayIdle p.val then e.modPort p.val (fun x => { x with lpiTx := true }) else d
    | none => d) s

/-! ### Port record (R361) -/

/-- The six words of a port's record. -/
def Dev.portWords (d : Dev) (p : Nat) : List Word :=
  let e := d.portOf p
  [ pack [(30, e.mode), (29, b1 e.anEn), (28, b1 e.eeeEn), (27, b1 (e.tcEn && decide (p = 0))),
          (26, b1 (e.tcP2p && decide (p = 0))), (16, e.lpiIdle), (0, e.twTx)],
    pack [(31, b1 e.linkUp), (30, b1 (e.lpiTx && !d.launchSoon p)), (29, b1 e.lpiRx), (28, b1 e.anDone), (0, e.linkDownCnt)],
    pack [(16, e.txLatAdj), (0, e.rxLatAdj)], e.linkDelay, pack [(16, e.launchMiss), (0, e.launchDrop)],
    pack [(31, b1 e.ptpTag), (28, e.ptpPcp), (16, e.ptpVid), (0, e.pauseCnt)] ]

/-- Word 0 of a port's record is refused (R359, R361): LPI_IDLE 0, a wake time below that of IEEE 802.3, or TC_EN on the
T9128. -/
def Dev.portWord0Bad (d : Dev) (w : Word) : Bool :=
  decide (bits w 23 16 = 0) || (decide (bits w 15 0 ≠ 0) && decide (bits w 15 0 < Config.eeeWake (bits w 31 30))) ||
  (bit w 27 && d.part == .t9128)

/-- PORT: every field lands at tick. -/
def bodyPort : Body := fun r d =>
  match recForm r d.portCount 6 with
  | none => d.say (.badArg 2)
  | some f =>
    if !r.write then d.say (f.readReply r (d.portWords f.index))
    else if ((f.wordFor 0).map d.portWord0Bad).getD false then d.say (.badArg (f.argOf 0))
    else d.doneAtTick r (.port f.index f.first (f.data.take f.count))

/-- PORT command. -/
def execPort (r : Req) (s : State) : Host.Outcome State Fault Refusal := onMain (iapin 0x0030 readsRec bodyPort r) s

/-- The settings of a port with the carried words in place. -/
def EthPort.write (e : EthPort) (p : Nat) (f : RecForm) : EthPort :=
  let e := match f.wordFor 0 with
    | some w => { e with mode := bits w 31 30, anEn := bit w 29, eeeEn := bit w 28, tcEn := bit w 27 && decide (p = 0)
                         tcP2p := bit w 26 && decide (p = 0), lpiIdle := bits w 23 16, twTx := bits w 15 0 }
    | none => e
  let e := match f.wordFor 2 with
    | some w => { e with txLatAdj := bits w 31 16, rxLatAdj := bits w 15 0 }
    | none => e
  let e := match f.wordFor 3 with
    | some w => { e with linkDelay := w }
    | none => e
  match f.wordFor 5 with
  | some w => { e with ptpTag := bit w 31, ptpPcp := bits w 30 28, ptpVid := bits w 27 16 }
  | none => e

/-- Forwarding has changed at this boundary: frames whose ingress started earlier are not corrected (R368). -/
def Dev.chainChanged (d : Dev) (was : Bool) : Dev :=
  let d := { d with eth := { d.eth with chainAt := d.now, chainWas := was } }
  forEach [0, 1] (fun p d => d.modPort p (fun e => { e with second := e.second.map (fun f => { f with ingress := none }) })) d

/-- A write of a port record lands; a transmitter whose EEE_EN clears leaves LPI as before a frame, and a change of MODE restarts the
link (R350, R361). -/
def landPort (p first : Nat) (words : List Word) (d : Dev) : Dev :=
  let f : RecForm := { index := p, first := first, count := words.length, data := words }
  let old := (d.portOf p).mode
  let was := d.chained
  let p2p := (d.portOf 0).tcP2p
  let d := d.modPort p (fun e => e.write p f)
  let d := if (d.portOf p).eeeEn then d else d.wakeTx p
  let d := if d.chained == was && (d.portOf 0).tcP2p == p2p then d else d.chainChanged was
  if (d.portOf p).mode = old then d else d.ethDown p

/-- ETH_LINK_DOWN (R348). -/
def execEthLinkDown (p : Fin 2) (s : State) : Host.Outcome State Fault Refusal := onMain (fun d => d.ethDown p.val) s

/-! ### Transmit timestamp queue (R355, R356) -/

/-- Words of an entry: ENTRY_0 to ENTRY_3. -/
def TsEntry.words (e : TsEntry) : List Word :=
  let ns := e.count / 2 ^ 32
  [ pack [(16, e.seqId.toNat), (12, e.msgType), (10, e.tb), (0, e.domain.toNat)],
    pack [(0, ns % 1000000000)], word (ns / 1000000000),
    pack [(16, e.count / 2 ^ 16 % 65536), (0, ns / 1000000000 / 2 ^ 32 % 65536)] ]

/-- A read of the queue by a host while the firmware owns both servos reads zero and locks nothing. -/
def Dev.tsHidden (d : Dev) (m : Master) : Bool := (hostIndex (masterId m)).isSome && !d.eth.host0 && !d.eth.host1

/-- Word i of the head of a port's queue as a master sees it. -/
def Dev.tsWord (d : Dev) (m : Master) (p i : Nat) : Word :=
  if d.tsHidden m then 0 else match (d.portOf p).ts with
    | e :: _ => wat e.words i
    | [] => 0

/-- A read of ENTRY_0 locks the head. -/
def Dev.readEntry0 (m : WordRead) (p : Nat) (d : Dev) : Dev :=
  let w := d.tsWord m.master p 0
  let lock := !d.tsHidden m.master && !(d.portOf p).ts.isEmpty
  (d.modPort p (fun e => { e with tsLock := e.tsLock || lock })).giveBytes m.bytes w

/-- A read of ENTRY_3 removes the locked head. -/
def Dev.readEntry3 (m : WordRead) (p : Nat) (d : Dev) : Dev :=
  let w := d.tsWord m.master p 3
  let d := if d.tsHidden m.master then d
    else d.modPort p (fun e => if e.tsLock then { e with ts := e.ts.drop 1, tsLock := false } else e)
  d.giveBytes m.bytes w

/-- ENTRY_0_READ. -/
def execEntry0Read (m : WordRead) (p : Fin 2) (s : State) : Host.Outcome State Fault Refusal :=
  onMain (fun d => d.served m.master (Dev.readEntry0 m p.val)) s

/-- ENTRY_3_READ. -/
def execEntry3Read (m : WordRead) (p : Fin 2) (s : State) : Host.Outcome State Fault Refusal :=
  onMain (fun d => d.served m.master (Dev.readEntry3 m p.val)) s

/-! ### Servos (R353, R354) -/

/-- PTP: domains and servo owners (R354, R429). -/
def bodyPtp : Body := fun r d =>
  if bits (arg r 2) 7 0 = bits (arg r 2) 15 8 then d.say (.badArg 2) else d.doneAtTick r (.ptp (arg r 2))

/-- PTP command. -/
def execPtp (r : Req) (s : State) : Host.Outcome State Fault Refusal := onMain (iapin 0x0712 writes bodyPtp r) s

/-- PTP settings land. -/
def landPtp (w : Word) (d : Dev) : Dev :=
  d.edge { d with eth := { d.eth with dom0 := bits w 7 0, dom1 := bits w 15 8, host0 := bit w 16, host1 := bit w 17 } } 8

/-! ### Coordination (R362 to R367) -/

/-- The bytes of a coordination frame on the line: addresses, tag, EtherType and words (R362). -/
def frameOf (dst src : BitVec 48) (tci : Option (BitVec 16)) (ws : List Word) : List Byte :=
  putField (putField [] 0 6 dst.toNat) 6 6 src.toNat ++
  (match tci with | some t => putField [] 0 2 0x8100 ++ putField [] 0 2 t.toNat | none => []) ++ putField [] 0 2 0x88B5 ++ wordsBytes ws

/-- The bytes of a coordination frame of the device, under COORD_VID and COORD_PCP (R362, R366). -/
def Dev.coordBytes (d : Dev) (dst src : BitVec 48) (ws : List Word) : List Byte :=
  frameOf dst src (some (BitVec.ofNat 16 (d.cfg.coordPcp % 8 * 8192 + d.cfg.coordVid % 4096))) ws

/-- A coordination frame is made and queued; SEQ rises with every frame (R362, R366). -/
def Dev.sendCoord (d : Dev) (typ : Nat) (body : List Word) (dst : Nat) (mac : BitVec 48) (p : Nat) : Dev :=
  let d := { d with eth := { d.eth with coordSeq := d.eth.coordSeq + 1 } }
  let head := [pack [(24, 1), (16, typ), (0, 4 * (6 + body.length))], d.cfg.campusId,
    pack [(16, d.cfg.devId), (0, dst)], word d.eth.coordSeq] ++ body
  d.enqueue p { base := 0, time := 0, bytes := d.coordBytes mac (Config.macAddress p) (head ++ coordTag d.cfg.coordKey head) }

/-- Replies whose time has come leave (R366). -/
def Dev.flushReplies (d : Dev) : Dev :=
  if d.eth.reports.all (fun r => decide (d.now < r.time)) then d
  else
    let due := d.eth.reports.filter (fun r => decide (r.time ≤ d.now))
    let d := { d with eth := { d.eth with reports := d.eth.reports.filter (fun r => decide (d.now < r.time)) } }
    due.foldl (fun d r => d.sendCoord r.typ r.body r.dst r.mac r.port) d

/-- An ARM equal to the one in ARMED or COMMITTED (R364). -/
def TickSt.sameArm (t : TickSt) (e tgt set : Nat) (campus : Bool) : Bool :=
  t.commit != .idle && t.epoch.toNat == e && t.target == tgt && t.set == set && t.campus == campus

/-- An ARM of a coordinator judged (R55, R364). -/
def Dev.coordArm (d : Dev) (ws : List Word) : Judgement × Dev :=
  let e := (wat ws 4).toNat
  let tgt := join48 (wat ws 5) (wat ws 6)
  let set := (wat ws 7).toNat
  let campus := bit (wat ws 8) 0
  if d.tk.sameArm e tgt set campus then ({ status := 0, result := if d.tk.commit = .armed then 1 else 5 }, d)
  else if 64 ≤ set then ({ status := 0x0102 }, d)
  else d.judgeArm e tgt set campus

/-- The commit logic judges an ARM or ABORT frame, and its reply waits for its time (R364, R366). -/
def Dev.judgeCoord (d : Dev) (w : CoordWait) : Dev :=
  let q := if bits (wat w.words 0) 23 16 = 1 then d.coordArm w.words else d.judgeAbort (wat w.words 4).toNat
  let d := q.2
  ({ d with eth := { d.eth with reports := d.eth.reports ++ [d.coordOut w q.1.status q.1.reason q.1.result] } }).flushReplies

/-- ARM and ABORT frames that have come in this tick reach the commit logic after its Iapin commands (R364, R368). -/
def Dev.judgeWaiting (d : Dev) : Dev :=
  d.eth.coordWait.foldl Dev.judgeCoord { d with eth := { d.eth with coordWait := [] } }

/-- The body of an epoch report (R365). -/
def Dev.reportBody (d : Dev) (cause : Nat) : List Word :=
  let t := d.tk
  let ps := if d.isMember then d.ply.pstate.code else 7
  let cs := match t.commit with | .idle => 0 | .armed => 1 | .committed => 2
  [ t.appliedEpoch, word t.appliedTick,
    pack [(28, cause), (27, b1 t.alignOk), (24, ps), (16, cs), (0, t.appliedTick / 2 ^ 32 % 65536)],
    t.epoch, if d.eth.discardReport then t.discardedEpoch else 0 ]

/-- An epoch report leaves for the sender of the last coordination frame, or for everyone (R365, R366). -/
def Dev.sendReport (d : Dev) (cause : Nat) : Dev :=
  let body := d.reportBody cause
  let d := { d with eth := { d.eth with discardReport := false } }
  d.sendCoord 0x83 body d.eth.lastSrc (d.eth.lastMac.getD (BitVec.allOnes 48)) d.eth.lastPort

/-- The code of a report's cause. -/
def reportCode : ReportCause → Nat
  | .apply => 1 | .discard => 2 | .periodic => 3 | .query => 4

/-- Ticks between PERIODIC reports: floor(500 ms ÷ tick length) (R366). -/
def Dev.reportTicks (d : Dev) : Nat := 625000000 / d.tickCycles

/-- A PERIODIC report is due in this tick (R366). -/
def Dev.periodicDue (d : Dev) : Bool :=
  d.tk.seqRun && d.eth.periodic != some d.tk.tick && decide (d.tk.tick % d.reportTicks = 3 * d.cfg.devId % d.reportTicks)

/-- The first report of a cause that is owed and whose time has come (R366). -/
def Dev.owedNow (d : Dev) (c : ReportCause) : Option (ReportCause × Option Nat) :=
  d.eth.owed.find? (fun p => p.1 == c && (match p.2 with | some t => decide (t ≤ d.now) | none => false))

/-- EPOCH_REPORT: an APPLY or DISCARD report that is owed leaves once its delay has passed, a PERIODIC one in its tick, and
the answer to a QUERY as an ARM_REPLY does (R58, R366). -/
def execEpochReport (cause : ReportCause) (s : State) : Host.Outcome State Fault Refusal :=
  onMain (fun d =>
    match cause with
    | .apply | .discard =>
      match d.owedNow cause with
      | some p => ({ d with eth := { d.eth with owed := d.eth.owed.erase p } }).sendReport (reportCode cause)
      | none => d
    | .periodic =>
      if d.periodicDue then ({ d with eth := { d.eth with periodic := some d.tk.tick } }).sendReport 3 else d
    | .query => d.flushReplies) s

/-- DISCARD reports count from the first boundary at or after their discard (R366). -/
def Dev.owedBoundary (d : Dev) : Dev := d.oweFrom d.now

/-- A coordination frame is wrong in VERSION, length, CAMPUS_ID, TAG, SEQ, SRC or DST (R363). -/
def Dev.coordBad (d : Dev) (ws : List Word) : Bool :=
  let n := ws.length
  let src := bits (wat ws 2) 31 16
  let dst := bits (wat ws 2) 15 0
  decide (n < 6) || bits (wat ws 0) 31 24 != 1 || wat ws 1 != d.cfg.campusId ||
  coordTag d.cfg.coordKey (ws.take (n - 2)) != ws.drop (n - 2) ||
  (match tblGet none d.eth.lastSeqOf src with
    | some q => decide ((wat ws 3).toNat ≤ q)
    | none => false) ||
  (decide (src < 0xC000) && decide (bits (wat ws 0) 23 16 < 0x80)) ||
  (dst != 0xFFFF && dst != d.cfg.devId && dst != d.cfg.peerId)

/-- An accepted coordination frame is acted on by its TYPE (R363, R364). -/
def Dev.coordAct (d : Dev) (p : Nat) (ws : List Word) (mac : BitVec 48) : Dev :=
  let src := bits (wat ws 2) 31 16
  let wait : CoordWait := { words := ws, mac := mac, port := p }
  match bits (wat ws 0) 23 16 with
  | 0x01 | 0x02 =>
    if d.tk.seqRun then { d with eth := { d.eth with coordWait := d.eth.coordWait ++ [wait] } } else d.judgeCoord wait
  | 0x03 =>
    let out : CoordOut := { typ := 0x83, body := d.reportBody 4, dst := src, mac := mac, time := d.now + d.coordDelay, port := p }
    ({ d with eth := { d.eth with reports := d.eth.reports ++ [out], discardReport := false } }).flushReplies
  | _ => d

/-- A coordination frame for this device is checked and acted on (R363). -/
def Dev.takeCoord (d : Dev) (p : Nat) (f : CoordFrame) : Dev :=
  if d.coordBad f.words then { d with eth := { d.eth with coordDrop := d.eth.coordDrop + 1 } }
  else
    let src := bits (wat f.words 2) 31 16
    let seqs := tblSet none d.eth.lastSeqOf src (some (wat f.words 3).toNat)
    let d := { d with eth := { d.eth with lastSeqOf := seqs, lastMac := some f.srcMac, lastPort := p, lastSrc := src } }
    if d.ply.role == .single || (d.isMember && d.ply.pstate == .active) then d.coordAct p f.words f.srcMac else d

/-! ### The firmware's clock (R353, R354, R359, R360) -/

/-- The servo of time base n belongs to the host. -/
def Dev.hostServo (d : Dev) (n : Nat) : Bool := if n = 0 then d.eth.host0 else d.eth.host1

/-- The firmware sends a Delay_Req (type 1) or Pdelay_Req (type 2) of time base n on port p: in transparent-clock use with a launch
time that it chooses, else from the second queue (R353, R358, R360). -/
def Dev.sendRequest (d : Dev) (p n typ dom : Nat) (udp : Bool) : Dev :=
  let seq := (d.servoOf n).reqSeq
  let d := d.modServo n (fun s => { s with reqSeq := s.reqSeq + 1 })
  let note := fun (t : Option Int) (d : Dev) =>
    if typ = 1 then d.modServo n (fun s => { s with req := some (seq, t) })
    else d.modPort p (fun e => { e with pd := some { base := n, seqId := seq, sent := t } })
  if d.chained then
    if (d.baseOf n).valid && decide ((d.portOf p).queue.length < 32) then
      let ns := (d.baseOf n).count / 2 ^ 32 + 1 + Config.freeNat d.fresh % 2 ^ 30
      let b := d.ptpFrame p udp (typ == 2) (requestMessage p typ dom seq (ns * 2 ^ 32))
      ((note (some ((ns * 2 ^ 32 : Nat) : Int)) d).useFresh).enqueue p { base := n + 1, time := ns * 2 ^ 16, bytes := b }
    else d
  else (note none d).sendSecond p { own := true, bytes := d.ptpFrame p udp (typ == 2) (requestMessage p typ dom seq 0) }

/-- The firmware measures the path delay: when, and by which of the two mechanisms, is free (R353, R354, note 181). -/
def Dev.askDelay (d : Dev) (p n : Nat) (m : PtpAt) : Dev :=
  let k := Config.freeNat d.fresh % 3
  if k = 0 then d.useFresh else d.useFresh.sendRequest p n k m.domain.toNat m.udp

/-- The Sync before on which the servo may reckon: the base has not jumped since. -/
def Dev.lastSync (d : Dev) (n : Nat) : Option (Nat × Int × Int) :=
  (d.servoOf n).last.filter (fun x => decide (x.1 < d.now) && (d.baseOf n).steady x.1)

/-- A set or step that a servo sends to an INVALID base on a Sync with an offset: the offset stepped out to within `a` ns, or beyond
the range of a step the master's time set (R340, R354, note 102). -/
def Dev.servoFirst (d : Dev) (n a : Nat) (offset : Int) : Dev :=
  if offset.natAbs < 2 ^ 31 * 1000000000 * 2 ^ 32 then (d.land (.tbStep n (-offset + within_ (a * 2 ^ 32) d.fresh))).useFresh
  else
    let ns := tbWrap ((d.baseOf n).count - offset) / 2 ^ 32
    d.land (.tbSet n (ns / 1000000000) (ns % 1000000000))

/-- RATE after a Sync with an offset, by the drift since the Sync before on which the base stood at `off` with `left` to slew: it
takes the drift out to within `a` ns until the next (R352, note 102). -/
def servoRate (rate left : Int) (a cycles : Nat) (offset : Int) (off leftThen : Int) (e : Nat) : Int :=
  let x : Rat := ((offset - off : Int) : Rat) / (2 ^ 24 : Nat) - ((leftThen - left : Int) : Rat)
  let k : Rat := 1250000000 / (cycles : Rat)
  rate - (x * k).floor + within_ ((a : Rat) * 256 * k).floor.toNat e

/-- A port of a peer-to-peer transparent clock: the firmware, where it owns a servo, measures the delay of its link with a
Pdelay_Req, when and over which transport being free (R359, note 181). -/
def Dev.askPeer (d : Dev) (p : Nat) : Dev :=
  let k := Config.freeNat d.fresh % 3
  if !d.chained || !(d.portOf 0).tcP2p || !(d.portOf p).linkUp || decide (k = 0) then d
  else if !d.eth.host0 then d.useFresh.sendRequest p 0 2 d.eth.dom0 (k == 1)
  else if !d.eth.host1 then d.useFresh.sendRequest p 1 2 d.eth.dom1 (k == 1)
  else d

/-- The ports at a boundary or the end of a period: lost heads are dropped and waiting frames go (R357, R368), a peer-to-peer clock
may measure its links, and the receiver of a link follows its partner's LPI, which no command brings and is free (R350, note 181). -/
def Dev.portsBoundary (d : Dev) : Dev :=
  forEach (List.range d.portCount) (fun p d =>
    let d := (d.settlePort p).askPeer p
    if (d.portOf p).linkUp then (d.modPort p (fun e => { e with lpiRx := decide (Config.freeNat d.fresh % 2 = 1) })).useFresh else d) d

/-- The firmware servo accepts a Sync on port p with an offset in 2^-32 ns (R354): LOCKED after 16 offsets in a row within 100 ns.
DESIGN CHOICE (note 102): its corrections take the offset and the drift since the Sync before out, each to within 1 ns on
10GBASE-R and 2 ns else, with which the errors of the stamps keep the device time error of R352; the first RATE is free. -/
def Dev.servoSync (d : Dev) (n p : Nat) (offset : Int) : Dev :=
  let good := if offset.natAbs ≤ 100 * 2 ^ 32 then tblGet 0 d.eth.goodSyncs n + 1 else 0
  let d := { d with eth := { d.eth with goodSyncs := tblSet 0 d.eth.goodSyncs n (min good 16) } }
  let t := d.baseOf n
  let a := if (d.portOf p).mode = 1 then 1 else 2
  let e := d.fresh
  let d := { d with fresh := e + 2 }
  let left := t.slewLeft + d.slewWaiting n
  let most : Nat := if d.aligned n then 10240000 else 256000000
  let rate := match d.lastSync n with
    | some (c, off, leftThen) => servoRate t.rate left a (d.now - c) offset off leftThen e
    | none => within_ most e
  let d := d.land (.tbRate n (clampI (-most) most rate))
  let first := !t.valid && !d.aligned n
  let v := clampI (-8388000 * 256) (8388000 * 256) (-(offset / 2 ^ 24) + within_ (a * 256) (e + 1))
  let d := if first then d.servoFirst n a offset else d.land (.tbSlew n (v - left))
  let d := d.modServo n (fun s => { s with last := if first then none else some (d.now, offset, v) })
  if 16 ≤ good ∧ t.state = .holdover then d.land (.tbState n 1) else d

/-- PTP_SERVO_HOLDOVER: no Sync for 3 intervals (R354). -/
def execPtpServoHoldover (n : Fin 2) (s : State) : Host.Outcome State Fault Refusal :=
  onMain (fun d =>
    if d.hostServo n.val then d
    else
      let d := { d with eth := { d.eth with goodSyncs := tblSet 0 d.eth.goodSyncs n.val 0 } }
      if (d.baseOf n.val).state = .locked then d.land (.tbState n.val 2) else d) s

/-- A Sync's times are complete: its ingress time less its transmission time and corrections (R354). -/
def Dev.syncTime (d : Dev) (n p : Nat) (diff : Int) (m : PtpAt) : Dev :=
  let s := d.servoOf n
  ((d.modServo n (fun s => { s with diff := some diff, sync := none })).servoSync n p (diff - s.delay)).askDelay p n m

/-- The message comes from the master that the best master clock algorithm has chosen, on its port. -/
def Dev.fromMaster (d : Dev) (n p : Nat) (l : List Byte) (m : PtpAt) : Bool :=
  match (d.servoOf n).master d.now with
  | some f => f.source == sourceAt l m && f.port == p
  | none => false

/-- A Sync of the master, one-step or two-step (R353). -/
def Dev.takeSync (d : Dev) (n p : Nat) (l : List Byte) (m : PtpAt) (ingress : Int) : Dev :=
  if !d.fromMaster n p l m then d
  else if twoStep l m then d.modServo n (fun s => { s with sync := some (m.seqId, ingress - corrAt l m) })
  else d.syncTime n p (ingress - stampAt l m - corrAt l m) m

/-- The Follow_Up of a two-step Sync. -/
def Dev.takeFollowUp (d : Dev) (n p : Nat) (l : List Byte) (m : PtpAt) : Dev :=
  match (d.servoOf n).sync with
  | some (q, x) => if d.fromMaster n p l m && q == m.seqId then d.syncTime n p (x - stampAt l m - corrAt l m) m else d
  | none => d

/-- A Delay_Resp to the request in progress gives the mean path delay. -/
def Dev.takeDelayResp (d : Dev) (n p : Nat) (l : List Byte) (m : PtpAt) : Dev :=
  let s := d.servoOf n
  match s.req, s.diff with
  | some (q, some t), some v =>
    if q == m.seqId && requesterAt l m == (Config.portIdentity p).toNat then
      d.modServo n (fun s => { s with delay := (v + (stampAt l m - t - corrAt l m)) / 2, req := none })
    else d
  | _, _ => d

/-- A measured link delay is written to LINK_DELAY, and serves the servo whose master is on that port (R359). -/
def Dev.linkMeasured (d : Dev) (n p : Nat) (v : Int) : Dev :=
  (d.modPort p (fun e => { e with linkDelay := sword (clampI 0 (2 ^ 32 - 1) (v / 65536)), pd := none })).modServo n
    (fun s => if (s.master d.now).map (·.port) = some p then { s with delay := v } else s)

/-- A Pdelay_Resp to the request of port p, one-step or two-step (R353, R359). -/
def Dev.takePdelayResp (d : Dev) (p : Nat) (l : List Byte) (m : PtpAt) (ingress : Int) : Dev :=
  match (d.portOf p).pd with
  | some x =>
    match x.sent with
    | some t =>
      if x.seqId ≠ m.seqId ∨ requesterAt l m ≠ (Config.portIdentity p).toNat then d
      else if twoStep l m then
        d.modPort p (fun e => { e with pd := some { x with part := some (ingress - t + stampAt l m - corrAt l m) } })
      else d.linkMeasured x.base p ((ingress - t - corrAt l m) / 2)
    | none => d
  | none => d

/-- The Follow_Up of a two-step Pdelay_Resp. -/
def Dev.takePdelayFollowUp (d : Dev) (p : Nat) (l : List Byte) (m : PtpAt) : Dev :=
  match (d.portOf p).pd with
  | some x =>
    match x.part with
    | some v => if x.seqId = m.seqId then d.linkMeasured x.base p ((v - stampAt l m - corrAt l m) / 2) else d
    | none => d
  | none => d

/-- The firmware answers a Pdelay_Req on its port: one-step in a chain, with the turnaround to come in the correctionField, else
two-step with the ingress time, and the request's correctionField for the Follow_Up (R353, R359, R360, note 27). -/
def Dev.answerPdelay (d : Dev) (p : Nat) (b : List Byte) (m : PtpAt) (ingress : Int) : Dev :=
  let req := (b.drop (m.off + 20)).take 10
  if d.chained then
    d.sendSecond p { own := true, bytes := d.ptpFrame p m.udp true (pdelayMessage p 3 0 (fieldAt b (m.off + 8) 8) 0 b m req)
                     turn := some ingress }
  else
    let cf := signed 64 (fieldAt b (m.off + 8) 8)
    let b := d.ptpFrame p m.udp true (pdelayMessage p 3 0x0200 (-(ingress / 65536 % 65536)) ingress.toNat b m req)
    d.sendSecond p { own := true, bytes := b, add := cf }

/-- A message of a domain whose servo the firmware owns, by its type (R353, R354). -/
def Dev.takePtp (d : Dev) (n p : Nat) (l : List Byte) (m : PtpAt) (ingress : Int) : Dev :=
  match m.typ with
  | 0x0 => d.takeSync n p l m ingress
  | 0x2 => d.answerPdelay p l m ingress
  | 0x3 => d.takePdelayResp p l m ingress
  | 0x8 => d.takeFollowUp n p l m
  | 0x9 => d.takeDelayResp n p l m
  | 0xA => d.takePdelayFollowUp p l m
  | 0xB => d.modServo n (fun s => s.announce d.now p l m)
  | _ => d

/-- A message and its ingress timestamp are written to the host's receive ring in the BAR2 window (R354, R395, note 27). -/
def Dev.toHostRing (d : Dev) (l : List Byte) (ingress : Int) : Dev :=
  let bs := Config.ringEntry l ingress
  let put := fun (m : Mem) (x : Byte × Nat) =>
    memPut m (0x1200000 + (Config.ptpRing.1 + (d.eth.ringPos + x.2) % (Config.ptpRing.2 + 1)) % 0x180000) x.1
  { d with bar2 := bs.zipIdx.foldl put d.bar2
           eth := { d.eth with hostRing := d.eth.hostRing ++ [bs], ringPos := d.eth.ringPos + bs.length } }

/-! ### Receiving (R349, R359) -/

/-- A port takes a frame by its tag (R349). -/
def tagOk (p : Nat) (l : List Byte) : Bool :=
  !stagged l && (match ctagVid l with
    | none => true
    | some v => v == 0 || ((Config.portVids p).take 16).contains v)

/-- A frame enters the second queue of a port to be forwarded (R358, R359). -/
def Dev.pass (d : Dev) (q : Nat) (f : SecondFrame) : Dev := d.sendSecond q f

/-- A frame forwarded to the other port: an event message with the residence to come and, peer to peer, a Sync with the link delay of
its ingress port; peer delay messages then stay. A frame whose ingress started before forwarding changed goes uncorrected, where
forwarding was on (R359, R368). -/
def Dev.forward (d : Dev) (p : Nat) (f : EthFrame) : Dev :=
  let plain : SecondFrame := { own := false, bytes := f.body }
  if d.now - f.age < d.eth.chainAt then (if d.eth.chainWas then d.pass (1 - p) plain else d)
  else if !d.chained then d
  else
    let p2p := (d.portOf 0).tcP2p
    match ptpOf f.body with
    | some m =>
      if p2p && m.peer then d
      else if m.event then
        d.pass (1 - p) { plain with ingress := some (d.now - f.age)
                                    add := if p2p && m.typ == 0 then (d.portOf p).linkDelay.toNat else 0 }
      else d.pass (1 - p) plain
    | none => d.pass (1 - p) plain

/-- The time base of a domain that a clock of the device follows; none for any other (R353). -/
def Dev.clockOf (d : Dev) (dom : BitVec 8) : Option Nat :=
  if dom.toNat = d.eth.dom0 then some 0 else if dom.toNat = d.eth.dom1 then some 1 else none

/-- A PTP message that the device consumes: every event message is stamped, on TB0 in any other domain; the side that owns the servo
gets the message (R351, R353, R354). -/
def Dev.consumePtp (d : Dev) (p : Nat) (f : EthFrame) (m : PtpAt) : Dev :=
  let t := d.stamp p (d.tbOfDomain m.domain) (d.portOf p).rxLatAdj f.age
  let d := if m.event then (d.modPort p (fun e => { e with rxStamp := t })).useFresh else d.useFresh
  match d.clockOf m.domain with
  | none => d
  | some n => if d.hostServo n then d.toHostRing f.body t else d.takePtp n p f.body m t

/-- The words of a coordination frame and its addresses, from the bytes of a frame (R362). -/
def coordOf (l : List Byte) : CoordFrame :=
  let ws := bytesWords (l.drop (14 + tagLen l))
  { words := ws.take (bits (wat ws 0) 15 0 / 4), dstMac := macAt l 0, srcMac := macAt l 6 }

/-- A frame for this device: PTP or coordination; others are not the device's (R353, R362). -/
def Dev.consume (d : Dev) (p : Nat) (f : EthFrame) : Dev :=
  match ptpOf f.body with
  | some m => d.consumePtp p f m
  | none => if etherType f.body = 0x88B5 then d.takeCoord p (coordOf f.body) else d

/-- A MAC address that is the device's own on port p: that of the port, and in a chain that of either (R359). -/
def Dev.ownMac (d : Dev) (p : Nat) (m : BitVec 48) : Bool :=
  m == Config.macAddress p || (d.chained && m == Config.macAddress (1 - p))

/-- A received frame past the injector. -/
def Dev.rxFrame (d : Dev) (p : Nat) (f : EthFrame) : Dev :=
  let dst := macAt f.body 0
  let d := d.modPort p (fun e => { e with lpiRx := false })
  if !f.fcsOk || decide (1518 < f.body.length) || !tagOk p f.body then d
  else if pauseFrame f.body then d.modPort p (fun e => { e with pauseCnt := satInc 16 e.pauseCnt })
  else
    let d := if groupMac dst || !d.ownMac p dst then d.forward p f else d
    if groupMac dst || d.ownMac p dst then d.consume p f else d

/-- A coordination frame past the injector: its bytes as the line carried them, tag and all, are received like any other's (R349,
R359, R362). -/
def Dev.rxCoord (d : Dev) (p : Nat) (f : CoordFrame) : Dev :=
  d.rxFrame p { fcsOk := true, body := frameOf f.dstMac f.srcMac f.tci f.words, age := f.age }

/-- A frame past the injector. -/
def Dev.rxAny (d : Dev) (p : Nat) : EthFrame ⊕ CoordFrame → Dev
  | .inl f => d.rxFrame p f
  | .inr f => d.rxCoord p f

/-- Bytes of a frame on the line but for its FCS. -/
def frameLen : EthFrame ⊕ CoordFrame → Nat
  | .inl f => f.body.length
  | .inr f => (frameOf f.dstMac f.srcMac f.tci f.words).length

/-- Invalid blocks of a 10GBASE-R port: 16 within 125 µs are hi_ber, which takes the link down (R348, R465). PRESUMED (note 202): the
figures are those of IEEE 802.3 clause 49, which R348 names, and a window starts with the first of its blocks. -/
def Dev.badBlocks (d : Dev) (p n : Nat) : Dev :=
  if (d.portOf p).mode ≠ 1 then d
  else
    let e := d.portOf p
    let anew := decide (e.berAt + 156250 ≤ d.now) || decide (e.berCnt = 0)
    let cnt := if anew then n else e.berCnt + n
    let d := d.modPort p (fun e => { e with berAt := if anew then d.now else e.berAt, berCnt := if 16 ≤ cnt then 0 else cnt })
    if 16 ≤ cnt then d.ethDown p else d

/-- What a receive injection does to a frame (R463, R465): a reorder holds it for the next, a drop or a corruption loses it, and
invalid blocks count for hi_ber. -/
def Dev.rxStruck (d : Dev) (p : Nat) (f : EthFrame ⊕ CoordFrame) (i : Injection) : Dev :=
  if i.action = 4 then d.modPort p (fun e => { e with heldRx := some f })
  else if i.action = 2 then d.badBlocks p (min i.n ((frameLen f + 19) / 8))
  else d

/-- A frame reaches a port, past the injector (R463). -/
def Dev.rxPort (d : Dev) (p : Nat) (f : EthFrame ⊕ CoordFrame) : Dev :=
  if d.portCount ≤ p ∨ !(d.portOf p).linkUp then d
  else
    let q := d.injectUnit (injKey 2 p 1)
    match q.1 with
    | some i => q.2.rxStruck p f i
    | none =>
      let d := (q.2.modPort p (fun e => { e with heldRx := none })).rxAny p f
      match (q.2.portOf p).heldRx with
      | some g => d.rxAny p g
      | none => d

/-- FRAME_RECEIVE. -/
def execFrameReceive (p : Fin 2) (f : EthFrame) (s : State) : Host.Outcome State Fault Refusal :=
  onMain (fun d => d.rxPort p.val (.inl f)) s

/-- COORDINATION_FRAME. -/
def execCoordinationFrame (p : Fin 2) (f : CoordFrame) (s : State) : Host.Outcome State Fault Refusal :=
  onMain (fun d => d.rxPort p.val (.inr f)) s

/-! ### Telemetry (R367, R429) -/

/-- TELEMETRY: records and period. -/
def bodyTelemetry : Body := fun r d =>
  let n := (arg r 3).toNat
  if n = 0 ∨ 3600 < n then d.say (.badArg 3) else d.doneAtTick r (.telemetry (arg r 2) n)

/-- TELEMETRY command. -/
def execTelemetry (r : Req) (s : State) : Host.Outcome State Fault Refusal := onMain (iapin 0x0805 writes bodyTelemetry r) s

/-- Telemetry settings land. -/
def landTelemetry (mask : Word) (period : Nat) (d : Dev) : Dev :=
  { d with eth := { d.eth with teleMask := mask, telePeriod := period, teleDue := d.now + 1250000000 * period } }

/-- TELEMETRY_SEND, once the period has passed by the model's clock: one free word for each record selected, since the records' contents are not stated. -/
def execTelemetrySend (s : State) : Host.Outcome State Fault Refusal :=
  onMain (fun d =>
    if d.eth.telePeriod = 0 ∨ d.eth.teleMask = 0 ∨ d.now < d.eth.teleDue then d
    else
      let d := { d with eth := { d.eth with teleDue := d.eth.teleDue + 1250000000 * d.eth.telePeriod } }
      let ks := maskBits 32 d.eth.teleMask.toNat
      let body := d.eth.teleMask :: ks.map (fun k => Config.freeWord (d.fresh + k))
      ({ d with fresh := d.fresh + 32 }).sendCoord 0x84 body d.eth.lastSrc (d.eth.lastMac.getD (BitVec.allOnes 48)) d.eth.lastPort) s

end Sys2Proof.Machine
end

