-- ==== Sys2Proof/Machine/Can.lean ====
section
/-!
DEFINITION. The CAN FD controllers (R369 to R388): filters, receive buffers with locks and shadows, receive FIFOs, the
transmit FIFO with its attempts, and the error counters.
-/

namespace Sys2Proof.Machine

/-! ### Elements and stamps (R373, R374, R381) -/

/-- The access table's block of the CAN registers and message RAM (R397). -/
def canBlock : Nat := 3

/-- Frame length in bytes from DLC (R374). -/
def canLength (fd rmt : Bool) (dlc : Nat) : Nat :=
  if rmt then 0
  else if dlc ≤ 8 then dlc
  else if fd then [12, 16, 20, 24, 32, 48, 64].getD (dlc - 9) 0
  else 8

/-- Index of the last word of an element (R374). -/
def CanElem.lastWord (e : CanElem) : Nat := 2 + (canLength (bit e.ctl 31) (bit e.ctl 27) (bits e.ctl 23 20) + 3) / 4

/-- The nineteen words of an element (R373). -/
def CanElem.words (e : CanElem) : List Word := fit 19 0 ([e.id, e.ctl, e.stamp] ++ e.data)

/-- STAMP_BASE and STAMP_SHIFT as they stood at a core cycle. -/
def Can.stampSel (c : Can) (s : Nat) : Nat × Nat :=
  ((c.stampWas.takeWhile (fun m => decide (s < m.1))).getLast?.map (·.2)).getD (c.stampBase, c.stampShift)

/-- The stamp of a frame whose SOF bit was sampled `age` core cycles ago: the time of the base selected then, within one time quantum
plus 20 ns, in ns and shifted; zero where the base was INVALID (R371, R381, note 107). -/
def Dev.canStamp (d : Dev) (c age : Nat) : Word :=
  let x := d.canOf c
  let sel := x.stampSel (d.now - age)
  match d.baseAgo sel.1 age with
  | none => 0
  | some t =>
    let off := (16 * (bits x.arbTiming 8 0 + 1) + 200) * 2 ^ 32 / 10
    word ((t + within_ off d.fresh).toNat / 2 ^ 32 / 2 ^ sel.2)

/-! ### Filters (R375, R376) -/

/-- Where an accepted frame goes. -/
inductive CanDest where
  | fifo (f : Nat)
  | buffer (b : Nat)
  | reject
  deriving DecidableEq, Repr

/-- A rule's three words. -/
def Can.rule (c : Can) (xtd : Bool) (r : Nat) : List Word :=
  (List.range 3).map (fun i => tblGet 0 c.rules ((if xtd then 384 else 0) + 3 * r + i))

/-- A rule takes part and matches an identifier (R375). -/
def ruleMatches (ws : List Word) (id : Nat) : Bool :=
  let w := wat ws 0
  let a := bits (wat ws 1) 28 0
  let b := bits (wat ws 2) 28 0
  bit w 31 && decide (bits w 28 26 < 4) &&
  (if bits w 30 29 = 0 then id == a
   else if bits w 30 29 = 1 then id == a || id == b
   else if bits w 30 29 = 2 then decide (a ≤ id) && decide (id ≤ b)
   else decide ((id ^^^ a) &&& b = 0))

/-- Destination that a rule gives. -/
def ruleDest (w : Word) : CanDest :=
  if bits w 28 26 = 0 then .fifo 0 else if bits w 28 26 = 1 then .fifo 1
  else if bits w 28 26 = 2 then .buffer (bits w 21 16) else .reject

/-- The destination of a received frame and the RULE field it carries (R376). -/
def Can.judge (c : Can) (f : CanFrame) : CanDest × Nat :=
  let n := if f.xtd then min 64 (bits c.ruleCfg 22 16) else min 128 (bits c.ruleCfg 31 24)
  let unmatched := if f.xtd then bits c.ruleCfg 3 2 else bits c.ruleCfg 5 4
  if f.rmt && bit c.ruleCfg (if f.xtd then 0 else 1) then (.reject, 0xFF)
  else match (List.range n).find? (fun r => ruleMatches (c.rule f.xtd r) f.id.toNat) with
    | some r => (ruleDest (wat (c.rule f.xtd r) 0), r)
    | none => (if unmatched < 2 then .fifo unmatched else .reject, 0xFF)

/-- The element of a received frame (R373). -/
def canElem (f : CanFrame) (rule : Nat) (stamp : Word) : CanElem :=
  let len := canLength f.fd f.rmt f.dlc.toNat
  { id := word (if f.xtd then f.id.toNat else f.id.toNat % 2048)
    ctl := pack [(31, b1 f.fd), (30, b1 f.fast), (29, b1 (f.epass && f.fd)), (28, b1 f.xtd), (27, b1 f.rmt), (20, f.dlc.toNat),
                 (19, b1 (f.xtd && rule != 0xFF)), (8, rule)]
    stamp := stamp
    data := bytesWords (fit len 0 f.data) }

/-! ### Storing (R378 to R380) -/

/-- Buffer b of a controller. -/
def Can.buf (c : Can) (b : Nat) : CanBuf := tblGet {} c.bufs b
/-- Buffer b changed by f. -/
def Can.modBuf (c : Can) (b : Nat) (f : CanBuf → CanBuf) : Can := { c with bufs := tblMod {} c.bufs b f }
/-- Receive FIFO f. -/
def Can.fifo (c : Can) (f : Nat) : CanFifo := if f = 0 then c.rx0 else c.rx1
/-- Receive FIFO f replaced. -/
def Can.setFifo (c : Can) (f : Nat) (q : CanFifo) : Can := if f = 0 then { c with rx0 := q } else { c with rx1 := q }

/-- A frame accepted for a buffer (R378, R379). -/
def Dev.storeBuffer (d : Dev) (c b : Nat) (e : CanElem) : Dev :=
  let x := (d.canOf c).buf b
  let lost := if x.holder.isSome then x.shadow.isSome else x.newData
  let d := d.modCan c (fun k => k.modBuf b (fun x =>
    let x := { x with overwritten := x.overwritten || lost }
    if x.holder.isSome then { x with shadow := some e } else { x with elem := e, newData := true }))
  let d := d.canEvent c (b1 x.holder.isNone + 2 * b1 lost)
  if lost then d.event 0x0B2 (pack [(8, b), (0, c)]) else d

/-- A frame accepted for a receive FIFO (R380). -/
def Dev.storeFifo (d : Dev) (c f : Nat) (e : CanElem) : Dev :=
  let q := (d.canOf c).fifo f
  if 128 ≤ q.fill then
    let d := d.modCan c (fun k => k.setFifo f { q with dropCnt := satInc 8 q.dropCnt })
    (d.canEvent c (2 ^ (4 + 3 * f))).event 0x0B2 (pack [(8, 0x40 + f), (0, c)])
  else
    let q' := { q with elems := tblSet {} q.elems q.put e, put := (q.put + 1) % 128, fill := q.fill + 1 }
    let d := d.modCan c (fun k => k.setFifo f q')
    d.canEvent c (2 ^ (2 + 3 * f) + (if q.wmark ≠ 0 ∧ q'.fill = q.wmark then 2 ^ (3 + 3 * f) else 0))

/-- A lock of a buffer ends: a frame in the shadow moves in, and NEW_DATA sets again (R379). -/
def CanBuf.unlock (x : CanBuf) (clear : Bool) : CanBuf :=
  let x := { x with holder := none, newData := x.newData && !clear }
  match x.shadow with
  | some e => { x with elem := e, shadow := none, newData := true }
  | none => x

/-- A read of word 0 of a buffer locks it to the reader (R378). -/
def Dev.readBufferHead (m : WordRead) (c n : Nat) (d : Dev) : Dev :=
  let w := ((d.canOf c).buf n).elem.id
  (d.modCan c (fun k => k.modBuf n (fun x =>
    if x.holder.isNone then { x with holder := some (masterId m.master) } else x))).giveBytes m.bytes w

/-- A read of a later word of a buffer; the last word of the frame releases its holder's lock (R378). -/
def Dev.readBufferWord (m : WordRead) (c n word : Nat) (d : Dev) : Dev :=
  let x := (d.canOf c).buf n
  let w := wat x.elem.words word
  let last := x.holder == some (masterId m.master) && word == x.elem.lastWord
  (if last then d.modCan c (fun k => k.modBuf n (fun x => x.unlock true)) else d).giveBytes m.bytes w

/-- BUFFER_LOCK_READ: word 0 of a buffer (R378). -/
def execBufferLockRead (m : WordRead) (c : Fin 4) (n : Fin 64) (s : State) :
    Host.Outcome State Fault Refusal :=
  onMain (fun d => d.served m.master (Dev.readBufferHead m c.val n.val)) s

/-- BUFFER_RELEASE_READ: a later word of a buffer (R378). -/
def execBufferReleaseRead (m : WordRead) (c : Fin 4) (n : Fin 64) (word : Fin 19) (s : State) :
    Host.Outcome State Fault Refusal :=
  onMain (fun d => d.served m.master (Dev.readBufferWord m c.val n.val word.val)) s

/-- LOCKED_FORCE_RELEASE (R378). -/
def execLockedForceRelease (m : Master) (c : Fin 4) (half : Fin 2) (v : Word) (s : State) :
    Host.Outcome State Fault Refusal :=
  onMain (fun d => d.guarded m canBlock (fun d =>
    forEach (maskBits 32 v.toNat) (fun i d => d.modCan c.val (fun k => k.modBuf (32 * half.val + i) (fun x =>
      if x.holder.isSome then x.unlock false else x))) d)) s

/-- RELEASE written (R380): elements up to the index are freed where it lies in the filled span. -/
def CanFifo.release (q : CanFifo) (i : Nat) : CanFifo :=
  let n := (i + 128 - q.get) % 128 + 1
  if n ≤ q.fill then { q with get := (i + 1) % 128, fill := q.fill - n } else q

/-- RXQ_RELEASE. -/
def execRxqRelease (m : Master) (c : Fin 4) (f : Fin 2) (v : Word) (s : State) : Host.Outcome State Fault Refusal :=
  onMain (fun d => d.guarded m canBlock (fun d =>
    d.modCan c.val (fun k => k.setFifo f.val ((k.fifo f.val).release (bits v 6 0))))) s

/-! ### Error states (R384, R385) -/

/-- PASSIVE and WARN follow the counters; each change is an event. -/
def Dev.errorLevels (d : Dev) (c : Nat) : Dev :=
  let x := d.canOf c
  let p := decide (127 < x.tec) || decide (127 < x.rec_)
  let w := decide (96 ≤ x.tec) || decide (96 ≤ x.rec_)
  let d := d.modCan c (fun x => { x with passive := p, warn := w })
  d.canEvent c (0x800 * b1 (p != x.passive) + 0x1000 * b1 (w != x.warn))

/-- ALONE and ACK_RUN clear at an acknowledged frame or one received without error (R385). -/
def Can.notAlone (c : Can) : Can := { c with alone := false, ackRun := 0 }

/-- The code of an error (R387). -/
def canErrCode : CanErr → Nat
  | .stuff => 1 | .form => 2 | .ack => 3 | .bit1 => 4 | .bit0 => 5 | .crc => 6

/-- The last error of a phase. -/
def Can.noteError (c : Can) (code : Nat) (dataPhase : Bool) : Can :=
  if dataPhase then { c with lastDerr := code } else { c with lastErr := code }

/-! ### Transmit FIFO and attempts (R382, R383) -/

/-- The head element of the transmit FIFO. -/
def Can.head (c : Can) : CanElem := tblGet {} c.txElems c.txHead

/-- The head leaves the FIFO, and TX_EMPTY sets when nothing is left. -/
def Dev.popHead (d : Dev) (c : Nat) : Dev :=
  let d := d.modCan c (fun x =>
    { x with txHead := (x.txHead + 1) % 32, txFill := x.txFill - 1, headTries := 0, onBus := false, noRetry := false, corrupt := false })
  if (d.canOf c).txFill = 0 then d.canEvent c 0x200 else d

/-- The head is abandoned (R383). -/
def Dev.abandon (d : Dev) (c : Nat) : Dev :=
  ((d.modCan c (fun x => { x with abandonCnt := satInc 16 x.abandonCnt })).popHead c).canEvent c 0x400

/-- The head cannot be sent as it is written (R374). -/
def Can.headBad (c : Can) : Bool := (bit c.head.ctl 31 && bit c.head.ctl 27) || (bit c.head.ctl 31 && !c.fdEn)

/-- The head and the next entry change places (R463). -/
def Can.swapHead (c : Can) : Can :=
  let n := (c.txHead + 1) % 32
  if c.txFill < 2 then c
  else { c with txElems := tblSet {} (tblSet {} c.txElems c.txHead (tblGet {} c.txElems n)) n (tblGet {} c.txElems c.txHead) }

/-- The frame that the head's element puts on the bus: the identifier's bits, the bit rate switch where FAST_EN allows it, ESI
from the controller's own error state, and no byte beyond the length (R370, R373, R374, R387). -/
def Can.headFrame (c : Can) : CanFrame :=
  let e := c.head
  let fd := bit e.ctl 31
  { id := BitVec.ofNat 29 (if bit e.ctl 28 then e.id.toNat else e.id.toNat % 2048), xtd := bit e.ctl 28, rmt := bit e.ctl 27, fd := fd
    fast := fd && bit e.ctl 30 && c.fastEn, epass := fd && c.passive, dlc := BitVec.ofNat 4 (bits e.ctl 23 20)
    data := fit (canLength fd (bit e.ctl 27) (bits e.ctl 23 20)) 0 (wordsBytes e.data) }

/-- A controller that has joined an idle bus starts the head: heads that cannot be sent are abandoned first, and the
injector acts on the frame (R374, R383, R463). -/
def Dev.startHead (d : Dev) (c : Nat) : Nat → Dev
  | 0 => d
  | n + 1 =>
    let x := d.canOf c
    if x.config || x.listen || x.boff || x.onBus || x.act != 1 || x.txFill == 0 then d
    else if x.headBad then Dev.startHead (d.abandon c) c n
    else
      let q := if x.headTries = 0 then d.injectUnit (injKey 3 c 0) else (none, d)
      let go := fun (d : Dev) (bad : Bool) => d.modCan c (fun x => { x with onBus := true, act := 3, corrupt := bad, sent := some x.headFrame })
      match q.1.map (·.action) with
      | some 1 => Dev.startHead (q.2.abandon c) c n
      | some 3 => go q.2 true
      | some 4 => go (q.2.modCan c Can.swapHead) false
      | _ => go q.2 false

/-- The head starts if it can. -/
def Dev.kickCan (d : Dev) (c : Nat) : Dev := d.startHead c ((d.canOf c).txFill + 1)

/-- TX_PUSH (R382). -/
def Can.push (c : Can) : Can :=
  if 32 ≤ c.txFill then { c with txFullErr := true } else { c with txPut := (c.txPut + 1) % 32, txFill := c.txFill + 1 }

/-- Entries not yet started are dropped, and TX_EMPTY sets where that empties the FIFO (R382, R383). -/
def Dev.emptyTx (d : Dev) (c : Nat) : Dev :=
  let e := d.modCan c Can.dropTx
  if (d.canOf c).txFill ≠ 0 ∧ (e.canOf c).txFill = 0 then e.canEvent c 0x200 else e

/-- TX_PUSH written: up to a discard's first core cycle the entry is discarded with the rest (R382, R388). -/
def Dev.txPush (d : Dev) (c : Nat) (v : Word) : Dev :=
  if !bit v 0 then d
  else if d.discardOpen then (d.modCan c Can.push).emptyTx c
  else (d.modCan c Can.push).kickCan c

/-- TX_FLUSH written (R383). -/
def Dev.txFlush (d : Dev) (c : Nat) (v : Word) : Dev := if bit v 0 then d.emptyTx c else d

/-- TX_PUSH. -/
def execTxPush (m : Master) (c : Fin 4) (v : Word) (s : State) : Host.Outcome State Fault Refusal :=
  onMain (fun d => d.guarded m canBlock (fun d => d.txPush c.val v)) s

/-- TX_FLUSH. -/
def execTxFlush (m : Master) (c : Fin 4) (v : Word) (s : State) : Host.Outcome State Fault Refusal :=
  onMain (fun d => d.guarded m canBlock (fun d => d.txFlush c.val v)) s

/-- The end of an attempt that failed: retried, abandoned at RETRY_LIM, or dropped where a discard or flush bars its retry
(R383, R388). -/
def Dev.attemptFailed (d : Dev) (c : Nat) : Dev :=
  let d := d.modCan c (fun x => { x with onBus := false, corrupt := false, headTries := satInc 4 x.headTries })
  let x := d.canOf c
  if x.noRetry then d.popHead c
  else if x.retryLim ≠ 0 ∧ x.retryLim ≤ x.headTries then d.abandon c
  else d

/-- Bus-off (R384, R386). -/
def Dev.busOff (d : Dev) (c : Nat) : Dev :=
  if 255 < (d.canOf c).tec ∧ !(d.canOf c).boff then
    let d := d.modCan c (fun x => { x with boff := true, act := 0, recov := 0, boffCnt := satInc 16 x.boffCnt })
    (d.canEvent c 0x2000).event 0x0B0 (word c)
  else d

/-- An acknowledgement error in a row (R385). -/
def Dev.ackError (d : Dev) (c : Nat) : Dev :=
  let d := d.modCan c (fun x => { x with ackRun := satInc 8 x.ackRun })
  let x := d.canOf c
  if 16 ≤ x.ackRun ∧ !x.alone then ((d.modCan c (fun x => { x with alone := true })).canEvent c 0x4000).event 0x0B1 (word c) else d

/-- The bus is idle again after an attempt or a frame, unless CONFIG stops the controller there (R377). -/
def Dev.busIdle (d : Dev) (c : Nat) : Dev :=
  (d.modCan c (fun x => if x.boff || x.onBus then x else { x with act := if x.config then 0 else 1, stopAt := none })).kickCan c

/-- An attempt ends in success (R382, R385). -/
def Dev.sentHead (d : Dev) (c age : Nat) : Dev :=
  let x := d.canOf c
  let fast := x.dcEn && (x.sent.map (·.fast)) == some true
  let stamp := d.canStamp c age
  let meas := Config.freeNat (d.fresh + 1) % 128
  let d := { d with fresh := d.fresh + 2 }
  let d := d.modCan c (fun x =>
    { x.notAlone with tec := x.tec - 1, txStamp := stamp, dcMeas := if fast then meas else x.dcMeas })
  (((d.popHead c).canEvent c 0x100).errorLevels c).busIdle c

/-- What an error of a transmitter adds to TEC, as ISO 11898-1 counts it (R384, R385, note 182). -/
def tecUp (w : TecCase) (code : Nat) (dataPhase passive : Bool) : Nat :=
  match w with
  | .flagged more => 8 + 8 * more
  | .passiveAck => if code = 3 ∧ passive then 0 else 8
  | .arbStuff more => if code = 1 ∧ !dataPhase then 8 * more else 8 + 8 * more

/-- An attempt ends in an error (R383 to R386). -/
def Dev.failedHead (d : Dev) (c code : Nat) (dataPhase : Bool) (w : TecCase) : Dev :=
  let up := tecUp w code dataPhase (d.canOf c).passive
  let d := d.modCan c (fun x => { x.noteError code dataPhase with tec := x.tec + up })
  let d := if code = 3 then d.ackError c else d
  (((d.errorLevels c).attemptFailed c).busOff c).busIdle c

/-- ATTEMPT_END: a frame that the injector corrupts ends in a bit error (R465); after lost arbitration the controller receives
the other node's frame, CONFIG set or not (R377). -/
def execAttemptEnd (c : Fin 4) (a : Attempt) (s : State) : Host.Outcome State Fault Refusal :=
  onMain (fun d =>
    let x := d.canOf c.val
    if !x.onBus then d
    else match a with
      | .success age =>
        if x.corrupt then d.useFresh.failedHead c.val (4 + Config.freeNat d.fresh % 2) false (.flagged 0) else d.sentHead c.val age
      | .lostArb => (d.attemptFailed c.val).modCan c.val (fun x => { x with act := 2 })
      | .error e dataPhase w => d.failedHead c.val (canErrCode e) dataPhase w) s

/-- BUS_OFF_RECOVERY, once RECOV has counted 128 recessive sequences (R384). -/
def execBusOffRecovery (c : Fin 4) (s : State) : Host.Outcome State Fault Refusal :=
  onMain (fun d =>
    if (d.canOf c.val).boff && decide (128 ≤ (d.canOf c.val).recov) then
      ((d.modCan c.val (fun x => { x with boff := false, tec := 0, rec_ := 0, recov := 0 })).errorLevels c.val).busIdle c.val
    else d) s

/-- What CAN_TX of a controller is while it drives no dominant bit: high impedance in reset, else recessive; a dominant bit
is driven only with a frame on the bus, or by a receiver that is not in LISTEN (R369, R370, R451). -/
def Dev.canTxIdle (d : Dev) : Option Bool := if d.pwr.held then none else some true

/-- Core cycles that a frame on the bus lasts at most: 800 bits of the arbitration phase (R371, R374, note 106). -/
def Can.longest (c : Can) : Nat := 800 * (2 * (bits c.arbTiming 8 0 + 1) * (3 + bits c.arbTiming 31 24 + bits c.arbTiming 23 17))

/-- A controller that CONFIG has stopped may still be in a frame that was on the bus (R377). -/
def Can.stopping (c : Can) (now : Nat) : Bool :=
  match c.stopAt with | some t => decide (now < t + c.longest) | none => false

/-- A controller may drive dominant bits, also to finish a frame that was on the bus when CONFIG was set (R369, R370, R377). -/
def Can.drives (c : Can) (now : Nat) : Bool := !c.listen && !c.boff && (decide (c.act ≠ 0) || c.stopping now)

/-! ### Receiving -/

/-- REC after a frame received without error, as ISO 11898-1 has it: one less, or a free value from 119 to 127 after error
passive. -/
def recAfterGood (r e : Nat) : Nat := if 127 < r then 119 + Config.freeNat e % 9 else r - 1

/-- A receive error that adds `up` to REC (R384). -/
def Dev.receiveError (d : Dev) (c code : Nat) (dataPhase : Bool) (up : Nat) : Dev :=
  ((d.modCan c (fun x => { x.noteError code dataPhase with rec_ := min 255 (x.rec_ + up) })).errorLevels c).busIdle c

/-- What an error of a receiver adds to REC, as ISO 11898-1 counts it (R384, note 182). -/
def recUp (e : CanRxErr) : Nat := b1 e.first + 8 * e.more

/-- A good frame is judged and stored (R376). -/
def Dev.takeFrame (d : Dev) (c : Nat) (f : CanFrame) : Dev :=
  let q := (d.canOf c).judge f
  let e := canElem f q.2 (d.canStamp c f.age)
  let r := recAfterGood (d.canOf c).rec_ (d.fresh + 1)
  let d := { d with fresh := d.fresh + 2 }
  let d := (d.modCan c (fun x => { x.notAlone with rec_ := r })).errorLevels c
  let d := match q.1 with
    | .fifo f => d.storeFifo c f e
    | .buffer b => d.storeBuffer c b e
    | .reject => d
  d.busIdle c

/-- A controller receives a frame whose SOF bit was sampled `age` core cycles before `now`: it is joined, or CONFIG stopped it
while that frame was on the bus, and it is not bus-off (R377). -/
def Can.joined (c : Can) (now age : Nat) : Bool :=
  (decide (c.act ≠ 0) || (match c.stopAt with | some t => decide (now < t + age) | none => false)) && !c.boff

/-- A received frame ends in a protocol exception: its res bit is recessive, or it is an FD frame without FD_EN (R370). -/
def Can.exception (c : Can) (f : CanFrame) : Bool := f.fd && (f.res || !c.fdEn)

/-- CAN_FRAME_RECEIVED: a protocol exception leads to bus integration, and a frame that the injector corrupts ends in a CRC
error (R370, R376, R465). -/
def execCanFrameReceived (c : Fin 4) (f : CanFrame) (s : State) : Host.Outcome State Fault Refusal :=
  onMain (fun d =>
    let x := d.canOf c.val
    if !x.joined d.now f.age then d
    else if x.exception f then d.modCan c.val (fun x => { x with act := if x.onBus then x.act else 0, stopAt := none })
    else
      let q := d.injectUnit (injKey 3 c.val 1)
      match q.1 with
      | some _ => q.2.receiveError c.val 6 f.fast 1
      | none => q.2.takeFrame c.val f) s

/-- CAN_RECEIVE_ERROR. -/
def execCanReceiveError (c : Fin 4) (e : CanRxErr) (dataPhase : Bool) (s : State) : Host.Outcome State Fault Refusal :=
  onMain (fun d =>
    if (d.canOf c.val).joined d.now e.age then d.receiveError c.val (canErrCode e.kind) dataPhase (recUp e) else d) s

/-! ### Configuration (R377, R387) -/

/-- MODE_CTRL as it reads. -/
def Can.modeCtrl (c : Can) : Word :=
  pack [(31, b1 c.config), (30, b1 c.listen), (29, b1 c.fdEn), (28, b1 c.fastEn), (27, b1 c.dcEn), (20, c.retryLim),
        (16, c.stampShift), (14, c.stampBase), (0, b1 c.cfgWrIgn)]

/-- MODE_CTRL written at a core cycle: the CONFIG-only fields take the word while CONFIG is set; otherwise a change of them is
ignored and noted. CONFIG set stops a controller with no frame under way at once, one whose frame or whose reception is under
way at that frame's end, and CONFIG cleared starts bus integration (R377, note 106). -/
def Can.writeModeCtrl (c : Can) (now : Nat) (v : Word) : Can :=
  let ign := !c.config && decide (bits v 30 27 ≠ bits c.modeCtrl 30 27)
  let x := if c.config then { c with listen := bit v 30, fdEn := bit v 29, fastEn := bit v 28, dcEn := bit v 27 } else c
  let x := { x with
    config := bit v 31, retryLim := bits v 23 20, stampShift := bits v 19 16, stampBase := bits v 15 14
    stampWas := if bits v 19 14 = bits c.modeCtrl 19 14 then c.stampWas
      else (now, c.stampBase, c.stampShift) :: c.stampWas.filter (fun m => decide (now < m.1 + pastCycles))
    cfgWrIgn := (c.cfgWrIgn && !bit v 0) || ign }
  if c.config && !bit v 31 then { x with act := 0, stopAt := none }
  else if !c.config && bit v 31 && c.act == 1 then { x with act := 0, stopAt := some now }
  else x

/-- CONFIG_SET. -/
def execConfigSet (m : Master) (c : Fin 4) (v : Word) (s : State) : Host.Outcome State Fault Refusal :=
  onMain (fun d => d.guarded m canBlock (fun d => d.modCan c.val (fun x => x.writeModeCtrl d.now (v ||| 0x80000000)))) s

/-- CONFIG_CLEAR. -/
def execConfigClear (m : Master) (c : Fin 4) (v : Word) (s : State) : Host.Outcome State Fault Refusal :=
  onMain (fun d => d.guarded m canBlock (fun d => d.modCan c.val (fun x => x.writeModeCtrl d.now (v &&& 0x7FFFFFFF)))) s

/-- BUS_INTEGRATION: 11 consecutive recessive bits, of which RECOV counts 128 during bus-off, and which tell a controller that
CONFIG has stopped that no frame is on the bus (R377, R384). -/
def execBusIntegration (c : Fin 4) (s : State) : Host.Outcome State Fault Refusal :=
  onMain (fun d =>
    let x := d.canOf c.val
    if x.boff then d.modCan c.val (fun x => { x with recov := min 128 (x.recov + 1) })
    else if x.config then d.modCan c.val (fun x => { x with stopAt := none })
    else if x.act != 0 then d else d.busIdle c.val) s

/-! ### Register block and message RAM (R372, R387) -/

/-- Bit i of a mask over the buffers of a half. -/
def Can.bufMask (c : Can) (half : Nat) (p : CanBuf → Bool) : Word := word (maskOf 32 (fun i => p (c.buf (32 * half + i))))

/-- FILL of the transmit FIFO, which does not count the frame on the bus that a discard or flush has left (R387). -/
def Can.txFillShown (c : Can) : Nat := c.txFill - b1 c.noRetry

/-- ACT (R387): no command tells that another node's frame has begun, so a joined controller without a frame of its own reads
idle or receiving, and one that CONFIG has stopped integrating or receiving, freely, until that frame has ended or 11 recessive
bits or a frame's longest time show that there is none (note 182). -/
def Can.actShown (c : Can) (now seed : Nat) : Nat :=
  if c.act = 1 then 1 + Config.freeNat seed % 2
  else if c.act = 0 ∧ c.stopping now then 2 * (Config.freeNat seed % 2)
  else c.act

/-- RXQ_STATE of a receive FIFO. -/
def CanFifo.word (q : CanFifo) : Word := pack [(24, q.dropCnt), (16, q.put), (8, q.get), (0, q.fill)]

/-- A word of the register block of a controller. -/
def Can.regWord (c : Can) (now seed off : Nat) : Word :=
  match off with
  | 0x00 => c.modeCtrl
  | 0x04 => c.arbTiming
  | 0x08 => c.dataTiming
  | 0x0C => c.dlyComp
  | 0x10 => c.ruleCfg
  | 0x14 => pack [(24, min 255 c.tec), (23, b1 (decide (127 < c.rec_))), (16, c.rec_ % 128), (0, c.boffCnt)]
  | 0x18 => pack [(30, c.actShown now seed), (29, b1 c.boff), (28, b1 c.passive), (27, b1 c.warn), (26, b1 c.alone), (23, c.lastErr),
                  (20, c.lastDerr), (16, c.headTries), (8, c.recov), (0, c.dcMeas)]
  | 0x1C => word c.ackRun
  | 0x20 => word c.events
  | 0x24 => word c.eventEn
  | 0x28 => c.bufMask 0 (·.newData)
  | 0x2C => c.bufMask 1 (·.newData)
  | 0x30 => c.bufMask 0 (·.overwritten)
  | 0x34 => c.bufMask 1 (·.overwritten)
  | 0x38 => c.bufMask 0 (·.holder.isSome)
  | 0x3C => c.bufMask 1 (·.holder.isSome)
  | 0x40 => c.rx0.word
  | 0x48 => word c.rx0.wmark
  | 0x50 => c.rx1.word
  | 0x58 => word c.rx1.wmark
  | 0x60 => pack [(26, c.txFillShown), (21, c.txPut), (16, c.txHead), (0, b1 c.txFullErr)]
  | 0x6C => pack [(16, c.abandonCnt), (0, c.discDrop)]
  | 0x70 => c.txStamp
  | _ => 0

/-- A CONFIG-only word, written while CONFIG is set, or ignored and noted (R377). -/
def Can.guardCfg (c : Can) (x : Can) : Can := if c.config then x else { c with cfgWrIgn := true }

/-- New data or overwritten bits of a half cleared. -/
def Can.clearBufs (c : Can) (half : Nat) (v : Word) (f : CanBuf → CanBuf) : Can :=
  (maskBits 32 v.toNat).foldl (fun c i => c.modBuf (32 * half + i) f) c

/-- A write, at a core cycle, of a word of the register block; TX_PUSH and TX_FLUSH act on the device. -/
def Can.writeReg (c : Can) (now off : Nat) (v : Word) : Can :=
  match off with
  | 0x00 => c.writeModeCtrl now v
  | 0x04 => let w := v &&& 0xFFFFFDFF; c.guardCfg { c with arbTiming := w }
  | 0x08 => let w := v &&& 0x07FFC01F; c.guardCfg { c with dataTiming := w }
  | 0x0C => let w := v &&& 0x7F00007F; c.guardCfg { c with dlyComp := w }
  | 0x10 => let w := v &&& 0xFF7F003F; c.guardCfg { c with ruleCfg := w }
  | 0x20 => { c with events := c.events &&& (0xFFFF ^^^ bits v 15 0) }
  | 0x24 => { c with eventEn := bits v 15 0 }
  | 0x28 => c.clearBufs 0 v (fun x => { x with newData := false })
  | 0x2C => c.clearBufs 1 v (fun x => { x with newData := false })
  | 0x30 => c.clearBufs 0 v (fun x => { x with overwritten := false })
  | 0x34 => c.clearBufs 1 v (fun x => { x with overwritten := false })
  | 0x38 => c.clearBufs 0 v (fun x => if x.holder.isSome then x.unlock false else x)
  | 0x3C => c.clearBufs 1 v (fun x => if x.holder.isSome then x.unlock false else x)
  | 0x44 => { c with rx0 := c.rx0.release (bits v 6 0) }
  | 0x48 => { c with rx0 := { c.rx0 with wmark := bits v 6 0 } }
  | 0x54 => { c with rx1 := c.rx1.release (bits v 6 0) }
  | 0x58 => { c with rx1 := { c.rx1 with wmark := bits v 6 0 } }
  | 0x60 => { c with txFullErr := c.txFullErr && !bit v 0 }
  | _ => c

/-- A word of the message RAM of a controller (R372). -/
def Can.ramWord (c : Can) (off : Nat) : Word :=
  let el := fun (base : Nat) (f : Nat → CanElem) => wat (f ((off - base) / 76)).words ((off - base) % 76 / 4)
  if off < 0x900 then tblGet 0 c.rules (off / 4)
  else if off < 0x1C00 then el 0x900 (fun b => (c.buf b).elem)
  else if off < 0x2F00 then 0
  else if off < 0x5500 then el 0x2F00 (fun i => tblGet {} c.rx0.elems i)
  else if off < 0x7B00 then el 0x5500 (fun i => tblGet {} c.rx1.elems i)
  else if off < 0x8480 then el 0x7B00 (fun i => tblGet {} c.txElems i)
  else 0

/-- An element with word i replaced. -/
def CanElem.setWord (e : CanElem) (i : Nat) (v : Word) : CanElem :=
  if i = 0 then { e with id := v &&& 0x1FFFFFFF }
  else if i = 1 then { e with ctl := v &&& 0xF8F00000 }
  else if i = 2 then e
  else { e with data := lset (fit 16 0 e.data) (i - 3) v }

/-- A write of a word of the message RAM: rules while CONFIG is set, whose reserved bits stay zero, and the transmit elements
(R10, R373, R375, R377). -/
def Can.writeRam (c : Can) (off : Nat) (v : Word) : Can :=
  if off < 0x900 then
    let v := v &&& (if off / 4 % 3 = 0 then 0xFC3F0000 else 0x1FFFFFFF)
    c.guardCfg { c with rules := tblSet 0 c.rules (off / 4) v }
  else if 0x7B00 ≤ off ∧ off < 0x8480 then
    { c with txElems := tblMod {} c.txElems ((off - 0x7B00) / 76) (fun e => e.setWord ((off - 0x7B00) % 76 / 4) v) }
  else c

end Sys2Proof.Machine
end

