-- ==== Sys2Proof/Machine/Island.lean ====
section
/-!
DEFINITION. The safety island (R258 to R281): parameter sets, the 500 µs cycle, the three functions, inputs,
outputs, lock-out and the deliberate reset, and the safety group of commands.
-/

namespace Sys2Proof.Machine

/-! ### The parameter set (R263) -/

/-- Words of a parameter set: header, 32 channels of 4, 8 zones of 4, 8 inputs, global, CRC. -/
def setWords : Nat := 171

/-- Word i of channel n's record. -/
def pChan (p : List Word) (n i : Nat) : Word := wat p (1 + 4 * n + i)
/-- Word i of zone z's record. -/
def pZone (p : List Word) (z i : Nat) : Word := wat p (129 + 4 * z + i)
/-- Input i's word. -/
def pInput (p : List Word) (i : Nat) : Word := wat p (161 + i)
/-- The global word. -/
def pGlobal (p : List Word) : Word := wat p 169

/-- OCC_IN of a zone. -/
def occIn (p : List Word) (z : Nat) : Nat := bits (pZone p z 2) 31 24
/-- OUT_ALL and OUT_UV of a zone together. -/
def zoneOuts (p : List Word) (z : Nat) : Nat := bits (pZone p z 2) 23 16 ||| bits (pZone p z 2) 15 8
/-- OUT_UV of a zone. -/
def outUv (p : List Word) (z : Nat) : Nat := bits (pZone p z 2) 15 8
/-- RESET_EN of a zone. -/
def resetEn (p : List Word) (z : Nat) : Bool := bit (pZone p z 2) 7
/-- RESET_IN of a zone. -/
def resetIn (p : List Word) (z : Nat) : Nat := bits (pZone p z 2) 6 4
/-- The reset pair of a zone as a mask. -/
def resetMask (p : List Word) (z : Nat) : Nat := if resetEn p z then 2 ^ resetIn p z else 0
/-- Input pairs that a zone uses. -/
def zonePairs (p : List Word) (z : Nat) : Nat := occIn p z ||| resetMask p z
/-- CH_MASK of a zone. -/
def zoneChans (p : List Word) (z : Nat) : Nat := (pZone p z 0).toNat
/-- Channel n is in zone z. -/
def inZone (p : List Word) (z n : Nat) : Bool := nbit (zoneChans p z) n
/-- Channel n is a UV channel of zone z. -/
def uvChan (p : List Word) (z n : Nat) : Bool := inZone p z n && bit (pZone p z 1) n
/-- Some zone holds channel n. -/
def zoned (p : List Word) (n : Nat) : Bool := (List.range 8).any (fun z => inZone p z n)

/-- lo ≤ v ≤ hi. -/
def within (lo v hi : Nat) : Bool := decide (lo ≤ v) && decide (v ≤ hi)

/-- Word i of channel n's record fails its check. -/
def chanBad (p : List Word) (n i : Nat) : Bool :=
  let w := pChan p n i
  if i = 1 then zoned p n && decide (w = 0)
  else if i = 3 then !(within 10 (bits w 31 16) 200 && within 10 (bits w 15 0) 10000)
  else false

/-- Word i of zone z's record fails its check, against the zones before it. -/
def zoneBad (p : List Word) (z i : Nat) : Bool :=
  let w := pZone p z i
  let before := List.range z
  if i = 0 then before.any (fun y => decide (zoneChans p y &&& w.toNat ≠ 0))
  else if i = 1 then decide (w &&& ~~~(pZone p z 0) ≠ 0)
  else if i = 2 then
    decide (bits w 2 0 ≠ 0) || decide (occIn p z &&& resetMask p z ≠ 0) ||
    before.any (fun y => decide (zoneOuts p y &&& zoneOuts p z ≠ 0) || decide (zonePairs p y &&& zonePairs p z ≠ 0))
  else !(within 1 (bits w 31 16) 65535 && within 0 (bits w 15 0) 2000)

/-- An input word fails its check. -/
def inputBad (w : Word) : Bool :=
  !within 10 (bits w 31 16) 500 || decide (bits w 15 7 ≠ 0) || decide (bits w 1 0 ≠ 0) || decide (bits w 5 4 = bits w 3 2)

/-- The global word fails its check. -/
def globalBad (w : Word) : Bool :=
  !(within 10 (bits w 31 22) 1000 && within 100 (bits w 21 13) 500 && within 1 (bits w 12 7) 60 && within 1 (bits w 6 0) 120)

/-- The CRC of a parameter set that the island computes: over the words before the set's CRC word. -/
def setCrc (p : List Word) : Word := crc32 (wordsBytes (p.take 170))

/-- Word i of a parameter set fails its checks. -/
def setWordBad (p : List Word) (i : Nat) : Bool :=
  if i = 0 then false
  else if i < 129 then chanBad p ((i - 1) / 4) ((i - 1) % 4)
  else if i < 161 then zoneBad p ((i - 129) / 4) ((i - 129) % 4)
  else if i < 169 then inputBad (pInput p (i - 161))
  else if i = 169 then globalBad (pGlobal p)
  else decide (wat p 170 ≠ setCrc p)

/-- SAFETY_LOAD (R263, R418, R428): not long-running. -/
def bodySafetyLoad : Body := fun r d =>
  if arg r 2 ≠ 0 then d.say (.badArg 2)
  else match imgArgs r (some (4 * setWords)) with
  | some p => d.say p
  | none =>
    if d.isl.outputs ≠ 0 then d.say .wrongState
    else if !d.imageCrcOk r then d.say (.badArg 5)
    else
      let p := d.image r
      match (List.range setWords).find? (setWordBad p) with
      | some i => d.say (.badImage i)
      | none =>
        (.ok [setCrc p], if checkOnly r then d else { d with isl := { d.isl with pending := some p, pendingCrc := setCrc p, pendingCyc := 0 } })

/-- SAFETY_LOAD command. -/
def execSafetyLoad (r : Req) (s : State) : Host.Outcome State Fault Refusal :=
  onMain (iapin 0x0601 writes bodySafetyLoad r) s

/-- SAFETY_CONFIRM (R263): the set is out of reach of a later load; another CRC drops the pending set. -/
def bodySafetyConfirm : Body := fun r d =>
  if d.isl.pending.isNone then d.say .wrongState
  else if arg r 2 = d.isl.pendingCrc then Dev.doneNow { d with isl := { d.isl with accepted := d.isl.pending, pending := none } }
  else (.badArg 2, { d with isl := { d.isl with pending := none } })

/-- SAFETY_CONFIRM command. -/
def execSafetyConfirm (r : Req) (s : State) : Host.Outcome State Fault Refusal :=
  onMain (iapin 0x0602 writes bodySafetyConfirm r) s

/-- PENDING_DROP: 60 s without confirmation, in cycles of 500 µs (R263). -/
def execPendingDrop (s : State) : Host.Outcome State Fault Refusal :=
  onDev (fun d => if 120000 ≤ d.isl.pendingCyc then { d with isl := { d.isl with pending := none } } else d) s

/-- ZONE_REQUEST (R271): it takes effect at the next island cycle. -/
def bodyZoneRequest : Body := fun r d =>
  (d.modZone (bits (arg r 2) 2 0) (fun z => { z with reqNext := some (bit (arg r 3) 0) })).doneNow

/-- ZONE_REQUEST command. -/
def execZoneRequest (r : Req) (s : State) : Host.Outcome State Fault Refusal :=
  onMain (iapin 0x0603 writes bodyZoneRequest r) s

/-! ### Lock-out (R274, R275) -/

/-- Pair i. -/
def Island.pair (x : Island) (i : Nat) : PairSt := tblGet {} x.pairs i
/-- Zone z. -/
def Island.zone (x : Island) (z : Nat) : Zone := tblGet {} x.zones z
/-- Zone z changed by f. -/
def Island.modZone (x : Island) (z : Nat) (f : Zone → Zone) : Island := { x with zones := tblMod {} x.zones z f }

/-- A recorded cause of zone z is gone (R274). -/
def Island.gone (x : Island) (z c : Nat) : Bool :=
  let s := x.zone z
  if c = 1 ∨ c = 2 ∨ c = 0xB then true
  else if c = 3 then !s.occupied
  else if c = 4 then decide (2000 ≤ s.slpGood)
  else if c = 5 then (maskBits 8 (zonePairs x.params z)).all (fun i => !(x.pair i).discBad || decide (2000 ≤ (x.pair i).agreeCyc))
  else if c = 6 then (maskBits 8 (zonePairs x.params z)).all (fun i => (x.pair i).tpLeft == 0)
  else if c = 7 then decide (x.readback &&& zoneOuts x.params z = 0)
  else if c = 8 then decide (2000 ≤ s.xchkGood)
  else if c = 9 then (maskBits 32 (zoneChans x.params z)).all (fun n => tblGet 0 x.senseLeft n == 0)
  else if c = 0xA then !x.solo
  else if c = 0xC then decide (2000 ≤ x.supplyGood)
  else false

/-- The conditions of a reset hold for zone z (R275). -/
def Island.mayReset (x : Island) (z : Nat) : Bool :=
  x.state == .run && !(x.zone z).occupied && (x.zone z).causes.all (x.gone z)

/-- The first recorded cause of zone z that is still present; 0 when none is. -/
def Island.firstCause (x : Island) (z : Nat) : Nat := ((x.zone z).causes.find? (fun c => !x.gone z c)).getD 0

/-- RESET_ARM (R275). -/
def bodyResetArm : Body := fun r d =>
  let z := bits (arg r 2) 2 0
  let s := d.isl.zone z
  if !d.isl.mayReset z then d.say (.safetyLocked (d.isl.firstCause z))
  else if (!s.locked && !s.uvHold) || !resetEn d.isl.params z then d.say .wrongState
  else (d.modZone z (fun s => { s with armed := true, armedCyc := 0 })).doneNow

/-- RESET_ARM command. -/
def execResetArm (r : Req) (s : State) : Host.Outcome State Fault Refusal :=
  onMain (iapin 0x0604 writes bodyResetArm r) s

/-- ARMED_EXPIRY: 5 s after the last arm, in cycles of 500 µs (R275). -/
def execArmedExpiry (z : Fin 8) (s : State) : Host.Outcome State Fault Refusal :=
  onDev (fun d => d.modZone z.val (fun s => if 10000 ≤ s.armedCyc then { s with armed := false } else s)) s

/-- New causes for a zone: it locks out with the lowest if it is not locked, and every new cause is recorded,
those of one cycle in the order of their codes (R274). -/
def Zone.lock (s : Zone) (cs : List Nat) : Zone :=
  match cs with
  | [] => s
  | c :: _ => { s with locked := true, cause := if s.locked then s.cause else cs.foldl min c
                       causes := s.causes ++ (List.range 16).filter (fun x => cs.contains x && !s.causes.contains x) }

/-- Zones locked out for causes, with the report of each entry (R274); outputs of locked zones open. -/
def Dev.lockZones (d : Dev) (causes : Nat → List Nat) : Dev × List (Nat × Word) :=
  let fresh := (List.range 8).filter (fun z => !(d.zoneOf z).locked && !(causes z).isEmpty)
  let d := forEach (List.range 8) (fun z d =>
    if (causes z).isEmpty then d else d.modZone z (fun s => s.lock (causes z))) d
  (d, match fresh with | z :: _ => [(0x084, word z)] | [] => [])

/-- Outputs as the zones decide (R271). -/
def Island.energised (x : Island) (n : Nat) : Bool :=
  x.state == .run && (List.range 8).any (fun z =>
    nbit (zoneOuts x.params z) n && !(x.zone z).locked && (x.zone z).req &&
    !((x.zone z).uvHold && nbit (outUv x.params z) n))

/-- The demand word of channel n (R268); the rest of I_FA below a unit is rounded: down where it is less than a half, as the example of
29.41 A has it, else freely (notes 22, 204). -/
def Island.demandWord (x : Island) (n e : Nat) : Nat :=
  let p := x.params
  match (List.range 8).find? (fun z => inZone p z n) with
  | none => 0
  | some z =>
    let s := x.zone z
    let off := (maskBits 8 (zoneOuts p z)).all (fun o => !nbit x.outputs o)
    let zero := s.locked || off || (s.occupied && uvChan p z n)
    let k := (pChan p n 1).toNat
    let fa := if k = 0 then 0 else (roundDownHalf ((1440 * (pChan p n 0).toNat : Nat) / (k : Rat)) e).toNat
    b1 zero * 2 ^ 31 + b1 (s.occupied && !zero) * 2 ^ 30 + min fa (2 ^ 30 - 1)

/-- SAFE_TP[k] is in its pulse (R270): TP_W from k × TP_PERIOD ÷ 4 on in each period, timed from the entry to RUN. -/
def Island.inPulse (x : Island) (k : Nat) : Bool :=
  let period := 1000 * bits (pGlobal x.params) 31 22
  x.state == .run && decide ((500 * x.cyc + (4 - k) * (period / 4)) % period < bits (pGlobal x.params) 21 13)

/-- An input fed from SAFE_TP[k] may read low because of its pulse: from its start until 500 µs after its rising edge (R270). -/
def Island.inShadow (x : Island) (k : Nat) : Bool :=
  let period := 1000 * bits (pGlobal x.params) 31 22
  x.state == .run && decide ((500 * x.cyc + (4 - k) * (period / 4)) % period < bits (pGlobal x.params) 21 13 + 500)

/-- Output commands, test pulses and the demand block follow the zones (R258, R268, R270, R271). DESIGN CHOICE (note 147): the
SAFE_TP outputs are off outside RUN. The safety outputs of a referee stay off (R213). -/
def Dev.driveOutputs (d : Dev) : Dev :=
  let y := d.isl
  let tp := if y.state == IState.run then maskOf 4 (fun k => !y.inPulse k) else 0
  let x := { y with outputs := if d.ply.role == Role.referee then 0 else maskOf 8 y.energised, tp := tp }
  let dem := (List.range 32).foldl (fun t n => tblSet 0 t n (x.demandWord n d.fresh)) ([] : Tbl Nat)
  { d with isl := { x with demands := dem }, fresh := d.fresh + 1 }

/-- Reports of the island reach the collector while the main logic runs (R276). -/
def Dev.islandEvents (d : Dev) (l : List (Nat × Word)) : Dev := if d.pwr.held || l.isEmpty then d else d.events l

/-- SAFE_STOP (R259): all off, every zone locked out with cause ISLAND; the code in the report is not stated
(note 2). -/
def Dev.safeStop (d : Dev) : Dev :=
  let q := ({ d with isl := { d.isl with state := .safeStop } }).lockZones (fun _ => [0xD])
  (q.1.useFresh.driveOutputs).islandEvents ((0x080, Config.freeWord d.fresh) :: q.2)

/-! ### Inputs (R264, R269, R275) -/

/-- One channel of a pair through its 1.0 ms filter: a level counts from its third sample on. A low sample that a test pulse of
the channel's own source may have made shows no level, and a filter that runs goes on (R269, R270). -/
def filterLevel (s raw pulse : Bool) (cnt : Nat) : Bool × Nat :=
  let differs := if pulse && !raw then decide (cnt ≠ 0) else raw != s
  if !differs then (s, 0) else if 3 ≤ cnt + 1 then (!s, 0) else (s, cnt + 1)

/-- Which channel must follow (R269): the first that changes starts the wait, the other ends it by taking the same side of
normal, or DISC_TIME does, at `lim` cycles, and what differs then starts a wait of its own. `a` and `b` say which side the
channels are on, `aNew` that A has just changed. -/
def nextFollow (f : Option (Bool × Bool × Nat)) (lim : Nat) (a b aNew : Bool) : Option (Bool × Bool × Nat) :=
  let goes := match f with
    | some (isA, side, n) => if (if isA then b else a) == side || decide (lim ≤ n) then none else some (isA, side, n + 1)
    | none => none
  match goes with
  | some x => some x
  | none => if a == b then none else some (aNew, if aNew then a else b, 0)

/-- DISC_TIME of an input in cycles of 0.5 ms. -/
def discCycles (p : List Word) (i : Nat) : Nat := 2 * bits (pInput p i) 31 16

/-- A pair after one cycle; `anti` is ANTIVALENT, `lim` DISC_TIME in cycles, `pa` and `pb` say that the sample of a channel may
show its source's pulse. -/
def PairSt.cycle (s : PairSt) (lim : Nat) (anti pa pb ra rb : Bool) : PairSt :=
  let fa := filterLevel s.a ra pa s.aCnt
  let fb := filterLevel s.b rb pb s.bCnt
  let na := fa.1
  let nb := fb.1 != anti
  let agree := na == nb
  let both := na && nb
  let normal := if both then s.normalCyc + 1 else 0
  { s with
    a := fa.1, b := fb.1, aCnt := fa.2, bCnt := fb.2
    demand := if !both then true else s.demand && decide (normal < 200)
    normalCyc := normal, follow := nextFollow s.follow lim na nb (fa.1 != s.a), agreeCyc := if agree then s.agreeCyc + 1 else 0
    highCyc := if both then (if s.fall.isSome then 1 else s.highCyc + 1) else s.highCyc
    fall := if both then none else some ((s.fall.map (· + 1)).getD 0) }

/-- A pair as a new parameter set finds it: what its channels have shown stands, its demand and the press of a button among it (R264,
R275), and no change that one of them has to follow is judged yet. -/
def PairSt.fresh (s : PairSt) : PairSt := { s with follow := none }

/-- The other channel of a pair has not followed within DISC_TIME (R269). -/
def PairSt.discrepant (s : PairSt) (p : List Word) (i : Nat) : Bool :=
  match s.follow with
  | some (_, _, n) => decide (discCycles p i ≤ n)
  | none => false

/-- The pair shows a reset edge in this cycle: both channels have fallen, within DISC_TIME of each other, after
both were high for 100 ms to 5 s (R275); `old` is the pair before the cycle. -/
def resetEdge (p : List Word) (i : Nat) (old new : PairSt) : Bool :=
  let anti := bit (pInput p i) 6
  let low := fun (s : PairSt) => !s.a && (s.b == anti)
  low new && !low old && within 200 new.highCyc 10000 && decide ((new.fall.getD 0) ≤ discCycles p i)

/-! ### The cycle (R258) -/

/-- I_SNS of channel n in 0.01 A, signed: the mean of the last 2.0 ms over the shunt that gives 250 mV at SNS_FS (R260, R263). -/
def Island.cur (x : Island) (n : Nat) : Rat :=
  let l := tblGet [] x.sense n
  if l.isEmpty then 0
  else ((l.foldl (· + ·) 0 : Int) : Rat) * (10 * bits (pChan x.params n 2) 15 0 : Nat) / (250000 * l.length : Nat)

/-- |I_SNS| of channel n in 0.01 A. -/
def Island.curAbs (x : Island) (n : Nat) : Rat := if x.cur n < 0 then -x.cur n else x.cur n

/-- The strand current of channel n over 2.0 ms, in 0.01 A (R261). -/
def Dev.strandCurrent (d : Dev) (n : Nat) : Rat :=
  let l := tblGet [] d.isl.currents n
  if l.isEmpty then 0
  else ((l.foldl (· + ·) 0 : Int) : Rat) * (10 * (d.chanOf n).cal.iRated : Nat) / (2 ^ 33 * l.length : Nat)

/-- Channel n's cross-check differs by more than XCHK_TOL (R261). -/
def Dev.xchkBad (d : Dev) (n : Nat) : Bool :=
  let p := d.isl.params
  let tol : Rat := (bits (pChan p n 3) 31 16 * bits (pChan p n 2) 15 0 : Nat) / (100 : Rat)
  let diff : Rat := d.isl.cur n - d.strandCurrent n
  decide (tol < diff) || decide (tol < -diff)

/-- Channel n with |I_SNS| of `cur` violates SLR in zone z (R265). -/
def slrBad (p : List Word) (z n : Nat) (cur : Rat) : Bool :=
  if uvChan p z n then decide ((bits (pChan p n 2) 15 0 : Rat) < 5 * cur)
  else decide (((pChan p n 0).toNat * 1600 : Nat) < ((pChan p n 1).toNat : Rat) * cur)

/-- The power of zone z in mW (R267). -/
def Island.zonePower (x : Island) (z : Nat) : Rat :=
  (maskBits 32 (zoneChans x.params z)).foldl (fun s n => s + (bits (pChan x.params n 2) 31 16 : Rat) * x.curAbs n) 0

/-- P_ZONE_MAX in mW. -/
def zoneMax (p : List Word) (z : Nat) : Nat := bits (pZone p z 3) 31 16 * 1000000

/-- The cross-check source is lost (R262). -/
def Dev.xchkLost (d : Dev) (i : IslandIn) : Bool :=
  d.pwr.held || d.flt.aliveStop || !d.tk.seqRun || decide (16 ≤ d.isl.strandAge) || !i.xclock

/-- SOLO_MAX in cycles. -/
def soloMax (p : List Word) : Nat := bits (pGlobal p) 6 0 * 7200000

/-- A set that has been confirmed takes effect: every zone locks out with cause PARAM and ARMED clears
(R263, R281). -/
def Dev.takeParams (d : Dev) : Dev × List (Nat × Word) :=
  match d.isl.accepted with
  | some p =>
    let x := d.isl
    let x := { x with state := .run, params := p, accepted := none, soloCyc := 0, xchkCyc := [], cyc := 0
                      pairs := (List.range 8).foldl (fun t k => tblSet {} t k (x.pair k).fresh) x.pairs }
    let d := forEach (List.range 8) (fun z d => d.modZone z (fun s => { s with armed := false })) { d with isl := x }
    d.lockZones (fun _ => [2])
  | none => (d, [])

/-- The zone requests of the cycle take effect (R271). -/
def Dev.takeRequests (d : Dev) : Dev :=
  forEach (List.range 8) (fun z d => d.modZone z (fun s => { s with req := s.reqNext.getD s.req, reqNext := none })) d

/-- The samples of a sense input join its window of 2.0 ms, within the input's range (R260). -/
def sampleSense (old : List Int) (new : List Int) : List Int :=
  ((new.take 8).reverse.map (fun v => max (-250000) (min 250000 v)) ++ old).take 32

/-- The reference check of one sense converter failed: a deviation above 0.3 % (R260). -/
def refFails (i : IslandIn) : Bool := decide (30 < i.refDev.natAbs)

/-- The inputs and occupancy of a cycle, its sense samples and its reference check (R260, R264, R266, R269). -/
def Dev.sampleInputs (d : Dev) (i : IslandIn) : Dev :=
  let x := d.isl
  let p := x.params
  let pairs := (List.range 8).foldl (fun t k =>
    let w := pInput p k
    tblSet {} t k ((x.pair k).cycle (discCycles p k) (bit w 6) (x.inShadow (bits w 5 4)) (x.inShadow (bits w 3 2)) (i.inA.getLsbD k) (i.inB.getLsbD k)))
    x.pairs
  let pairs := (List.range 8).foldl (fun t k => tblMod {} t k (fun s => { s with discBad := s.discBad || s.discrepant p k })) pairs
  let sense := (List.range 32).foldl (fun t n => tblSet [] t n (sampleSense (tblGet [] x.sense n) (i.sense.getD n []))) x.sense
  let left := tblMod 0 x.senseLeft i.refChan.val (fun n => if refFails i then 16 else n - 1)
  let d := { d with isl := { x with
    pairs := pairs, readback := i.readback.toNat, sense := sense, refChan := i.refChan.val, senseLeft := left
    supplyGood := if 192 < i.vsup then x.supplyGood + 1 else 0 } }
  forEach (List.range 8) (fun z d =>
    let dem := maskOf 8 (fun k => nbit (occIn p z) k && (d.isl.pair k).demand)
    let occ := decide (dem ≠ 0)
    d.modZone z (fun s =>
      { s with occPairs := dem, occupied := occ, occCycles := if occ then (if s.occupied then s.occCycles + 1 else 0) else 0
               uvHold := s.uvHold || (occ && !s.occupied) })) d

/-- SOLO of a cycle (R262): counted while the source is lost, ended by 1 s of agreeing cross-checks. -/
def Dev.soloCycle (d : Dev) (i : IslandIn) : Dev :=
  let x := d.isl
  let lost := d.xchkLost i
  let agree := !lost && (List.range 32).all (fun n => !d.xchkBad n)
  let good := if lost then 0 else if agree then x.soloGood + 1 else 0
  let solo := lost || (x.solo && decide (good < 2000))
  { d with isl := { x with solo := solo, soloGood := good, soloCyc := if solo then min (soloMax x.params) (x.soloCyc + 1) else 0 } }

/-- Cross-check persistence of every channel (R261, R281). -/
def Dev.xchkCycle (d : Dev) : Dev :=
  let t := (List.range 32).foldl (fun t n =>
    let bad := !d.isl.solo && d.xchkBad n
    tblSet 0 t n (if bad then tblGet 0 d.isl.xchkCyc n + 1 else 0)) d.isl.xchkCyc
  { d with isl := { d.isl with xchkCyc := t } }

/-- Channel n's cross-check difference has persisted for XCHK_TIME. -/
def Dev.xchkFails (d : Dev) (n : Nat) : Bool :=
  let c := tblGet 0 d.isl.xchkCyc n
  decide (c ≠ 0) && decide (2 * bits (pChan d.isl.params n 3) 15 0 ≤ c)

/-- The measurements of a zone's cycle: runs of violations and of good cycles. -/
def Dev.measureZone (d : Dev) (i : IslandIn) (z : Nat) : Dev :=
  let x := d.isl
  let p := x.params
  let ch := maskBits 32 (zoneChans p z)
  d.modZone z (fun s =>
    let slr := s.occupied && decide (2 * bits (pZone p z 3) 15 0 ≤ s.occCycles) && ch.any (fun n => slrBad p z n (x.curAbs n))
    let pw := x.zonePower z
    { s with
      slrRun := if slr then s.slrRun + 1 else 0
      slpRun := if (zoneMax p z : Rat) < pw then s.slpRun + 1 else 0
      slpGood := if pw < (zoneMax p z : Rat) then s.slpGood + 1 else 0
      xchkGood := if d.xchkLost i || ch.any d.xchkBad then 0 else s.xchkGood + 1 })

/-- An output of a zone carries too much, or reads on while it is off (R271, R272). -/
def Island.outputBad (x : Island) (i : IslandIn) (prevOut z : Nat) : Bool :=
  decide ((i.overload.toNat ||| (i.readback.toNat &&& (255 ^^^ prevOut))) &&& zoneOuts x.params z ≠ 0)

/-- Causes that a cycle gives zone z whatever the island's state: OUTPUT, SENSE and SUPPLY (R260, R271, R272). -/
def Island.baseCauses (x : Island) (i : IslandIn) (prevOut z : Nat) : List Nat :=
  (if x.outputBad i prevOut z then [7] else []) ++
  (if refFails i && inZone x.params z i.refChan.val then [9] else []) ++
  (if i.vsup < 180 then [0xC] else [])

/-- Causes that a cycle in RUN gives zone z (R274). -/
def Dev.cycleCauses (d : Dev) (i : IslandIn) (sev5 : Bool) (prevOut : Nat) (z : Nat) : List Nat :=
  let p := d.isl.params
  let s := d.isl.zone z
  (if s.slrRun = 2 then [3] else []) ++
  (if s.slpRun = 2 then [4] else []) ++
  (if (maskBits 8 (zonePairs p z)).any (fun k => (d.isl.pair k).discrepant p k) then [5] else []) ++
  (if (maskBits 32 (zoneChans p z)).any d.xchkFails then [8] else []) ++
  (if sev5 && bit (pZone p z 2) 3 then [0xB] else []) ++
  d.isl.baseCauses i prevOut z

/-- The reset edges of a cycle (R275): the pairs that had failed start anew. -/
def Dev.resetZone (d : Dev) (old : Island) (z : Nat) : Dev :=
  let p := d.isl.params
  let k := resetIn p z
  if resetEn p z && (d.isl.zone z).armed && resetEdge p k (old.pair k) (d.isl.pair k) && d.isl.mayReset z then
    let d := d.modZone z (fun s =>
      { s with locked := false, cause := 0, causes := [], uvHold := false, armed := false, resetCnt := satInc 16 s.resetCnt })
    { d with isl := { d.isl with
      pairs := (maskBits 8 (zonePairs p z)).foldl (fun t k => tblMod {} t k (fun s => { s with discBad := false })) d.isl.pairs } }
  else d

/-- The off-state readback of a cycle, with its lowest output (R272, R241). -/
def offReport (i : IslandIn) (prevOut : Nat) : List (Nat × Word) :=
  match (List.range 8).find? (fun o => i.readback.getLsbD o && !nbit prevOut o) with
  | some o => [(0x082, word o)]
  | none => []

/-- Reports of a cycle in RUN beside lock-outs: 0x081, 0x082 and 0x083, each with its lowest instance (R241). -/
def Dev.cycleReports (d : Dev) (i : IslandIn) (old : Island) (prevOut : Nat) : List (Nat × Word) :=
  let zs := List.range 8
  (match (List.range 32).find? (fun n => d.xchkFails n && decide (2 * bits (pChan d.isl.params n 3) 15 0 = tblGet 0 d.isl.xchkCyc n)) with
    | some n => [(0x081, word n)] | none => []) ++
  offReport i prevOut ++
  (match zs.findSome? (fun z =>
      let s := d.isl.zone z
      if s.slrRun = 2 then some (pack [(8, 1), (0, z)])
      else if s.occupied && !(old.zone z).occupied then some (pack [(8, 2), (0, z)])
      else if s.slpRun = 2 then some (pack [(8, 3), (0, z)]) else none) with
    | some w => [(0x083, w)] | none => [])

/-- What a cycle starts with in every state: the pulses of severity 5 are seen, requests are taken, and the times of R263 and
R275 go on (R271, R276). -/
def Dev.openCycle (d : Dev) : Dev :=
  let d := ({ d with isl := { d.isl with sev5Pend := false, sev5Seen := d.flt.sev5Pulses, pendingCyc := d.isl.pendingCyc + 1 } }).takeRequests
  forEach (List.range 8) (fun z d => d.modZone z (fun s => { s with armedCyc := s.armedCyc + 1 })) d

/-- A cycle outside RUN: it samples and checks as ever, with all outputs off and every zone locked out (R258, R259, R272). -/
def Dev.restCycle (d : Dev) (i : IslandIn) : Dev :=
  let prevOut := d.isl.outputs
  let d := ((d.openCycle).sampleInputs i).soloCycle i
  let l := d.lockZones (d.isl.baseCauses i prevOut)
  (l.1.driveOutputs).islandEvents (offReport i prevOut ++ l.2)

/-- A cycle of the island in RUN. -/
def Dev.runCycle (d : Dev) (i : IslandIn) : Dev :=
  let q := d.takeParams
  let d := { q.1 with isl := { q.1.isl with cyc := q.1.isl.cyc + 1 } }
  let old := d.isl
  let prevOut := d.isl.outputs
  let sev5 := old.sev5Pend || decide (d.flt.sev5Pulses ≠ old.sev5Seen)
  let d := (((d.openCycle).sampleInputs i).soloCycle i).xchkCycle
  let d := forEach (List.range 8) (fun z d => d.measureZone i z) d
  let d := forEach (List.range 8) (fun z d =>
    let s := d.isl.zone z
    d.modZone z (fun s' => { s' with demandCnt := satAdd 16 s'.demandCnt (b1 (s.slrRun == 2) + b1 (s.slpRun == 2)) })) d
  let d := forEach (List.range 8) (fun z d => d.resetZone old z) d
  let causes := fun (z : Nat) => d.cycleCauses i sev5 prevOut z
  let reps := d.cycleReports i old prevOut
  let l := d.lockZones causes
  (l.1.driveOutputs).islandEvents (reps ++ q.2 ++ l.2)

/-- What takes the island to SAFE_STOP in a cycle (R259). -/
def cycleStops (i : IslandIn) : Bool := !i.coresAgree || !i.memOk || (i.xclock && !i.oscOk)

/-- ISLAND_CYCLE (R258). -/
def execIslandCycle (i : IslandIn) (s : State) : Host.Outcome State Fault Refusal :=
  onDev (fun d =>
    match d.isl.state with
    | .boot => d
    | .safeStop => d.restCycle i
    | .noParams =>
      if cycleStops i then d.safeStop
      else if d.isl.accepted.isSome then d.runCycle i
      else d.restCycle i
    | .run => if cycleStops i then d.safeStop else d.runCycle i) s

/-- SOLO_EXPIRED: SOLO_LEFT has reached zero (R262). -/
def execSoloExpired (s : State) : Host.Outcome State Fault Refusal :=
  onDev (fun d =>
    if d.isl.state == .run && d.isl.solo && decide (soloMax d.isl.params ≤ d.isl.soloCyc) then
      let q := d.lockZones (fun _ => [0xA])
      (q.1.driveOutputs).islandEvents q.2
    else d) s

/-- A channel passes a test pulse (R270): fed by the source it follows it in time, fed by another it does not follow. A channel
that reads low beside the pulse shows nothing of it. -/
def pulsePasses (fed level : Bool) (x : PulseSeen) : Bool :=
  !level ||
  (if fed then (match x.fall, x.rise with
      | some f, some r => decide (f.toNat ≤ 150) && decide (r.toNat ≤ 500)
      | _, _ => false)
   else x.fall.isNone)

/-- Pair i fails a pulse of source `tp` (R270). -/
def Island.pulseFails (x : Island) (tp i : Nat) (a b : List PulseSeen) : Bool :=
  let w := pInput x.params i
  let s := x.pair i
  !(pulsePasses (bits w 5 4 == tp) s.a (a.getD i {}) && pulsePasses (bits w 3 2 == tp) s.b (b.getD i {}))

/-- Input pairs fed by a test-pulse source (R270). -/
def fedBy (p : List Word) (tp : Nat) : Nat :=
  maskOf 8 (fun i => decide (bits (pInput p i) 5 4 = tp) || decide (bits (pInput p i) 3 2 = tp))

/-- TEST_PULSE: each pair is judged, and the zones of those that fail lock out (R270, R274). -/
def execTestPulse (tp : Fin 4) (l : PulseLevels) (s : State) : Host.Outcome State Fault Refusal :=
  onDev (fun d =>
    if d.isl.state != .run then d
    else
      let x := d.isl
      let bad := maskOf 8 (fun i => x.pulseFails tp.val i l.a l.b)
      let pairs := (List.range 8).foldl (fun t i =>
        if nbit bad i then tblMod {} t i (fun s => { s with tpLeft := 10 })
        else if nbit (fedBy x.params tp.val) i then tblMod {} t i (fun s => { s with tpLeft := s.tpLeft - 1 })
        else t) x.pairs
      let d := { d with isl := { x with pairs := pairs } }
      let q := d.lockZones (fun z => if zonePairs x.params z &&& bad ≠ 0 then [6] else [])
      (q.1.driveOutputs).islandEvents q.2) s

/-- OUTPUT_TEST of an energised output (R272). -/
def execOutputTest (n : Fin 8) (_lowSide : Bool) (pass : Bool) (s : State) : Host.Outcome State Fault Refusal :=
  onDev (fun d =>
    if pass || !nbit d.isl.outputs n.val then d
    else
      let q := d.lockZones (fun z => if nbit (zoneOuts d.isl.params z) n.val then [7] else [])
      (q.1.driveOutputs).islandEvents ((0x082, word n.val) :: q.2)) s

/-! ### Island supply and self-test (R259, R453) -/

/-- VSAFE_POWER_ON: the island's own reset. -/
def execVsafePowerOn (s : State) : Host.Outcome State Fault Refusal :=
  onDev (fun d => { d with isl := { sev5Seen := d.flt.sev5Pulses } }) s

/-- ISLAND_SELF_TEST. -/
def execIslandSelfTest (pass : Bool) (s : State) : Host.Outcome State Fault Refusal :=
  onDev (fun d =>
    if d.isl.state != .boot then d
    else if pass then { d with isl := { d.isl with state := .noParams } }
    else d.safeStop) s

/-- VSAFE out of range: the island loses its state and its outputs open; that is an entry to SAFE_STOP, which only
the next VSAFE power-on leaves (R259, R453). -/
def Dev.vsafeLost (d : Dev) : Dev :=
  if d.isl.state == .safeStop then { d with isl := { state := .safeStop, sev5Seen := d.flt.sev5Pulses } }
  else ({ d with isl := { sev5Seen := d.flt.sev5Pulses } }).safeStop

/-- VSAFE_LOSS. -/
def execVsafeLoss (s : State) : Host.Outcome State Fault Refusal := onDev Dev.vsafeLost s

/-! ### Status (R278) -/

/-- SOLO_LEFT in minutes. -/
def Island.soloLeft (x : Island) : Nat := (soloMax x.params - x.soloCyc) / 120000

/-- The island word. -/
def Island.word (x : Island) : Word :=
  let st := match x.state with | .boot => 0 | .noParams => 1 | .run => 2 | .safeStop => 3
  pack [(30, st), (29, b1 x.solo), (28, b1 x.pending.isSome), (13, x.soloLeft)]

/-- The two words of zone z. -/
def Island.zoneWords (x : Island) (z : Nat) : List Word :=
  let s := x.zone z
  let on := x.readback &&& zoneOuts x.params z
  [ pack [(30, if s.locked then 2 else if x.outputs &&& zoneOuts x.params z ≠ 0 then 1 else 0), (29, b1 s.occupied),
          (28, b1 s.uvHold), (27, b1 s.armed), (26, b1 s.req), (20, if s.locked then s.cause else 0), (8, on), (0, s.occPairs)],
    pack [(16, s.demandCnt), (0, s.resetCnt)] ]

/-- SAFETY_STATUS. -/
def bodySafetyStatus : Body := fun r d =>
  if bits (arg r 2) 31 16 = 8 then
    match recForm r 9 1 with
    | none => d.say (.badArg 2)
    | some f => d.say (f.readReply r [d.isl.word])
  else recRead 8 2 (fun d z => d.isl.zoneWords z) r d

/-- SAFETY_STATUS command. -/
def execSafetyStatus (r : Req) (s : State) : Host.Outcome State Fault Refusal :=
  onMain (iapin 0x0605 reads bodySafetyStatus r) s

end Sys2Proof.Machine
end

