-- ==== Sys2Proof/Machine/Mailbox.lean ====
section
/-!
DEFINITION. Mailbox channels (R398 to R405), fallback queues (R406, R407), interrupt words (R408, R409)
and the QSPI and PCIe port events (R390 to R394).
-/

namespace Sys2Proof.Machine

/-! ### Channels -/

/-- A write to a mailbox channel by the identity that `side` gives it: nothing before the table is locked
or on a channel that is not VALID; any other identity is counted (R397, R399, R407). -/
def Dev.boxWrite (d : Dev) (m : Master) (ch : Nat) (side : Chan → Nat) (f : Dev → Dev) : Dev :=
  if d.asleep m then d.unsupported m
  else if !d.host.bindLocked || !(d.boxOf ch).valid then d
  else if side (d.boxOf ch) = masterId m then f d
  else d.violation m

/-- The requester writes GO = 1 (R402); up to the first core cycle of a discard the request goes with it (R257). -/
def Dev.post (d : Dev) (ch : Nat) : Dev :=
  let c := d.boxOf ch
  if c.go then d
  else
    let d := (d.modBox ch (fun c =>
      { c with prevRep := c.rep, go := true, goAt := d.now, seq := (c.seq + 1) % 65536, done := false, withdrawn := false, disc := false })).raise c.rspId 2
    if d.discardOpen then d.discardBox ch else d

/-- The requester writes GO = 0 (R402): withdrawn before pickup, too late after it. -/
def Dev.withdraw (d : Dev) (ch : Nat) : Dev :=
  let c := d.boxOf ch
  if !c.go then d
  else if c.picked then d.modBox ch (fun c => { c with wdLate := true })
  else d.modBox ch (fun c => { c with go := false, withdrawn := true })

/-- The firmware's turn has come to a channel: no other that waits for it has had GO set earlier, or in the same core cycle with
a lower number (R431). -/
def Dev.hasTurn (d : Dev) (ch : Nat) : Bool :=
  (List.range 32).all (fun n =>
    let c := d.boxOf n
    !(c.go && !c.picked && c.valid && c.rspId == 0x20) || n == ch || decide ((d.boxOf ch).goAt < c.goAt) ||
    (decide ((d.boxOf ch).goAt = c.goAt) && decide (ch < n)))

/-- The firmware's answer to a request it has picked up whose opcode no group table lists: BAD_OPCODE, or NOT_BOUND where the
channel does not carry its group, or the stored reply of R413 (R398, R414). Every other request is a command of its own. -/
def Dev.turnAway (d : Dev) (ch : Fin 32) : Dev :=
  let ws := (d.boxOf ch.val).req
  let r := Req.ofBlock ch true ws
  let op := opcodeOf ws
  if d.host.bootStage ≠ 3 ∨ (commandOf op r).isSome then d
  else match d.storedReply r with
    | some b => d.repeatReply r b
    | none => d.answer op r (if op < 0x1000 ∧ !nbit (d.boxOf ch.val).groups (op / 256) then .notBound else .badOpcode)

/-- A channel's message picked up: whether it repeats one that had been answered is kept (R402, R413). -/
def Chan.pick (c : Chan) : Chan := { c with picked := true, again := (c.stored.map (·.1)) == some (wat c.req 1) }

/-- The responder writes PICK (R402); the firmware takes the channels in their order (R431). -/
def Dev.pickUp (d : Dev) (ch : Nat) : Dev :=
  let c := d.boxOf ch
  if !c.go || c.picked then d
  else if c.rspId ≠ 0x20 then d.modBox ch Chan.pick
  else if d.hasTurn ch then (d.modBox ch Chan.pick).turnAway (Fin.ofNat 32 ch)
  else d

/-- The firmware still owes the answer to a channel's message: on a ply active its write has not been sealed, or waits for the next
tick, or the stop of an injection has not landed (R239, R403, R432, R462). -/
def Dev.owes (d : Dev) (ch : Nat) : Bool :=
  let c := d.boxOf ch
  let mine := fun (r : Req) => askerOf r == (ch, wat c.req 1)
  c.rspId == 0x20 && !c.again && (d.ply.answers.any (fun a => !a.final && mine a.req) || d.ply.deferred.any (fun w => !w.ends && mine w.req) ||
    d.test.stops.any (fun x => mine x.req))

/-- The responder writes LAND (R402), which the firmware does once the write is sealed (R403, R432). -/
def Dev.landed (d : Dev) (ch : Nat) : Dev :=
  let c := d.boxOf ch
  if c.go && c.picked && !c.landed && !d.owes ch then d.modBox ch (fun c => { c with landed := true }) else d

/-- The responder writes DONE_SET (R402), which the firmware does once it has answered. -/
def Dev.complete (d : Dev) (ch : Nat) : Dev :=
  let c := d.boxOf ch
  if c.go && c.picked && !d.owes ch then
    (d.modBox ch (fun c => { c with done := true, go := false, picked := false, landed := false })).raise c.reqId 1
  else d

/-- GO_POST. -/
def execGoPost (m : Master) (ch : Fin 32) (s : State) : Host.Outcome State Fault Refusal :=
  onMain (fun d => d.boxWrite m ch.val Chan.reqId (fun d => d.post ch.val)) s

/-- GO_WITHDRAW. -/
def execGoWithdraw (m : Master) (ch : Fin 32) (s : State) : Host.Outcome State Fault Refusal :=
  onMain (fun d => d.boxWrite m ch.val Chan.reqId (fun d => d.withdraw ch.val)) s

/-- PICK. -/
def execPick (m : Master) (ch : Fin 32) (s : State) : Host.Outcome State Fault Refusal :=
  onMain (fun d => d.boxWrite m ch.val Chan.rspId (fun d => d.pickUp ch.val)) s

/-- LAND. -/
def execLand (m : Master) (ch : Fin 32) (s : State) : Host.Outcome State Fault Refusal :=
  onMain (fun d => d.boxWrite m ch.val Chan.rspId (fun d => d.landed ch.val)) s

/-- DONE_SET. -/
def execDoneSet (m : Master) (ch : Fin 32) (s : State) : Host.Outcome State Fault Refusal :=
  onMain (fun d => d.boxWrite m ch.val Chan.rspId (fun d => d.complete ch.val)) s

/-- A write of the doorbell word by the requester (R400): W1C bits, then GO. -/
def Dev.doorbell (d : Dev) (ch : Nat) (v : Word) : Dev :=
  let d := d.modBox ch (fun c =>
    { c with done := c.done && !bit v 28, withdrawn := c.withdrawn && !bit v 27,
             wdLate := c.wdLate && !bit v 25, reqWerr := c.reqWerr && !bit v 24 })
  if bit v 31 then d.post ch else d.withdraw ch

/-- A write of the responder control word (R401). -/
def Dev.control (d : Dev) (ch : Nat) (v : Word) : Dev :=
  let d := if bit v 2 then d.pickUp ch else d
  let d := if bit v 1 then d.landed ch else d
  if bit v 0 then d.complete ch else d

/-- A write of request block word i (R399): ignored with REQ_WERR while GO is set. -/
def Dev.writeReq (d : Dev) (ch i : Nat) (v : Word) : Dev :=
  if (d.boxOf ch).go then d.modBox ch (fun c => { c with reqWerr := true })
  else d.modBox ch (fun c => { c with req := c.req.set i v })

/-- A write of reply block word i (R399, R405): ignored while PICKED is clear. -/
def Dev.writeRep (d : Dev) (ch i : Nat) (v : Word) : Dev :=
  if (d.boxOf ch).picked then d.modBox ch (fun c => { c with rep := c.rep.set i v }) else d

/-- The doorbell word (R400). -/
def Chan.doorWord (c : Chan) : Word :=
  pack [(31, b1 c.go), (30, b1 c.picked), (29, b1 c.landed), (28, b1 c.done), (27, b1 c.withdrawn),
        (26, b1 c.disc), (25, b1 c.wdLate), (24, b1 c.reqWerr), (0, c.seq)]

/-- BIND_LOCK by the management processor, never in recovery (R398); channel 0 then follows its binding, so FBQ may become
true for another identity (R407, R409), and the firmware is ready for Iapin (note 13). -/
def Dev.lockBinding (d : Dev) : Dev :=
  if d.host.bindLocked || d.host.bootStage == 0xF then d
  else
    let e := d.edge { d with host := { d.host with bindLocked := true } } 3
    if d.host.bootStage = 2 then e.setStage 3 else e

/-- BIND_LOCK. -/
def execBindLock (m : Master) (s : State) : Host.Outcome State Fault Refusal :=
  onMain (fun d => if d.asleep m then d.unsupported m else if masterId m = 0x20 then d.lockBinding else d.violation m) s

/-- A write of a binding word by the management processor: once, and not after the lock (R398). -/
def Dev.writeBinding (d : Dev) (ch : Nat) (second : Bool) (v : Word) : Dev :=
  d.modBox ch (fun c =>
    if d.host.bindLocked then c
    else if second then (if c.bind1W then c else { c with bind1 := v &&& 0x0000FFFF, bind1W := true })
    else (if c.bind0W then c else { c with bind0 := v &&& 0x8000FFFF, bind0W := true }))

/-- A write of an access table word by the management processor: once, and not after the lock (R397,
R398). -/
def Dev.writeWrEn (d : Dev) (i : Nat) (v : Word) : Dev :=
  let w := tblGet ({} : WrEn) d.host.wrEn i
  if d.host.bindLocked || w.written then d
  else { d with host := { d.host with wrEn := tblSet {} d.host.wrEn i { value := bits v 5 0, written := true } } }

/-! ### Fallback queues -/

/-- FWD_DATA written (R406). -/
def execFwdDataPush (m : Master) (ch : Fin 32) (v : Word) (s : State) : Host.Outcome State Fault Refusal :=
  onMain (fun d => if d.asleep m then d.unsupported m else
    if (d.requesters ch.val).contains (masterId m) then d.pushFwd ch.val v else d.violation m) s

/-- A word that the recovery firmware takes from FWD of channel 0: the command that programs a blank integrator key fuse does so
once; which words make it up is free (R407, R442, note 184). -/
def Dev.recoveryWord (d : Dev) (ch : Nat) (w : Word) : Dev :=
  if ch = 0 ∧ d.host.bootStage = 0xF ∧ !d.flash.keyFuse ∧ Config.programsFuse w then
    { d with flash := { d.flash with keyFuse := true } }
  else d

/-- FWD_DATA read (R406): the responder pops the head; any other master reads zero. -/
def Dev.popFwd (m : WordRead) (ch : Nat) (d : Dev) : Dev :=
  if (d.responders ch).contains (masterId m.master) then
    let w := (d.boxOf ch).fwd.headD 0
    ((d.modBox ch (fun c => { c with fwd := c.fwd.tail })).recoveryWord ch w).giveBytes m.bytes w
  else d.giveRead 0

/-- FWD_DATA_POP. -/
def execFwdDataPop (m : WordRead) (ch : Fin 32) (s : State) : Host.Outcome State Fault Refusal :=
  onMain (fun d => if d.asleep m.master then d.unsupported m.master else d.popFwd m ch.val) s

/-- BACK_DATA written (R406). -/
def execBackDataPush (m : Master) (ch : Fin 32) (v : Word) (s : State) : Host.Outcome State Fault Refusal :=
  onMain (fun d => if d.asleep m then d.unsupported m else
    if (d.responders ch.val).contains (masterId m) then d.pushBack ch.val v else d.violation m) s

/-- BACK_DATA read (R406): the requester pops. -/
def Dev.popBack (m : WordRead) (ch : Nat) (d : Dev) : Dev :=
  if (d.requesters ch).contains (masterId m.master) then
    (d.modBox ch (fun c => { c with back := c.back.tail })).giveBytes m.bytes ((d.boxOf ch).back.headD 0)
  else d.giveRead 0

/-- BACK_DATA_POP. -/
def execBackDataPop (m : WordRead) (ch : Fin 32) (s : State) : Host.Outcome State Fault Refusal :=
  onMain (fun d => if d.asleep m.master then d.unsupported m.master else d.popBack m ch.val) s

/-- The status word of a channel's queues (R406). -/
def Chan.queueWord (c : Chan) : Word :=
  pack [(9, b1 c.fwdOvf), (8, b1 c.backOvf), (4, c.fwd.length), (0, c.back.length)]

/-- The OVF bits written 1 (R406). -/
def Dev.clearOvf (d : Dev) (ch : Nat) (v : Word) : Dev :=
  d.modBox ch (fun c => { c with fwdOvf := c.fwdOvf && !bit v 9, backOvf := c.backOvf && !bit v 8 })

/-! ### Interrupt words -/

/-- INT_CAUSE of an identity (R389, R408). -/
def Dev.causeWord (d : Dev) (id : Nat) : Word := (d.intOf id).cause ||| word (d.levels id)

/-- INT_CAUSE written (R408): latched causes clear; a level cause that is still set sends its message
again (R409). -/
def Dev.clearCauses (d : Dev) (id : Nat) (v : Word) : Dev :=
  let d := d.modInt id (fun i => { i with cause := i.cause &&& ~~~(v &&& 0x00000407) })
  (maskBits 10 (v.toNat &&& d.levels id &&& 0x3F8)).foldl (fun d b => d.message id b) d

/-- INT_CAUSE_CLEAR. -/
def execIntCauseClear (m : Master) (v : Word) (s : State) : Host.Outcome State Fault Refusal :=
  onMain (fun d => d.guarded m 0 (fun d => d.clearCauses (masterId m) v)) s

/-- INT_EN written: a cause that thereby becomes set in both sends its message (R409). -/
def Dev.writeEnables (d : Dev) (id : Nat) (v : Word) : Dev :=
  let new := (d.causeWord id &&& v &&& ~~~(d.intOf id).en).toNat
  let d := d.modInt id (fun i => { i with en := v })
  (maskBits 11 new).foldl (fun d b => d.message id b) d

/-- HQ_IRQ_N is asserted (R394). -/
def Dev.qspiIrq (d : Dev) : Bool := decide (d.causeWord 0x10 &&& (d.intOf 0x10).en ≠ 0)

/-- The level that the device gives HQ_IRQ_N, which is open-drain: low while asserted, else high impedance, as in reset
(R394, R451). -/
def Dev.qspiIrqPin (d : Dev) : Option Bool := if !d.pwr.held && d.qspiIrq then some false else none

/-- What the device drives on HQ_IO[3:0]: the lanes of the data phase that it answers, and high impedance without one and
in reset (R393, R451). -/
def Dev.qspiIoPins (d : Dev) (data : Option (BitVec 4)) : Option (BitVec 4) := if d.pwr.held then none else data

/-! ### Port events -/

/-- QSPI STATUS (R393): returns ERR and IRQ and clears ERR. -/
def Dev.qspiStatus (d : Dev) : Dev :=
  let w := pack [(0, b1 d.host.qspiErr), (1, b1 d.qspiIrq)]
  ({ d with host := { d.host with qspiErr := false } }).giveRead w

/-- QSPI_STATUS. -/
def execQspiStatus (s : State) : Host.Outcome State Fault Refusal := onMain Dev.qspiStatus s

/-- A QSPI transaction breaks a rule of R394. -/
def Dev.qspiError (d : Dev) : Dev := ({ d with host := { d.host with qspiErr := true } }).event 0x0A1 0

/-- QSPI_PROTOCOL_ERROR (R394). -/
def execQspiProtocolError (s : State) : Host.Outcome State Fault Refusal := onMain Dev.qspiError s

/-- The interrupt words of an identity return to zero and its function leaves its power state (R392, note 183). -/
def Dev.resetFn (d : Dev) (n : Nat) : Dev :=
  let d := d.modInt (n + 1) (fun i => { i with cause := 0, en := 0 })
  d.modFn n (fun _ => {})

/-- PERST_N asserted (R392): both functions reset. -/
def execPerstN (s : State) : Host.Outcome State Fault Refusal :=
  onMain (fun d => (d.resetFn 0).resetFn 1) s

/-- FUNCTION_LEVEL_RESET (R392). -/
def execFunctionLevelReset (f : Fin 2) (s : State) : Host.Outcome State Fault Refusal :=
  onMain (fun d => d.resetFn f.val) s

/-- PCIE_LINK_DOWN (R392): the lanes and the rate that the link trains to next are the link partner's, and free (R390). -/
def execPcieLinkDown (s : State) : Host.Outcome State Fault Refusal :=
  onMain (fun d => d.retrainPcie.event 0x0A0 0) s

/-- POWER_STATE_CHANGE (R392): on return to D0 the latched, enabled causes are sent. -/
def execPowerStateChange (f : Fin 2) (d3hot : Bool) (s : State) : Host.Outcome State Fault Refusal :=
  onMain (fun d =>
    let was := (d.fnOf f.val).d3hot
    let d := d.modFn f.val (fun x => { x with d3hot := d3hot })
    if was && !d3hot then
      (maskBits 11 (d.causeWord (f.val + 1)).toNat).foldl (fun d b => d.message (f.val + 1) b) d
    else d) s

end Sys2Proof.Machine
end

