-- ==== Sys2Proof/Machine/Recipe.lean ====
section
/-!
DEFINITION. Efaraelle (R86 to R100): recipes, local time, the recipe step, flux to current, scales and
derates, and the commands of the recipe part of group 0x02.
-/

namespace Sys2Proof.Machine

/-! ### Recipe images (R87) -/

/-- Channel n is covered. -/
def recipeCovers (ws : List Word) (n : Nat) : Bool := bit (wat ws 1) n
/-- WP_COUNT of channel n. -/
def wpCount (ws : List Word) (n : Nat) : Nat := bits (wat ws (4 + 6 * n)) 15 8
/-- WP_INDEX of channel n. -/
def wpIndex (ws : List Word) (n : Nat) : Nat := bits (wat ws (5 + 6 * n)) 15 0
/-- TIME_S of waypoint k. -/
def wpTime (ws : List Word) (k : Nat) : Nat := bits (wat ws (196 + 2 * k)) 16 0
/-- RAMP of waypoint k. -/
def wpCosine (ws : List Word) (k : Nat) : Bool := bit (wat ws (196 + 2 * k)) 17
/-- FLUX of waypoint k. -/
def wpFlux (ws : List Word) (k : Nat) : Nat := (wat ws (197 + 2 * k)).toNat

/-- Waypoints up to the last that a covered channel's block reaches (R418). -/
def wayArea (ws : List Word) : Nat :=
  (List.range 32).foldl (fun m n => if recipeCovers ws n then max m (wpIndex ws n + wpCount ws n) else m) 0

/-- Failing words of channel n's block (R87). -/
def recipeBadBlock (ws : List Word) (n : Nat) : List Nat :=
  let c := wpCount ws n
  (if bits (wat ws (4 + 6 * n)) 31 16 ≠ 0 ∨ bits (wat ws (4 + 6 * n)) 7 0 ≠ 0 ∨
      (recipeCovers ws n ∧ (c = 0 ∨ 96 < c)) then [4 + 6 * n] else []) ++
  (if bits (wat ws (5 + 6 * n)) 31 16 ≠ 0 ∨ (0 < c ∧ wayArea ws < wpIndex ws n + c) then [5 + 6 * n] else []) ++
  [6, 7, 8, 9].filterMap (fun i => if wat ws (i + 6 * n) ≠ 0 then some (i + 6 * n) else none)

/-- Waypoints of a channel that do not follow the one before them in time. -/
def recipeBadOrder (ws : List Word) (n : Nat) : List Nat :=
  (List.range (wpCount ws n - 1)).filterMap (fun j =>
    let k := wpIndex ws n + j
    if wpTime ws (k + 1) ≤ wpTime ws k then some (196 + 2 * (k + 1)) else none)

/-- The first failing word of a recipe (R87). -/
def recipeBad (ws : List Word) : Option Nat :=
  let head := [2, 3].filter (fun i => decide (wat ws i ≠ 0))
  let ways := (List.range (wayArea ws)).filterMap (fun k =>
    if bits (wat ws (196 + 2 * k)) 31 18 ≠ 0 ∨ 86400 ≤ wpTime ws k then some (196 + 2 * k) else none)
  let all := head ++ (List.range 32).flatMap (recipeBadBlock ws) ++ ways ++ (List.range 32).flatMap (recipeBadOrder ws)
  all.foldl (fun a i => match a with | none => some i | some x => some (min x i)) none

/-- A recipe slot. -/
def Dev.slotOf (d : Dev) (n : Nat) : Slot := tblGet {} d.recipes.slots n

/-- The end of RECIPE_LOAD (R86, R87, R418): the slot loaded last is the staged content of RECIPE. -/
def finishRecipeLoad : Body := imgFinish (fun ws => some (784 + 8 * wayArea ws)) (fun ws r d =>
  let n := (arg r 2).toNat
  match recipeBad ws with
  | some i => d.say (.badImage i)
  | none =>
    if d.slotTaken n then d.say .wrongState
    else if checkOnly r then d.doneStaged
    else Dev.doneStaged { d with recipes := { d.recipes with
        slots := tblSet {} d.recipes.slots n { valid := true, words := ws }, staged := some n } })

/-- RECIPE_LOAD command. -/
def execRecipeLoad (r : Req) (s : State) : Host.Outcome State Fault Refusal :=
  onMain (iapin 0x0201 writes
    (imgStart 0x0201 none (fun w => decide (w.toNat ≤ 15)) (fun r d => d.slotTaken (arg r 2).toNat)) r) s

/-! ### Local time and flux (R88, R89) -/

/-- Units of TB0 in one second: 2^-32 ns. -/
def tbSecond : Nat := 1000000000 * 2 ^ 32

/-- Local time within the day, in units of 2^-32 ns (R89). -/
def Dev.localTime (d : Dev) : Nat :=
  (((d.clk.tb0.count : Int) + d.recipes.localOffset * (tbSecond : Int)) % ((86400 * tbSecond : Nat) : Int)).toNat

/-- The cosine shape at p (R88): (1 − cos πp) ÷ 2, the square of the sine of πp ÷ 2. DESIGN CHOICE (note 136): the sine is
a series of 14 terms in units of 2^-60, whose error the rounding of the flux sees. -/
def cosineShape (p : Rat) : Rat :=
  let x := pi60 * p.num / (2 * (p.den : Int))
  let s : Rat := (sineTerms 14 (x * x / (2 ^ 60 : Nat)) x 1 : Rat) / (2 ^ 60 : Nat)
  s * s

/-- Recipe flux of channel n at local time t, in 1/16 µmol/s (R88). -/
def fluxAt (ws : List Word) (n t : Nat) : Rat :=
  if !recipeCovers ws n then 0
  else
    let c := wpCount ws n
    let i := wpIndex ws n
    let cur := ((List.range c).filter (fun j => decide (wpTime ws (i + j) * tbSecond ≤ t))).getLast?.getD (c - 1)
    let nxt := (cur + 1) % c
    let a := i + cur
    let len := (wpTime ws (i + nxt) + 86400 - wpTime ws a) % 86400
    let fa : Rat := wpFlux ws a
    if c ≤ 1 ∨ len = 0 then fa
    else
      let p : Rat := ((t + 86400 * tbSecond - wpTime ws a * tbSecond) % (86400 * tbSecond) : Nat) / (len * tbSecond : Nat)
      fa + ((wpFlux ws (i + nxt) : Rat) - fa) * (if wpCosine ws a then cosineShape p else p)

/-! ### Flux to current (R93) -/

/-- The square root of a rational, cut to 80 fractional bits. DESIGN CHOICE (note 136): R93 states no precision. -/
def ratSqrt (x : Rat) : Rat := ((isqrtGo 112 (x * (2 ^ 160 : Nat)).floor.toNat 0 : Nat) : Rat) / (2 ^ 80 : Nat)

/-- The current in A for a power in W; none where the spec states no result (R93). -/
def ChanCal.current (c : ChanCal) (p : Rat) : Option Rat :=
  let v : Rat := (c.v0 : Rat) / 100
  let r : Rat := (c.rd : Rat) / 1000000
  if p ≤ 0 then some 0
  else if c.rd = 0 then (if c.v0 = 0 then none else some (p / v))
  else some ((ratSqrt (v * v + 4 * r * p) - v) / (2 * r))

/-- The current target in A before its clamp, for a flux in 1/16 µmol/s. -/
def ChanCal.wanted (c : ChanCal) (flux : Rat) : Option Rat :=
  if flux ≤ 0 then some 0
  else if c.eta = 0 then none
  else c.current (flux * 4096 / (c.eta : Rat))


/-- A current in p.u. of channel current rating, Q1.31, saturated (R65); zero on a channel without one (R66). -/
def ChanCal.perUnit (c : ChanCal) (i : Rat) : Int :=
  if i ≤ 0 ∨ c.iRated = 0 then 0
  else
    let x := roundFree (i * 10 / (c.iRated : Rat) * (2 ^ 31 : Nat)) 0
    if x < (2 ^ 31 : Nat) then x else 0x7FFFFFFF

/-- A flux as its record word. -/
def fluxWord (x : Rat) : Nat := (roundFree x 1).toNat

/-- The target of a channel computed for a local time (R89, R93, R100). -/
def Channel.newTarget (c : Channel) (ws : List Word) (n t : Nat) (live : Bool) : Channel :=
  let flux := if live then fluxAt ws n t else 0
  let ft := flux * (c.scDl * c.scDr * c.derate : Nat) / (2 ^ 45 : Nat)
  let lim : Rat := (c.stepCal.iMax : Rat) / 10
  let i := match c.stepCal.wanted ft with
    | some x => x
    | none => (Config.freeCurrent ft : Rat)
  { c with
    fluxRecipe := fluxWord flux, fluxTarget := fluxWord ft, clamped := decide (lim < i)
    iTarget := c.stepCal.perUnit (if lim < i then lim else i) }

/-- Targets of every channel for the present instant under the slot in force, each started on its ramp
from the present reference (R91, R97); until the start state is RUN a target counts as zero (R448). STEP_MISSED clears only at
a delivered step (R100), where a new calibration first affects a target (R93). DESIGN CHOICE (note 137): at a RECIPE commit the words of R100 that speak of the last step take the
values computed for T. -/
def Dev.newTargets (d : Dev) (step : Bool) : Dev :=
  let ws := if (d.slotOf d.recipes.inForce).valid then (d.slotOf d.recipes.inForce).words else []
  let t := d.localTime
  forEach (List.range 32) (fun n d =>
    d.modChan n (fun c =>
      let c := { c with stepCal := if step then c.cal else c.stepCal }.newTarget ws n t d.clk.tb0.everValid
      { c with rampFrom := c.ref, rampTo := if d.pwr.start == .run then c.iTarget else 0, rampTick := d.tk.tick
               stepMissed := c.stepMissed && !step })) d

/-! ### Steps (R90 to R92, R94, R96) -/

/-- STEP_TICKS: ticks of one recipe step (R90). -/
def Dev.stepTicks (d : Dev) : Nat := 125000000 / d.tickCycles

/-- The core cycle from which a write accepted now counts. DEDUCED (note 138): one of a ply active counts from the boundary
at which the standby has it, so that both land it at the same step (R80, R219). -/
def Dev.stepSince (d : Dev) : Nat :=
  if d.sealsWrites && d.tk.seqRun then d.tk.tickStart + d.tickCycles * (1 + d.sealCarry) else d.now

/-- A write that counts from a core cycle reaches the step whose boundary began this tick: 20 ms lie between (R90). -/
def Dev.reaches (d : Dev) (since : Nat) : Bool := decide (since + 25000000 ≤ d.tk.tickStart)

/-- The step tick at which a write accepted now lands (R90). -/
def Dev.stepLandTick (d : Dev) : Nat :=
  let n := d.stepTicks
  if n = 0 then 0
  else
    let first := d.tk.tick + (d.stepSince + 25000000 - d.tk.tickStart + d.tickCycles - 1) / d.tickCycles
    (first + n - 1) / n * n

/-- A write that lands at a step, with its LAND_TICK (R90, R411). -/
def Dev.doneAtStep (d : Dev) (r : Req) (w : StepWrite) : Rep × Dev :=
  (.ok [if d.tk.seqRun then word d.stepLandTick else 0],
   { d with recipes := { d.recipes with
      stepWrites := d.recipes.stepWrites ++ [{ write := w, since := d.stepSince, asker := some (askerOf r) }] } })

/-- One write lands (R92, R94). -/
def landStepWrite (w : StepWrite) (at0 : Nat) (d : Dev) : Dev :=
  match w with
  | .localOffset v => { d with recipes := { d.recipes with localOffset := v } }
  | .dlTimeout v => { d with recipes := { d.recipes with dlTimeout := v } }
  | .scale mask which value drEnd =>
    forEach (maskBits 32 mask) (fun n d => d.modChan n (fun c =>
      if which = 1 then { c with scDl := value, dlTick := at0 + 1, dlExpired := false }
      else { c with scDr := value, drEnd := drEnd })) d

/-- A waiting SC_DL write for channel n. -/
def StepItem.feeds (w : StepItem) (n : Nat) : Bool :=
  match w.write with
  | .scale mask which _ _ => which == 1 && nbit mask n
  | _ => false

/-- DL_TIMEOUT in core cycles. -/
def Dev.dlSpan (d : Dev) : Nat := 1250000000 * d.recipes.dlTimeout

/-- The last SC_DL write for channel n of those that came in time, each within DL_TIMEOUT of the one before it: a write that
waits for its step feeds the timer, one that came too late does not (R94). -/
def Dev.dlFed (d : Dev) (n : Nat) : Nat :=
  (d.recipes.stepWrites.filter (fun w => w.feeds n)).foldl (fun t w => if w.since < t + d.dlSpan then max t w.since else t)
    ((d.chanOf n).dlTick - 1)

/-- SC_DL of channel n has timed out (R94). DESIGN CHOICE (note 163): an SC_DL that nothing has written since reset does not
time out. -/
def Dev.dlOver (d : Dev) (n : Nat) : Bool :=
  decide ((d.chanOf n).dlTick ≠ 0) && decide (d.recipes.dlTimeout ≠ 0) && decide (d.dlFed n + d.dlSpan ≤ d.tk.tickStart)

/-- The expiry of SC_DL (R94). -/
def Dev.expireDaylight (d : Dev) : Dev :=
  let gone := (List.range 32).filter d.dlOver
  let d := forEach gone (fun n d => d.modChan n (fun c => { c with scDl := 0x8000, dlTick := 0, dlExpired := true })) d
  if gone.isEmpty then d else d.event 0x019 (word (maskOf 32 gone.contains))

/-- The expiry of SC_DR (R94). -/
def Dev.expireDemand (d : Dev) : Dev :=
  let secs := d.clk.tb0.count / tbSecond
  forEach (List.range 32) (fun n d => d.modChan n (fun c =>
    if c.drEnd ≠ 0 ∧ c.drEnd ≤ secs then { c with scDr := 0x8000, drEnd := 0 } else c)) d

/-- D of a channel from its lowest ratio since the previous step (R96); the step resets it (R118). DESIGN CHOICE (note 162): the
product is rounded down. -/
def Channel.stepDerate (c : Channel) : Channel :=
  if c.minRatio < 0x7FFFFFFF then
    { c with derate := max 1 (c.derate * c.minRatio / 2 ^ 31), cutFlag := true, minRatio := 0x7FFFFFFF }
  else { c with derate := min 0x8000 (c.derate + 0x41), cutFlag := false }

/-- A delivered recipe step. DEDUCED (note 67): SC_DL expires before the writes land, so one that came too late lands on the
expired scale and clears DL_EXPIRED (R100); SC_DR expires after them. -/
def Dev.recipeStep (d : Dev) : Dev :=
  let d := d.expireDaylight
  let due := d.recipes.stepWrites.filter (fun w => d.reaches w.since)
  let rest := d.recipes.stepWrites.filter (fun w => !d.reaches w.since)
  let d := { d with recipes := { d.recipes with stepWrites := rest } }
  let d := due.foldl (fun d w => landStepWrite w.write w.since d) d
  let d := d.expireDemand
  let d := forEach (List.range 32) (fun n d => d.modChan n Channel.stepDerate) d
  d.newTargets true

/-- A step whose targets were not delivered by the boundary (R91). DESIGN CHOICE (note 164): it leaves MIN_RATIO, the scales and
the writes that wait to the next delivered step (R118). -/
def Dev.recipeMissed (d : Dev) : Dev :=
  let d := forEach (List.range 32) (fun n d => d.modChan n (fun c =>
    { c with stepMissed := true, rampFrom := c.ref, rampTo := c.ref, rampTick := d.tk.tick })) d
  d.event 0x018 (word d.tk.tick)

/-- RECIPE_STEP: falls on ticks that are a multiple of STEP_TICKS while the sequencer runs (R90). -/
def execRecipeStep (delivered : Bool) (s : State) : Host.Outcome State Fault Refusal :=
  onMain (fun d =>
    if d.tk.seqRun && decide (d.tk.tick % d.stepTicks = 0) then
      (if delivered then d.recipeStep else d.recipeMissed)
    else d) s

/-- The largest change of a reference in one tick (R91). DESIGN CHOICE (notes 139 and 188): the product is rounded down, and a
negative MAX_SLEW lets nothing move. -/
def Dev.refSlew (d : Dev) (c : ChanCal) : Int := max 0 c.maxSlew * (d.tickCycles : Int) / 1250000000

/-! ### Commits (R57, R93, R97) -/

/-- A RECIPE commit: the slot that the arm named is in force and its targets start the ramp anew. -/
def Dev.commitRecipe (d : Dev) : Dev :=
  match d.recipes.armed.orElse (fun _ => d.recipes.staged) with
  | none => d
  | some n =>
    let r := d.recipes
    ({ d with recipes := { r with inForce := n, armed := none, staged := if r.staged = some n then none else r.staged } }).newTargets false

/-- A CHAN commit: calibrations, limits and priorities in force. -/
def Dev.commitChan (d : Dev) : Dev :=
  forEach (List.range 32) (fun n d => d.modChan n (fun c =>
    match c.staged with
    | some x => { c with cal := x, staged := none }
    | none => c)) d

/-! ### Commands (R424) -/

/-- CHAN_STAGE. DESIGN CHOICE (note 188): every MAX_SLEW is taken, a negative one too. -/
def bodyChanStage : Body := fun r d =>
  let cal : ChanCal :=
    { eta := (arg r 3).toNat, v0 := (arg r 4).toNat, rd := (arg r 5).toNat, iMax := (arg r 6).toNat
      maxSlew := sval (arg r 7), priority := bits (arg r 8) 3 0
      iRated := (arg r 9).toNat, pRated := (arg r 10).toNat }
  (d.modChan (bits (arg r 2) 4 0) (fun c => { c with staged := some cal })).doneStaged

/-- CHAN_STAGE command. -/
def execChanStage (r : Req) (s : State) : Host.Outcome State Fault Refusal :=
  onMain (iapin 0x0202 writes bodyChanStage r) s

/-- LOCAL_OFFSET (R89, R92). -/
def bodyLocalOffset : Body := fun r d =>
  let v := sval (arg r 2)
  if v < -86400 ∨ 86400 < v then d.say (.badArg 2) else d.doneAtStep r (.localOffset v)

/-- LOCAL_OFFSET command. -/
def execLocalOffset (r : Req) (s : State) : Host.Outcome State Fault Refusal :=
  onMain (iapin 0x0203 writes bodyLocalOffset r) s

/-- SCALE (R94). -/
def bodyScale : Body := fun r d =>
  let which := bits (arg r 3) 17 16
  if which = 0 ∨ which = 3 ∨ 0x8000 < bits (arg r 3) 15 0 then d.say (.badArg 3)
  else d.doneAtStep r (.scale (arg r 2).toNat which (bits (arg r 3) 15 0) (join48 (arg r 4) (arg r 5)))

/-- SCALE command. -/
def execScale (r : Req) (s : State) : Host.Outcome State Fault Refusal :=
  onMain (iapin 0x0204 writes bodyScale r) s

/-- DL_TIMEOUT (R94). -/
def bodyDlTimeout : Body := fun r d =>
  if 3600 < (arg r 2).toNat then d.say (.badArg 2) else d.doneAtStep r (.dlTimeout (arg r 2).toNat)

/-- DL_TIMEOUT command. -/
def execDlTimeout (r : Req) (s : State) : Host.Outcome State Fault Refusal :=
  onMain (iapin 0x0205 writes bodyDlTimeout r) s

/-- The four words of a channel's target record (R100). -/
def Dev.targetWords (d : Dev) (n : Nat) : List Word :=
  let c := d.chanOf n
  let s := d.slotOf d.recipes.inForce
  [ word c.fluxRecipe, word c.fluxTarget, sword c.iTarget,
    pack [(16, c.derate), (12, c.cal.priority), (5, b1 c.clamped), (4, b1 c.cutFlag), (3, b1 c.dlExpired),
          (2, b1 (decide (c.scDr < 0x8000))), (1, b1 c.stepMissed), (0, b1 (s.valid && recipeCovers s.words n))] ]

/-- TARGET command (R100). -/
def execTarget (r : Req) (s : State) : Host.Outcome State Fault Refusal :=
  onMain (iapin 0x0206 reads (recRead 32 4 Dev.targetWords) r) s

end Sys2Proof.Machine
end

