-- ==== Sys2Proof/Machine/Referee.lean ====
section
/-!
DEFINITION. The referee role (R213, R231 to R233): its commands, its view of both members and its decision table.
-/

namespace Sys2Proof.Machine

/-- Referee fields changed by f. -/
def Dev.modRef (d : Dev) (f : Referee → Referee) : Dev := { d with ref := f d.ref }

/-- REFEREE_TICK (R426): referee role only, fixed once the referee runs. -/
def bodyRefereeTick : Body := fun r d =>
  let n := (arg r 2).toNat
  if d.ply.role != .referee || d.ref.run then d.say .wrongState
  else if n < 781 ∨ 6249 < n then d.say (.badArg 2)
  else (d.modRef (fun x => { x with tickSteps := n })).doneNow

/-- REFEREE_TICK command. -/
def execRefereeTick (r : Req) (s : State) : Host.Outcome State Fault Refusal :=
  onMain (iapin 0x0403 writes bodyRefereeTick r) s

/-- REFEREE_START (R233). -/
def bodyRefereeStart : Body := fun _ d =>
  if d.ply.role != .referee then d.say .wrongState else (d.modRef (fun x => { x with run := true })).doneNow

/-- REFEREE_START command. -/
def execRefereeStart (r : Req) (s : State) : Host.Outcome State Fault Refusal :=
  onMain (iapin 0x0404 writes bodyRefereeStart r) s

/-! ### The decision table (R231) -/

/-- The view of a member. -/
def Referee.view (x : Referee) : Member → MemberView
  | .a => x.viewA
  | .b => x.viewB

/-- The view of a member changed by f. -/
def Referee.modView (x : Referee) (m : Member) (f : MemberView → MemberView) : Referee :=
  match m with
  | .a => { x with viewA := f x.viewA }
  | .b => { x with viewB := f x.viewB }

/-- The other member. -/
def otherMember : Member → Member
  | .a => .b
  | .b => .a

/-- PSTATE of a member's last valid report; 7 without one. -/
def MemberView.pstate (v : MemberView) : Nat := (v.report.map (fun w => bits (wat w 2) 29 27)).getD 7

/-- A flag of word 2 of the last valid report. -/
def MemberView.flag (v : MemberView) (i : Nat) : Bool := (v.report.map (fun w => bit (wat w 2) i)).getD false

/-- ALIVE_OK, REPORT_OK and FIT together. -/
def MemberView.good (v : MemberView) : Bool := v.aliveOk && v.reportOk && v.flag 26

/-- A grant to a member (R231, R232). -/
def Referee.grant (x : Referee) (m : Member) : Referee :=
  let x := { x with grantCnt := satInc 16 x.grantCnt, holdoff := true, lastGrant := match m with | .a => 1 | .b => 2 }
  match m with
  | .a => { x with grantsA := x.grantsA + 1 }
  | .b => { x with grantsB := x.grantsB + 1 }

/-- A resync pulse to a member (R231, R232). -/
def Referee.pulse (x : Referee) (m : Member) : Referee :=
  match m with
  | .a => { x with resyncsA := x.resyncsA + 1 }
  | .b => { x with resyncsB := x.resyncsB + 1 }

/-- Rows 2 to 5, for the one active member. -/
def Referee.judge (x : Referee) (act : Member) : Referee :=
  let o := x.view (otherMember act)
  if (x.view act).good then
    if o.flag 24 && decide (o.pstate ≠ 2) then x.pulse (otherMember act) else x
  else if o.good && decide (o.pstate = 4) then x.grant (otherMember act)
  else { x with noStandby := true }

/-- The first matching row of R231. -/
def Referee.decide (x : Referee) : Referee :=
  if x.holdoff then x
  else if x.viewA.pstate = 5 ∧ x.viewB.pstate = 5 then x
  else if x.viewA.pstate = 5 then x.judge .a
  else if x.viewB.pstate = 5 then x.judge .b
  else if 16 ≤ x.viewA.candidateRun ∧ 16 ≤ x.viewB.candidateRun then
    if x.viewA.good then x.grant .a else if x.viewB.good then x.grant .b else x
  else x

/-- The referee's view changes and it decides; it holds both lines high on a fault of its own at severity 4 or above
(R231, R233). -/
def Dev.refereeActs (d : Dev) (f : Referee → Referee) : Dev :=
  if d.ply.role != .referee || !d.ref.run then d
  else d.modRef (fun x => if 4 ≤ d.maxSev then f x else (f x).decide)

/-- ALIVE_EDGE. -/
def execAliveEdge (mem : Member) (s : State) : Host.Outcome State Fault Refusal :=
  onMain (fun d => d.refereeActs (fun x => x.modView mem (fun v => { v with aliveOk := true }))) s

/-- HEALTH_REPORT_RECEIVED: a report whose HCRC fails is discarded (R233). -/
def execHealthReportReceived (mem : Member) (w0 w1 w2 w3 : Word) (s : State) : Host.Outcome State Fault Refusal :=
  onMain (fun d =>
    if bits w3 31 16 ≠ healthCrc w0 w1 w2 w3 then d
    else d.refereeActs (fun x => x.modView mem (fun v =>
      { v with reportOk := true, report := some [w0, w1, w2, w3]
               candidateRun := if bits w2 29 27 = 1 then v.candidateRun + 1 else 0 }))) s

/-- ALIVE_OK_LOST: 1.5 tick lengths without a change. -/
def execAliveOkLost (mem : Member) (s : State) : Host.Outcome State Fault Refusal :=
  onMain (fun d => d.refereeActs (fun x => x.modView mem (fun v => { v with aliveOk := false }))) s

/-- REPORT_OK_LOST: 4 report periods without a valid report. -/
def execReportOkLost (mem : Member) (s : State) : Host.Outcome State Fault Refusal :=
  onMain (fun d => d.refereeActs (fun x => x.modView mem (fun v => { v with reportOk := false, candidateRun := 0 }))) s

/-- GRANT_HOLDOFF_EXPIRY: 16 ticks after a grant. -/
def execGrantHoldoffExpiry (s : State) : Host.Outcome State Fault Refusal :=
  onMain (fun d => d.modRef (fun x => { x with holdoff := false })) s

end Sys2Proof.Machine
end

