-- ==== Sys2Proof/Machine/Thermal.lean ====
section
/-!
DEFINITION. Thermal management (R282 to R291): parameters, sensor samples with shutdown, step ticks with device
steps, cell derates and returning fault steps.
-/

namespace Sys2Proof.Machine

/-- Range of each row of R285, in 1/128 °C or 1/128 °C/s. -/
def thermalRange (row : Nat) : Option (Int × Int) :=
  [(10880, 16000), (128, 1920), (128, 2560), (7680, 19200), (128, 1920), (64, 1280), (1280, 6400)][row]?

/-- THERMAL (R285). -/
def bodyThermal : Body := fun r d =>
  let row := bits (arg r 2) 2 0
  let v := sval (arg r 3)
  match thermalRange row with
  | none => d.say (.badArg 2)
  | some (lo, hi) => if v < lo ∨ hi < v then d.say (.badArg 3) else d.doneAtTick r (.thermal row v)

/-- THERMAL command. -/
def execThermal (r : Req) (s : State) : Host.Outcome State Fault Refusal := onMain (iapin 0x0012 writes bodyThermal r) s

/-- A thermal parameter lands. -/
def landThermal (row : Nat) (v : Int) (d : Dev) : Dev := { d with therm := { d.therm with params := d.therm.params.set row v } }

/-- A thermal parameter by its row of R285. -/
def Thermal.param (t : Thermal) (row : Nat) : Int := t.params.getD row 0

/-! ### Rates (R284) -/

/-- Sum of a list. -/
def intSum (l : List Int) : Int := l.foldl (· + ·) 0

/-- 64 times the rate of rise of a history, newest first, whose second is `n` samples long; zero until a second of
history stands behind the newest 64 samples (R284). -/
def rate64 (l : List Int) (n : Nat) : Int :=
  if l.length < n + 64 then 0 else intSum (l.take 64) - intSum ((l.drop n).take 64)

/-- 64 times the rate of die sensor i. -/
def Dev.sensorRate (d : Dev) (i : Nat) : Int := rate64 (tblGet {} d.therm.sensors i).samples 1000

/-- 64 times the rate of a history whose samples carry their ticks, where n ticks are a second: the older 64 samples are
those that ended a second before the newest (R284). -/
def rateAt (l : List (Nat × Int)) (n : Nat) : Int :=
  let old := l.filter (fun p => decide (p.1 + n ≤ (l.headD (0, 0)).1))
  if l.length < 64 ∨ old.length < 64 then 0 else intSum ((l.take 64).map (·.2)) - intSum ((old.take 64).map (·.2))

/-- 64 times the rate of strand k's cell. -/
def Dev.cellRate (d : Dev) (k : Nat) : Int := rateAt (d.cellOf k).temps (1250000000 / d.tickCycles)

/-- The sensor of the highest value of f, the lowest number on a tie. -/
def bestSensor (f : Nat → Int) : Nat := (List.range 16).foldl (fun b i => if f b < f i then i else b) 0

/-! ### Samples and shutdown (R282, R289) -/

/-- One reading of a sensor, with the run of samples that call for shutdown. -/
def Sensor.take (s : Sensor) (v sdRate : Int) : Sensor :=
  let l := (v :: s.samples).take 1064
  let over_ := decide (17920 ≤ v) || (decide (16000 < v) && decide (64 * sdRate < rate64 l 1000))
  { value := v, samples := l, overRun := if over_ then s.overRun + 1 else 0 }

/-- The readings of all sensors, with Tj and the highest rate. -/
def Dev.sampleSensors (d : Dev) (readings : List Int) : Dev :=
  let sd := d.therm.param 6
  let d := forEach (List.range 16) (fun i d =>
    let v := satI 16 (readings.getD i (tblGet {} d.therm.sensors i).value)
    { d with therm := { d.therm with sensors := tblMod {} d.therm.sensors i (fun s => s.take v sd) } }) d
  let hot := bestSensor (fun i => (tblGet {} d.therm.sensors i).value)
  let fast := bestSensor d.sensorRate
  { d with
    fresh := d.fresh + 1
    therm := { d.therm with
      tj := (tblGet {} d.therm.sensors hot).value, hotSensor := hot
      rateMax := satI 16 (roundFree ((d.sensorRate fast : Rat) / 64) d.fresh) } }

/-- Shutdown for a sensor: the source, the latch of the always-on block and its close record (R289). -/
def Dev.shutDown (d : Dev) (sensor : Nat) : Dev :=
  let d := d.event 0x07B (word sensor)
  ({ d with therm := { d.therm with shutdown := true } }).collapse .thermal sensor

/-- SENSOR_SAMPLE (R282, R289). -/
def execSensorSample (readings : List Int) (s : State) : Host.Outcome State Fault Refusal :=
  onMain (fun d =>
    let d := d.sampleSensors readings
    if d.therm.shutdown then d
    else match (List.range 16).find? (fun i => decide (2 ≤ (tblGet {} d.therm.sensors i).overRun)) with
      | some i => d.shutDown i
      | none => d) s

/-! ### Step ticks (R286 to R288) -/

/-- The device power limit in 1/4,096 of rating (R245). -/
def Dev.powerLimit (d : Dev) : Nat := 0x1000 - 0x100 * (d.therm.steps + d.flt.faultSteps)

/-- THERM_STEPS at a step tick, with its report (R286). -/
def Dev.stepDie (d : Dev) : Dev × List (Nat × Word) :=
  let t := d.therm
  let fast := bestSensor d.sensorRate
  let absO := decide (t.param 0 ≤ t.tj)
  let rateO := decide (64 * t.param 2 < d.sensorRate fast)
  let up := absO || rateO
  let rises := up && decide (t.steps < 16)
  let steps := if up then min 16 (t.steps + 1) else if t.param 0 - t.param 1 ≤ t.tj then t.steps else t.steps - 1
  let t' := { t with steps := steps, absOver := absO, rateOver := rateO
                     stepCnt := if rises then satInc 16 t.stepCnt else t.stepCnt }
  ({ d with therm := t' },
    if rises then [if absO then (0x078, word t.hotSensor) else (0x079, word fast)] else [])

/-- h_k of strand k's cell at a step tick, with its report (R288). -/
def Dev.stepCell (d : Dev) (k : Nat) : Dev × List (Nat × Word) :=
  let c := d.cellOf k
  let t := d.therm
  let hot := decide (t.param 3 ≤ c.temp)
  let fast := decide (64 * t.param 5 < d.cellRate k)
  if (d.strandOf k).lost then (d, [])
  else
    let h := if hot || fast then c.derate - 0x800 else if t.param 3 - t.param 4 ≤ c.temp then c.derate else min 0x8000 (c.derate + 0x800)
    (d.modCell k (fun c => { c with derate := h }),
      if h < c.derate then [if hot then (0x07A, word k) else (0x079, pack [(8, 1), (0, k)])] else [])

/-- One returning fault step goes back (R245, R286). -/
def Dev.returnStep (d : Dev) : Dev :=
  let d := { d with flt := { d.flt with returning := d.flt.returning - 1 } }
  { d with flt := { d.flt with faultSteps := min d.flt.faultSteps d.heldSteps } }

/-- A step tick: device steps, cell derates, fault steps and the limit (R286 to R288). -/
def Dev.stepTick (d : Dev) : Dev :=
  let p := d.stepDie
  let q := (p.1.cells.map (·.1)).foldl (fun (a : Dev × List (Nat × Word)) k =>
    let r := a.1.stepCell k
    (r.1, a.2 ++ r.2)) p
  let d := q.1.returnStep
  let d := { d with therm := { d.therm with limit := d.powerLimit, lastStep := some d.tk.tick } }
  if q.2.isEmpty then d else d.events q.2

/-- The present tick is a step tick that has not been judged yet (R286). -/
def Dev.isStepTick (d : Dev) : Bool :=
  d.tk.seqRun && decide (d.tk.tick % (312500000 / d.tickCycles) = 0) && d.therm.lastStep != some d.tk.tick

end Sys2Proof.Machine
end

