-- ==== Sys2Proof/Machine/Reset.lean ====
section
/-!
DEFINITION. Supplies, reset and boot (R435 to R443, R453): the reset of the main logic and its release, collapse and
the close record, the start of the firmware, and the firmware group of commands.
-/

namespace Sys2Proof.Machine

/-! ### Reset (R437, R439) -/

/-- The island as a reset of the main logic leaves it: a pulse that it has not seen stays, and what the main logic held
for it is gone (R259, R439). -/
def Island.keep (x : Island) (pulses : Nat) : Island :=
  { x with sev5Pend := x.sev5Pend || decide (pulses ≠ x.sev5Seen), sev5Seen := 0, demandsRead := [], currents := []
           strandAge := 0, updated := false }

/-- The always-on block's part of metering, which a reset of the main logic leaves (R307, R308). -/
def Meter.keep (m : Meter) : Meter :=
  { totals := m.totals, lastMeterTick := m.lastMeterTick, doneTotals := m.doneTotals, doneTick := m.doneTick, latched := m.latched
    writing := m.writing, retried := m.retried }

/-- The main logic enters reset and is held there: every field of it at its reset value. What stays is the always-on
block, the island, the external memories, the supplies, and the capture pool for the case that VMEM holds (R437,
R439). A hold that already stands keeps its cause (note 29). -/
def Dev.mainReset (d : Dev) (c : ResetCause) : Dev :=
  { part := d.part, fresh := d.fresh, fram := d.fram, flash := d.flash
    host := { readData := d.host.readData, lastReply := d.host.lastReply }
    isl := d.isl.keep d.flt.sev5Pulses
    therm := { shutdown := d.therm.shutdown }
    meter := d.meter.keep
    ply := { claimLast := d.fram.plyRecord.1, claimMax := d.fram.plyRecord.2 }
    cut := { trimOwn := false }
    bar2 := d.bar2.filter (fun c => decide (c.1 < poolSize))
    pwr := { held := true, cause := if d.pwr.held then d.pwr.cause else c, collapseHold := d.pwr.collapseHold
             closeWriting := d.pwr.closeWriting, vsda := d.pwr.vsda, vsdb := d.pwr.vsdb, out := d.pwr.out } }

/-- VAON power-on: everything but the island, and the external memories (R439). -/
def Dev.vaonReset (d : Dev) : Dev :=
  let d := d.mainReset .porAon
  { d with therm := {}, meter := {}
           pwr := { d.pwr with
             cause := .porAon, collapseHold := false, closeWriting := none, out := d.pwr.out.filter (· != .vaon) } }

/-- VAON_POWER_ON. -/
def execVaonPowerOn (s : State) : Host.Outcome State Fault Refusal := onDev Dev.vaonReset s

/-- RESET_N low for 1 µs or longer. -/
def execResetN (s : State) : Host.Outcome State Fault Refusal := onDev (fun d => d.mainReset .resetPin) s

/-- A required domain out of range: reset at once, and the close record where VAON still holds (R436). -/
def Dev.supplyLost (d : Dev) (dom : Domain) (cause : Nat) : Dev := ((d.closeRecord cause 0).mainReset .collapse).outOfRange dom

/-- SUPPLY_OUT_OF_RANGE: what each domain of R435 takes with it (R436, R453). The CAUSE byte of a required domain
other than VCORE is not stated (note 2). -/
def execSupplyOutOfRange (dom : Domain) (s : State) : Host.Outcome State Fault Refusal :=
  onDev (fun d =>
    match dom with
    | .vaon => d.vaonReset.outOfRange .vaon
    | .vsafe => d.vsafeLost
    | .vcore => d.supplyLost .vcore 2
    | .vspin | .vmem | .vpll | .vana | .vio18 | .vio33 => (d.supplyLost dom (Config.freeNat d.fresh % 256)).useFresh
    | .vsda => if d.pwr.held then d.setDomain .vsda false else d.domainOff .vsda
    | .vsdb => if d.pwr.held then d.setDomain .vsdb false else d.domainOff .vsdb
    | .vnet => if d.pwr.held then d else forEach (List.range d.portCount) (fun p d => d.ethDown p) d.plyLinkDown
    | .vhost => if d.pwr.held then d else d.event 0x0A0 0
    | .vdrv =>
      if d.pwr.held then d
      else
        let l := (List.range 32).filter (fun n => !(d.trimOf n).bstUv)
        let d := forEach (List.range 32) (fun n d => d.vdrvLow n) d
        match l with | n :: _ => d.event 0x04C (word n) | [] => d) s

/-- COLLAPSE (R308); a thermal one only while the shutdown latch is set. -/
def execCollapse (cause : CollapseCause) (s : State) : Host.Outcome State Fault Refusal :=
  onDev (fun d => if cause == .thermal && !d.therm.shutdown then d else d.collapse cause d.therm.hotSensor) s

/-- The attempts of the close record whose read-back does not match, at most three; how many is free, as no command
brings what the part reads back (R308, note 148). -/
def Dev.closeFails (d : Dev) : Nat := Config.freeNat d.fresh % 4

/-- The close record as it stands after `failed` attempts whose read-back did not match, of at most three: after the third,
with a word 15 that nothing fixes (R308, note 148). -/
def Dev.closeWritten (d : Dev) (c : CloseRec) (failed : Nat) : CloseRec :=
  if failed = 3 then { c with crc := Config.freeWord d.fresh } else c

/-- CLOSE_RECORD_WRITTEN: the record stands in the FRAM, after the attempts whose read-back failed, and every domain but
VAON and VSAFE is held in reset (R308). -/
def execCloseRecordWritten (s : State) : Host.Outcome State Fault Refusal :=
  onDev (fun d =>
    match d.pwr.closeWriting with
    | none => d
    | some c =>
      let d := d.mainReset .collapse
      { d with fram := d.fram.putClose (d.closeWritten c d.closeFails) (min 3 (d.closeFails + 1)), fresh := d.fresh + 1
               pwr := { d.pwr with closeWriting := none, collapseHold := true } }) s

/-- FIRMWARE_WATCHDOG_RESET: only where the signed configuration sets WDOG_RESET, 1 s after the firmware watchdog source
occurred (R439). -/
def execFirmwareWatchdogReset (s : State) : Host.Outcome State Fault Refusal :=
  onMain (fun d =>
    match (if d.cfg.wdogReset then d.pwr.wdogAt else none) with
    | none => d
    | some t => match d.timeUp (1250000000 + t) with | some d => d.mainReset .wdog | none => d) s

/-- DEVICE_RESET (R422): OK, then reset within 1 ms. -/
def bodyDeviceReset : Body := fun r d => if arg r 2 = 0x00009256 then d.doneNow else d.say (.badArg 2)

/-- DEVICE_RESET command: the reply is given, and the reset follows it. -/
def execDeviceReset (r : Req) (s : State) : Host.Outcome State Fault Refusal :=
  onMain (fun d =>
    let q := iapin 0x00FE writes bodyDeviceReset r d
    let taken := d.host.bootStage == 3 && d.carries 0x00FE r && (d.storedReply r).isNone && (d.refusal 0x00FE false r).isNone
    if taken && decide (arg r 2 = 0x00009256) then q.mainReset .swReset else q) s

/-! ### Release and boot (R440 to R443) -/

/-- The configuration that the boot ROM takes: the active copy, else the other (R442). -/
def Flash.config (f : Flash) : Option SignedCfg :=
  if f.activeCfg = 0 then f.cfg0.orElse (fun _ => f.cfg1) else f.cfg1.orElse (fun _ => f.cfg0)

/-- The settings of a signed configuration, where there is one. -/
def Dev.takeCfg (d : Dev) (c : Option SignedCfg) : Dev := { d with cfg := c.getD d.cfg }

/-- The boot ROM computes FB_INT of both PLLs (R328). -/
def Dev.dividers (d : Dev) : Dev :=
  (d.modPll .a (fun x => { x with fbInt := fbWord .a d.cfg.refHz / 2 ^ 32 })).modPll .b
    (fun x => { x with fbInt := fbWord .b d.cfg.refHz / 2 ^ 32 })

/-- The boot ROM started: the signed configuration taken, with none the settings as they stand, and both PLLs programmed and
started. RECOVERY_N low skips the firmware only, and without a configuration or with a blank key fuse the device stays in
recovery (R328, R333, R440, R442, note 205). -/
def Dev.bootRom (d : Dev) (recoveryLow : Bool) : Dev :=
  let c := if d.flash.keyFuse then d.flash.config else none
  let d := (((d.takeCfg c).dividers).startPll .a).startPll .b
  if recoveryLow || c.isNone then d.setStage 0xF else d

/-- The main logic released from reset: straps sampled, RESET_CAUSE set, the boot ROM started (R440, R442). -/
def Dev.release (d : Dev) (role : Role) (recoveryLow vmemHeld : Bool) : Dev :=
  let member := role == .memberA || role == .memberB
  Dev.bootRom { d with
    bar2 := if vmemHeld then d.bar2 else []
    ply := { d.ply with role := role }
    cut := { d.cut with trimOwn := !member }
    isl := if role == Role.referee then { d.isl with outputs := 0 } else d.isl
    pwr := { d.pwr with held := false, collapseHold := false, out := [], memRetained := vmemHeld, recoveryLow := recoveryLow } } recoveryLow

/-- Nothing holds the reset of the main logic any more (R440): every required domain that was out is back, both pins are high,
and so the hold of a collapse ends too, the shutdown latch is clear, and no close record is being written (R289, R308,
note 186). -/
def Dev.mayRelease (d : Dev) (x : ReleaseIn) : Bool :=
  d.pwr.held && d.pwr.out.all x.back.contains && x.resetHigh && x.pfailHigh && !d.therm.shutdown && d.pwr.closeWriting.isNone

/-- RESET_RELEASE: only while nothing holds the reset (R440). -/
def execResetRelease (role : ReleaseIn) (recoveryLow vmemHeld : Bool) (s : State) : Host.Outcome State Fault Refusal :=
  onDev (fun d => if d.mayRelease role then d.release role.role recoveryLow vmemHeld else d) s

/-- A firmware slot of the flash. -/
def Flash.slot (f : Flash) (n : Nat) : FwSlot := if n = 0 then f.slot0 else f.slot1

/-- A firmware slot that the boot ROM starts: its signature holds and its version is not below the fused minimum
(R442). -/
def Flash.bootable (f : Flash) (n : Nat) : Bool := (f.slot n).good && decide (f.minVersion ≤ (f.slot n).version.toNat)

/-- The slot that the boot ROM starts: the active one, else the other (R442). -/
def Flash.bootSlot (f : Flash) : Option Nat :=
  if f.bootable f.activeSlot then some f.activeSlot else if f.bootable (1 - f.activeSlot) then some (1 - f.activeSlot) else none

/-- The firmware writes the binding and access tables from the signed configuration (R443). -/
def Dev.writeTables (d : Dev) : Dev :=
  let d := d.cfg.binding.foldl (fun d b =>
    (d.writeBinding b.1 false b.2.1).writeBinding b.1 true b.2.2) d
  (d.cfg.wrEn.zipIdx).foldl (fun d p => d.writeWrEn p.2 (word p.1)) d

/-- FIRMWARE_START: firmware verified and started, or recovery; the firmware then writes its version and its tables and
restores metering (R309, R442, R443). -/
def execFirmwareStart (s : State) : Host.Outcome State Fault Refusal :=
  onMain (fun d =>
    if d.host.bootStage ≠ 1 then d
    else match d.flash.bootSlot with
      | none => d.setStage 0xF
      | some n =>
        let d := { d with
          host := { d.host with authOk := true, fwVersion := (d.flash.slot n).version }
          pwr := { d.pwr with fwSlot := n, slotFallback := decide (n ≠ d.flash.activeSlot) } }
        ((d.setStage 2).writeTables).meterRestore) s

/-! ### Firmware group (R418, R429) -/

/-- The inactive slot of the flash holds an image. -/
def Flash.stage (f : Flash) (v : Word) : Flash :=
  let x : FwSlot := { version := v, good := true }
  if f.activeSlot = 0 then { f with slot1 := x, staged := true } else { f with slot0 := x, staged := true }

/-- The end of FW_STAGE: the length that the header states, the signature, and the write to the inactive slot (R418,
R442, note 26). -/
def finishFwStage : Body := imgFinish (fun ws => some (Config.firmwareLength (wordsBytes ws))) (fun ws r d =>
  let img := wordsBytes ws
  if !Config.signatureOk img then d.say (.badImage (Config.firmwareBadField img))
  else if checkOnly r then d.doneNow
  else Dev.doneNow { d with flash := d.flash.stage (Config.firmwareVersion img) })

/-- FW_STAGE command. -/
def execFwStage (r : Req) (s : State) : Host.Outcome State Fault Refusal :=
  onMain (iapin 0x0F01 writes (imgStart 0x0F01 none (· == 0) (fun _ _ => false)) r) s

/-- FW_ACTIVATE (R429, R442); with no image staged WRONG_STATE (note 30). -/
def bodyFwActivate : Body := fun _ d =>
  if !d.flash.staged then d.say .wrongState
  else Dev.doneNow { d with flash := { d.flash with activeSlot := 1 - d.flash.activeSlot, staged := false } }

/-- FW_ACTIVATE command. -/
def execFwActivate (r : Req) (s : State) : Host.Outcome State Fault Refusal :=
  onMain (iapin 0x0F02 writes bodyFwActivate r) s

end Sys2Proof.Machine
end

