-- ==== Sys2Proof/Machine/System.lean ====
section
/-!
DEFINITION. The system group of commands (R416, R417, R422) and the end of long-running commands.
-/

namespace Sys2Proof.Machine

/-- NOP: echoes words 2 to 15 (R422). -/
def bodyNop : Body := fun r d => d.say (.ok (fit 14 0 r.args))

/-- NOP command. -/
def execNop (r : Req) (s : State) : Host.Outcome State Fault Refusal := onMain (iapin 0x0000 reads bodyNop r) s

/-- PLY_ROLE of a role (R213). -/
def roleCode : Role → Nat
  | .single => 0 | .memberA => 1 | .memberB => 2 | .referee => 3

/-- INFO (R422). -/
def bodyInfo : Body := fun _ d =>
  d.say (.ok [d.host.fwVersion, pack [(0, roleCode d.ply.role), (4, d.ply.pstate.code)], word d.host.bootStage])

/-- INFO command. -/
def execInfo (r : Req) (s : State) : Host.Outcome State Fault Refusal := onMain (iapin 0x0001 reads bodyInfo r) s

/-! ### QUERY (R416, R417) -/

/-- The long-running command that a QUERY names: the newest with its TAG, of its own channel if there is one
(note 31). -/
def Dev.named (d : Dev) (r : Req) : Option LongRun :=
  let l := d.host.longs.reverse.filter (fun x => tagOf x.req == bits (arg r 2) 15 0)
  (l.find? (fun x => x.req.chan == r.chan)).orElse (fun _ => l.head?)

/-- QUERY (R417); a final reply is kept until it has been read once (R416). -/
def bodyQuery : Body := fun r d =>
  match d.named r with
  | none => d.say (.ok [0])
  | some x =>
    match x.state with
    | .running => d.say (.ok [1])
    | .complete st ws =>
      (.ok (2 :: pack [(16, st % 65536), (0, x.op)] :: fit 12 0 ws),
        { d with host := { d.host with longs := d.host.longs.erase x } })

/-- QUERY command. -/
def execQuery (r : Req) (s : State) : Host.Outcome State Fault Refusal := onMain (iapin 0x0002 reads bodyQuery r) s

/-! ### The end of a long-running command (R416) -/

/-- The image loads and how each ends (R418). -/
def finishImage (op : Nat) : Option Body :=
  if op = 0x0101 then some finishMapLoad
  else if op = 0x0201 then some finishRecipeLoad
  else if op = 0x0306 then some finishCoefStage
  else if op = 0x0704 then some finishWarpLoad
  else if op = 0x0F01 then some finishFwStage
  else none

/-- The end of a running command with its final reply, where what it waits for has come. -/
def Dev.finish (d : Dev) (op : Nat) (r : Req) : Option (Rep × Dev) :=
  match finishImage op with
  | some f => some (f r d)
  | none =>
    if op = 0x010A then (if (d.strandOf (bits (arg r 2) 7 0)).hostBusy then none else some d.doneNow)
    else if op = 0x0506 then d.urgentDone r
    else if op = 0x0507 then d.calDone r
    else none

/-- An image load whose content an active mirrors, not one that only checks (R218, R219, R418). -/
def mirroredLoad (op : Nat) (r : Req) : Bool := mirrored op && isImageLoad op && !checkOnly r

/-- The write log of an active takes an image load when it completes, with its image (R219, R418). -/
def Dev.logImage (d : Dev) (op : Nat) (r : Req) (p : Rep) : Dev :=
  if d.isMember && d.ply.pstate == .active && mirroredLoad op r && p.status == 0 then
    { d with ply := { d.ply with log := d.ply.log ++ [{ op := op, req := r, image := d.image r }] } }
  else d

/-- A command of the list is complete (R416); on a ply active the final OK of an image load waits until the load has been
sealed (R239, R432). -/
def Dev.completeLong (d : Dev) (x : LongRun) (p : Rep) : Dev :=
  if d.sealsWrites && d.tk.seqRun && mirroredLoad x.op x.req && p.status == 0 then
    (d.modPly (fun y => { y with answers := y.answers ++
      [{ op := x.op, req := x.req, status := p.status, words := p.words, final := true }] })).logImage x.op x.req p
  else (d.closeLong x.op x.req p).logImage x.op x.req p

/-- A command of the list ends where what it waits for has come. -/
def Dev.endLong (d : Dev) (x : LongRun) : Dev :=
  match d.finish x.op x.req with
  | none => d
  | some q => q.2.completeLong x q.1

/-- The end of a command of the list is behind it, and only its reply or the next tick is awaited. -/
def Dev.endWaits (d : Dev) (x : LongRun) : Bool :=
  d.ply.answers.any (fun a => a.final && a.op == x.op && a.req == x.req) ||
  d.ply.deferred.any (fun a => a.ends && a.op == x.op && a.req == x.req)

/-- An image load that ends in the guard window of a ply active counts as ended in the next tick (R80, R432). -/
def Dev.defersEnd (d : Dev) (x : LongRun) : Bool := d.sealsWrites && d.inGuard && mirroredLoad x.op x.req

/-- LONG_RUNNING_COMPLETE of the command at a place among the running ones, in order of acceptance. -/
def execLongRunningComplete (slot : Fin 8) (s : State) : Host.Outcome State Fault Refusal :=
  onMain (fun d =>
    match d.running[slot.val]? with
    | none => d
    | some x =>
      if d.endWaits x then d
      else if d.defersEnd x then
        { d with ply := { d.ply with deferred := d.ply.deferred ++ [{ op := x.op, req := x.req, ends := true }] } }
      else d.endLong x) s

end Sys2Proof.Machine
end

