-- ==== Sys2Proof/Machine/References.lean ====
section
/-!
DEFINITION. Channel current references, tick by tick: the ramp of R91 under the precedence of R29.
-/

namespace Sys2Proof.Machine

/-- A current in A as p.u. of channel current rating, Q1.31, which may exceed the format (note 22). -/
def ChanCal.unitsOf (c : ChanCal) (i : Rat) : Int :=
  if c.iRated = 0 then 0 else roundFree (i * 10 / (c.iRated : Rat) * (2 ^ 31 : Nat)) 2

/-- The current that a power cap allows (R287); free where the model of R93 gives none. -/
def ChanCal.powerCap (c : ChanCal) (p : Rat) : Int :=
  c.unitsOf ((c.current p).getD (Config.freeCurrent p : Rat))

/-- The share of the device power limit of channel n (R287). -/
def Dev.thermalCap (d : Dev) (n : Nat) : Int :=
  let c := (d.chanOf n).cal
  c.powerCap ((10 * c.pRated * d.limitInForce : Nat) / (4096 : Rat))

/-- The allocator's grant to channel n (R29, R118): the current of the granted power where the last run cut it, else the one
whose power was the demand of that run. None before any run. -/
def Dev.grantCap (d : Dev) (n : Nat) : Option Int :=
  let c := d.chanOf n
  c.grantRef.map (fun i =>
    if c.ratio < 0x7FFFFFFF then c.cal.powerCap ((10 * c.cal.pRated : Nat) * (c.grant : Rat) / (2 ^ 31 : Nat)) else i)

/-- The first action of a safety limit on channel n, from the demand block as read (R268). -/
def Dev.firstActionCap (d : Dev) (n : Nat) : Option Int :=
  let w := tblGet 0 d.isl.demandsRead n
  if nbit w 31 then some 0
  else if nbit w 30 then some ((d.chanOf n).cal.unitsOf ((nbits w 29 0 : Rat) / 100))
  else none

/-- The power of channel n in W, from strand data: the mean of the four samples over its cells (R268). -/
def Dev.strandPower (d : Dev) (n : Nat) : Rat :=
  let s := (d.channelCells n).foldl (fun (t : Int) k =>
    (List.range 4).foldl (fun (u : Int) i => u + (d.strandOf k).sample 8 i * (d.strandOf k).sample 12 i) t) 0
  (s : Rat) / (4 * 2 ^ 62 : Nat) * 500 * ((d.chanOf n).cal.iRated : Rat) / 10

/-- The factor that brings the targets of channel n's zone down to 0.95 of its limit (R268). -/
def Dev.zoneScale (d : Dev) (n : Nat) : Rat :=
  let p := d.isl.params
  if d.isl.state != .run || !d.firstActs then 1
  else match (List.range 8).find? (fun z => inZone p z n) with
    | none => 1
    | some z =>
      let lim : Rat := (zoneMax p z : Rat) * 95 / 100000
      let sum := ratSum ((maskBits 32 (zoneChans p z)).map d.strandPower)
      if lim < sum then lim / sum else 1

/-- The lowest of the caps that act on channel n; none where none does. -/
def Dev.refCap (d : Dev) (n : Nat) : Int :=
  let a := (d.grantCap n).toList ++ (d.firstActionCap n).toList
  a.foldl min (if d.pwr.start == .run then d.thermalCap n else 0)

/-- The reference of a channel moved by one tick from `old`: along the ramp within the slew limit (R91), and never above the
lowest cap of R29. -/
def Dev.moveRef (d : Dev) (n : Nat) (old : Int) : Dev :=
  let c := d.chanOf n
  let steps := d.stepTicks
  let k := min (d.tk.tick - c.rampTick) steps
  let ramp : Rat := if k = steps ∨ c.rampFrom = c.rampTo then (c.rampTo : Rat)
    else (c.rampFrom : Rat) + ((c.rampTo - c.rampFrom : Int) : Rat) * (k : Rat) / (steps : Rat)
  let want := roundFree (ramp * d.zoneScale n) 3
  let lim := d.refSlew c.cal
  let cap := d.refCap n
  d.modChan n (fun c =>
    { c with refWas := old, asked := roundFree ramp 4, ref := min cap (clampI (old - lim) (old + lim) want) })

/-- Every reference moved by one tick. -/
def Dev.moveRefs (d : Dev) : Dev := forEach (List.range 32) (fun n d => d.moveRef n (d.chanOf n).ref) d

/-- Every reference of this tick once more, under the limit of a thermal step (R287). -/
def Dev.redoRefs (d : Dev) : Dev := forEach (List.range 32) (fun n d => d.moveRef n (d.chanOf n).refWas) d

/-! ### The allocator's inputs (R116, R287, R290) -/

/-- The flag word of strand k in the allocator's state (R116). -/
def Dev.allocFlags (d : Dev) (k : Nat) : Word :=
  let s := d.strandOf k
  pack [(31, b1 (d.inServiceNow k)), (28, b1 s.lost), (27, b1 s.bypassed), (26, b1 (d.parked k)), (0, (d.cellOf k).derate)]

/-- L of R287 in Q1.31. -/
def Dev.limitWord (d : Dev) : Word := word (min 0x7FFFFFFF (d.therm.limit * 2 ^ 19))

/-- DEMAND of channel n (R66, R116). DEDUCED (note 143): the power, by the model of R93, of the point that its ramp has
reached, in p.u. of its rated power. -/
def Dev.demandWord (d : Dev) (n : Nat) : Word :=
  let c := d.chanOf n
  let i : Rat := (c.asked : Rat) * (c.cal.iRated : Rat) / (10 * 2 ^ 31 : Nat)
  let p := i * ((c.cal.v0 : Rat) / 100 + (c.cal.rd : Rat) / 1000000 * i)
  if c.cal.pRated = 0 ∨ c.asked ≤ 0 then 0
  else sword (satI 32 (roundFree (p / (10 * c.cal.pRated : Nat) * (2 ^ 31 : Nat)) 5))

/-- The service flags of an ALLOC entry's state, with the shares of the cells out of service (R116, R117, R122). A member to
which the mirror brings h_k takes it from there (R290). -/
def Dev.allocService (d : Dev) (e : Entry) : Dev :=
  let d := forEach (List.range d.strandCount) (fun k d =>
    let a := e.src + 0x104 + 8 * k
    let d := if d.mirroredAt a then d.modCell k (fun c => { c with derate := bits (memWord d.weft a) 15 0 }) else d
    { d with weft := memPutWord d.weft a (d.allocFlags k) }) d
  d.dropShares e

/-- What the device writes into the allocator state of one ALLOC entry (R116, R287); a member takes P_SEC_LIM, DEMAND and
PRIORITY as the mirror brings them. -/
def Dev.allocInputs (d : Dev) (e : Entry) : Dev :=
  let lim := if d.mirroredAt (e.src + 0x18) then memWord d.weft (e.src + 0x18) else d.limitWord
  let d := d.modSec e.unit (fun s => { s with pSecLim := sval lim })
  let d := { d with weft := memPutWords d.weft e.src (d.secOf e.unit).paramWords }
  let m := (List.range 32).foldl (fun m c =>
    let a := e.src + 0x900 + 8 * c
    if d.mirroredAt a then m else memPutWords m a [d.demandWord c, word (d.chanOf c).cal.priority]) d.weft
  ({ d with weft := m }).useFresh.allocService e

/-- A thermal step's limit and derates, at the boundary of its step tick (R287, R288, R291). -/
def Dev.limitNow (d : Dev) : Dev := d.redoRefs.allocEntries.foldl Dev.allocInputs d.redoRefs

/-- CLAIM: the first boundary 1.0 µs or more after the grant (R234); the new active applies its own power limit from there, and
P_SEC_LIM follows (R290). -/
def execClaim (s : State) : Host.Outcome State Fault Refusal :=
  onMain (fun d => match d.ply.claimDue with
    | none => d
    | some t =>
      if t + 1250 ≤ d.now ∧ (d.ply.pstate = .candidate ∨ d.ply.pstate = .standby) then
        (if d.becomeActive.ply.pstate = .active then d.becomeActive.limitNow else d.becomeActive)
      else d) s

/-- Every target is zero at once (R448). -/
def Dev.zeroTargets (d : Dev) : Dev :=
  forEach (List.range 32) (fun n d => d.modChan n (fun c => { c with rampFrom := 0, rampTo := 0, ref := 0 })) d

end Sys2Proof.Machine
end

