-- ==== Sys2Proof/Machine/Start.lean ====
section
/-!
DEFINITION. The start sequence of precharge and the contactors (R445 to R449).
-/

namespace Sys2Proof.Machine

/-- PRE_FB as sampled last (R445). -/
def Power.preFb (p : Power) : Bool := p.gpio.getLsbD 1
/-- MAIN_FB. -/
def Power.mainFb (p : Power) : Bool := p.gpio.getLsbD 3
/-- BRK_CLOSED. -/
def Power.brkClosed (p : Power) : Bool := p.gpio.getLsbD 4
/-- EARTHED. -/
def Power.earthed (p : Power) : Bool := p.gpio.getLsbD 5

/-- Levels of GPIO[15:0] as a boundary samples them: GPIO[0] and GPIO[2] are as the device drives them (R445). -/
def Power.samplePins (p : Power) (pins : BitVec 16) : BitVec 16 :=
  (pins &&& 0xFFFA) ||| BitVec.ofNat 16 (b1 p.preCmd + 4 * b1 p.mainCmd)

/-- PRECHARGE to RUN. -/
def StartState.live (s : StartState) : Bool := s != .wait && s != .tripped

/-- The device advances the sequence: a single device or a ply active (R446). -/
def Dev.runsStart (d : Dev) : Bool := !d.isMember || d.ply.pstate == .active

/-- A reason whose time has run out, for the firmware's next run of the sequence (R446). -/
def Dev.tripReason (d : Dev) (r : Nat) : Dev := { d with pwr := { d.pwr with tripDue := d.pwr.tripDue ||| 2 ^ r } }

/-- Core cycles of a time in ms. -/
def msCycles (ms : Nat) : Nat := 1250000 * ms

/-- Reason r, once the clock has reached the core cycle at which its time is up. -/
def Dev.tripAt (d : Dev) (r t : Nat) : Dev := match d.timeUp t with | some d => d.tripReason r | none => d

/-- PRE_FB has risen within FB_TIME of PRE_CMD, whatever its level is now (R446). -/
def Dev.preInTime (d : Dev) : Bool := d.pwr.preRose.any (fun t => decide (t ≤ d.pwr.preCmdTime + msCycles d.cfg.fbTime))

/-- FB_TIME_EXPIRY: PRE_FB has not risen within FB_TIME of PRE_CMD, or a feedback of CLOSING has not followed its command
within FB_TIME (R446). -/
def execFbTimeExpiry (s : State) : Host.Outcome State Fault Refusal :=
  onMain (fun d =>
    let p := d.pwr
    let fb := msCycles d.cfg.fbTime
    if p.start == .precharge && !d.preInTime then d.tripAt 1 (p.preCmdTime + fb)
    else if p.start == .closing && p.preCmd && !p.mainFb then d.tripAt 2 (p.mainCmdTime + fb)
    else if p.start == .closing && !p.preCmd && p.preFb then d.tripAt 2 (p.preCmdTime + fb)
    else d) s

/-- Core cycle at which a time in ms since the entry of the start state is up. -/
def Dev.stateEnd (d : Dev) (ms : Nat) : Nat := (d.pwr.stateStart + (msCycles ms : Int)).toNat

/-- PRE_TIMEOUT since the entry of PRECHARGE. -/
def execPreTimeout (s : State) : Host.Outcome State Fault Refusal :=
  onMain (fun d => if d.pwr.start == .precharge then d.tripAt 3 (d.stateEnd d.cfg.preTimeout) else d) s

/-- SYNC_TIMEOUT since the entry of SYNC. -/
def execSyncTimeout (s : State) : Host.Outcome State Fault Refusal :=
  onMain (fun d => if d.pwr.start == .sync then d.tripAt 4 (d.stateEnd d.cfg.syncTimeout) else d) s

/-- Core cycle at which a feedback has disagreed with its command for 50 ms, outside the FB_TIME that follows the last change
of that command (R446). -/
def Dev.disagreeEnd (d : Dev) (cmdTime : Nat) (since : Option Nat) : Option Nat :=
  since.map (fun t => max t (cmdTime + msCycles d.cfg.fbTime) + msCycles 50)

/-- FEEDBACK_DISAGREE. -/
def execFeedbackDisagree (s : State) : Host.Outcome State Fault Refusal :=
  onMain (fun d =>
    let p := d.pwr
    let l := [d.disagreeEnd p.preCmdTime p.preDiff, d.disagreeEnd p.mainCmdTime p.mainDiff].filterMap id
    match l with
    | [] => d
    | t :: l => if p.start.live then d.tripAt 7 (l.foldl min t) else d) s

/-- How long each feedback has been sampled other than its command, and when PRE_FB rose after PRE_CMD, at a boundary
(R446). -/
def Power.noteFeedback (p : Power) (now : Nat) : Power :=
  { p with preRose := if p.preCmd && p.preFb then some (p.preRose.getD now) else if p.preCmd then p.preRose else none
           preDiff := if p.preFb != p.preCmd then some (p.preDiff.getD now) else none
           mainDiff := if p.mainFb != p.mainCmd then some (p.mainDiff.getD now) else none }

/-- The conditions of WAIT (R446). -/
def Dev.mayPrecharge (d : Dev) : Bool :=
  d.ply.held.isSome && d.pwr.brkClosed && !d.pwr.earthed && decide (d.cut.active = 0) &&
  (match d.mapForce with
   | none => false
   | some m => (mapCells m).all (fun k => mapParked m k || ((d.strandOf k).state == .active && !(d.strandOf k).lost)))

/-- In-service cells under the map in force. -/
def Dev.serviceCells (d : Dev) : List Nat :=
  match d.mapForce with
  | some m => (mapCells m).filter d.inServiceNow
  | none => []

/-- Ticks that cover 100 ms. -/
def Dev.settleTicks (d : Dev) : Nat := (125000000 + d.tickCycles - 1) / d.tickCycles

/-- In PRECHARGE the tick sums of VDC of the last 100 ms take this tick's, on every member, since each measures its own
(R446, R449). -/
def Dev.noteVdc (d : Dev) : Dev :=
  let n := d.settleTicks
  let h := if d.pwr.start ≠ .precharge then [] else d.serviceCells.foldl (fun (t : Tbl (List Int)) k =>
    let v := (List.range 4).foldl (fun (u : Int) i => u + (d.strandOf k).sample 0 i) 0
    tblSet [] t k ((v :: tblGet [] t k).take n)) d.pwr.vdcHist
  { d with pwr := { d.pwr with vdcHist := h } }

/-- The DC link of one cell has settled above PRE_LEVEL, over `n` ticks of measurement. -/
def vdcSteady (level : Int) (n : Nat) (l : List Int) : Bool :=
  decide (n ≤ l.length) &&
  match l with
  | [] => false
  | v :: vs =>
    let hi := vs.foldl max v
    let lo := vs.foldl min v
    decide (4 * level ≤ v) && decide (100 * (hi - lo) < 4 * 2 ^ 31)

/-- The condition of PRECHARGE for CLOSING (R446). -/
def Dev.mayClose (d : Dev) : Bool :=
  decide (d.pwr.stateStart + 125000000 ≤ (d.now : Int)) &&
  d.serviceCells.all (fun k => vdcSteady d.cfg.preLevel d.settleTicks (tblGet [] d.pwr.vdcHist k))

/-- Both commands low; the time of each is that of its last change (R446). -/
def Power.dropCmds (p : Power) (now : Nat) : Power :=
  { p with preCmd := false, mainCmd := false
           preCmdTime := if p.preCmd then now else p.preCmdTime
           mainCmdTime := if p.mainCmd then now else p.mainCmdTime }

/-- TRIPPED: both outputs low, every target zero, and the report (R446, R448). -/
def Dev.trip (d : Dev) (r : Nat) : Dev :=
  let d := d.toStart .tripped
  let d := { d with pwr := { d.pwr.dropCmds d.now with tripReason := r, vdcHist := [] } }
  (d.zeroTargets).event 0x1C0 (word r)

/-- Reasons that hold when the sequence runs, as a mask. -/
def Dev.tripMask (d : Dev) : Nat :=
  d.pwr.tripDue ||| (if d.pwr.brkClosed then 0 else 2 ^ 5) ||| (if d.pwr.earthed then 2 ^ 6 else 0)

/-- The advance of a state that has not tripped. -/
def Dev.advanceStart (d : Dev) : Dev :=
  match d.pwr.start with
  | .wait =>
    if d.mayPrecharge then
      let d := d.toStart .precharge
      { d with pwr := { d.pwr with preCmd := true, preCmdTime := d.now, preRose := none, vdcHist := [] } }
    else d
  | .precharge =>
    if d.mayClose then
      let d := d.toStart .closing
      { d with pwr := { d.pwr with mainCmd := true, mainCmdTime := d.now, vdcHist := [] } }
    else d
  | .closing =>
    if d.pwr.preCmd then
      (if d.pwr.mainFb then { d with pwr := { d.pwr with preCmd := false, preCmdTime := d.now } } else d)
    else if d.pwr.preFb then d
    else d.toStart .sync
  | .sync => if d.tb2LaneLocked then d.toStart .run else d
  | .run | .tripped => d

/-- One run of the sequence, at the boundary that writes its outputs (R446): the lowest reason of this tick trips. -/
def Dev.startBoundary (d : Dev) : Dev :=
  let d := ({ d with pwr := d.pwr.noteFeedback d.now } : Dev).noteVdc
  if !d.runsStart then { d with pwr := { d.pwr with tripDue := 0 } }
  else
    let m := d.tripMask
    let d := { d with pwr := { d.pwr with tripDue := 0 } }
    match (if d.pwr.start.live then (List.range 8).find? (nbit m) else none) with
    | some r => d.trip r
    | none => d.advanceStart

/-- An epoch that names MAP re-arms a tripped converter whose contactors have opened, where the sequence runs: a standby follows
the mirrored state (R446, R449). -/
def Dev.rearm (d : Dev) : Dev :=
  if d.runsStart && d.pwr.start == .tripped && !d.pwr.preFb && !d.pwr.mainFb then
    let d := d.toStart .wait
    { d with pwr := { d.pwr with tripReason := 0 } }
  else d

end Sys2Proof.Machine
end

