-- ==== Sys2Proof/Machine/Replay.lean ====
section
/-!
DEFINITION. The write log of the active as a standby lands it (R80, R219, R221): each write by the meaning that its
command has, its reply dropped.
-/

namespace Sys2Proof.Machine

/-- Bodies of the groups 0x00 to 0x02 that the write log carries. -/
def logBodies1 : List (Nat × Body) :=
  [(0x0010, bodySeverity), (0x0011, bodyStopTh), (0x0012, bodyThermal), (0x0020, bodyCutMatrix), (0x0021, bodyCutGroup),
   (0x0103, bodySectionStatus), (0x0104, bodyEncoder), (0x0105, bodyStrand), (0x0106, bodyAuxOut), (0x0107, bodyReturnCell),
   (0x0108, bodyDeepRest), (0x0109, bodyWake), (0x010A, bodyEndpointCmd), (0x010B, bodyBulkRing), (0x0202, bodyChanStage),
   (0x0203, bodyLocalOffset), (0x0204, bodyScale), (0x0205, bodyDlTimeout), (0x0208, bodyTrim), (0x0209, bodyTrimPair),
   (0x020A, bodyTrimStage), (0x020B, bodyTrimDriver), (0x020C, bodyLockoutClear)]

/-- Bodies of the groups 0x03 to 0x07. -/
def logBodies2 : List (Nat × Body) :=
  [(0x0301, bodyCoefWrite), (0x0303, bodyOpenClose), (0x0304, bodyHold), (0x0305, bodyFlagClear), (0x0307, bodyAllocStage),
   (0x0501, bodyMeterParam), (0x0502, bodyPulseIn), (0x0503, bodyPulseOut), (0x0504, bodyMeterClear), (0x0505, bodyAdc),
   (0x0703, bodyTickConfig), (0x0706, bodyUnstage), (0x0711, bodyTb2Lane)]

/-- The body of a logged write. -/
def logBody (e : LogEntry) : Option Body :=
  if e.image = [] then ((logBodies1 ++ logBodies2).find? (fun p => p.1 == e.op)).map (·.2) else finishImage e.op

/-- The writes that a ply active took in its guard window, and the loads that ended there, carried out in the next tick (R80,
R432). -/
def Dev.takeDeferred (d : Dev) : Dev :=
  let bodies := logBodies1 ++ logBodies2 ++ [(0x0023, bodyCutRelease), (0x0701, bodyArm), (0x0702, bodyAbort)]
  d.ply.deferred.foldl (fun d w =>
    let x : LongRun := { op := w.op, req := w.req, state := .running }
    if w.ends then (if d.running.contains x then d.endLong x else d)
    else match bodies.find? (fun p => p.1 == w.op) with
    | some p => carryOut w.op writes p.2 w.req d
    | none => d) (d.modPly (fun p => { p with deferred := [] }))

/-- An open or close that the transfer image showed pending is now named by the log (R81). -/
def Dev.freshOpenClose (d : Dev) (n : Nat) : Dev :=
  if d.landing.any (fun p => p.1 == .openClose n true || p.1 == .openClose n false) then d
  else d.modInst n (fun i => { i with pendingOc := false })

/-- A record write of `count` words with only some bits left of word i, where it carries that word. -/
def keepBits (objs count i : Nat) (keep : Word) (r : Req) : Req :=
  match recForm r objs count with
  | none => r
  | some f => if (f.wordFor i).isSome then { r with args := r.args.modify (f.argOf i - 2) (fun w => w &&& keep) } else r

/-- Commands that only clear Local bits, which a standby keeps as it has set them itself (R15, R81, R119, R139). -/
def clearsLocal : List Nat := [0x0103, 0x0104, 0x0305]

/-- A logged write as a standby carries it out: it clears no Local bit of the standby (R15, R147, R186, R210, R325), and the sealed
record brings a mask as it stands, so MASK_ARM is no part of it (R147, R154). -/
def carriedWrite (strands : Nat) (e : LogEntry) : LogEntry :=
  if e.op = 0x0208 then { e with req := keepBits 32 4 3 0 (keepBits 32 4 2 0xFFFFFF7F e.req) }
  else if e.op = 0x020B then { e with req := keepBits 32 4 2 0 e.req }
  else if e.op = 0x0105 then { e with req := keepBits strands 8 0 0xFFFFFBFF e.req }
  else if e.op = 0x0505 then { e with req := keepBits 8 8 4 0 e.req }
  else e

/-- One logged write lands: the host links keep what they hold, the image of a load lies where its command says for the
time of the load, and a write that lands at tick lands at this boundary, as it does on the active. -/
def Dev.replay (d : Dev) (e : LogEntry) : Dev :=
  match if clearsLocal.contains e.op then none else logBody e with
  | none => d
  | some f =>
    let e := carriedWrite d.strandCount e
    let d := if e.op = 0x0303 then d.freshOpenClose (bits (arg e.req 2) 10 0) else d
    let n := d.landing.length
    let host := d.host
    let bar2 := d.bar2
    let q := (f e.req { d with bar2 := memPutWords d.bar2 (arg e.req 3).toNat e.image }).2
    { q with host := host, bar2 := bar2, landing := q.landing.take n ++ (q.landing.drop n).map (fun p => (p.1, ({} : Accepted))) }

/-- The slot that the active's arm named: the one staged when its seal brought the arm (R86). -/
def Dev.nameSlot (d : Dev) : Dev :=
  if d.tk.commit != .idle && nbit d.tk.set 3 && d.recipes.armed.isNone then
    { d with recipes := { d.recipes with armed := d.recipes.staged } }
  else d

/-- The write log of the last landed seal (R221). -/
def Dev.landLog (d : Dev) : Dev :=
  (d.ply.logDue.foldl Dev.replay (d.modPly (fun p => { p with logDue := [] }))).nameSlot

end Sys2Proof.Machine
end

