-- ==== Sys2Proof/Machine/Transfer.lean ====
section
/-!
DEFINITION. The writes that land at tick, each by its own meaning (R16), and the full transfer of a ply (R237): the image as the
active sends it and as the receiving member lands it.
-/

namespace Sys2Proof.Machine

/-- One write lands. -/
def landOne (l : Landing) (d : Dev) : Dev :=
  match l with
  | .severity src sev => landSeverity src sev d
  | .stopTh v => Dev.noteStop d.stopping { d with flt := { d.flt with stopTh := v } }
  | .thermal row v => landThermal row v d
  | .port p first words => landPort p first words d
  | .auxOut s b => d.modSkein s (fun x => { x with auxOut := b })
  | .strandFields k w => landStrandFields k w d
  | .returnCell k => landReturnCell k d
  | .bulkRing k up off len => landBulkRing k up off len d
  | .trimEnAlign n w => landTrim n w d
  | .lockoutClear n => landLockoutClear n d
  | .openClose n close => landOpenClose n close d
  | .hold n sel manual => landHold n sel manual d
  | .snapReq => landSnapReq d
  | .meterParam kind i v => landMeterParam kind i v d
  | .pulseIn i w3 w4 w5 => landPulseIn i w3 w4 w5 d
  | .pulseOut j w3 w4 => landPulseOut j w3 w4 d
  | .adc c first words => landAdc c first words d
  | .tbSet n sec ns => landTbSet n sec ns d
  | .tbStep n off => landTbStep n off d
  | .tbSlew n v => landTbSlew n v d
  | .tbRate n v => landTbRate n v d
  | .tbState n code => landTbState n code d
  | .tbHoldLimit n v => landTbHoldLimit n v d
  | .tb2Lane i l => landTb2Lane i l d
  | .ptp w => landPtp w d
  | .testMode on => landTestMode on d
  | .loopback key mode => landLoopback key mode d
  | .inject key action n rate => landInject key action n rate d
  | .capture ticks mask => landCapture ticks mask d
  | .telemetry mask period => landTelemetry mask period d
  | .deepRest k => landDeepRest k d
  | .wake k => landWake k d

/-! ### The receiving member (R226, R237) -/

/-- An XFER unit lands (R237). -/
def Dev.landXfer (d : Dev) : XferUnit → Dev
  | .weft off data => { d with weft := memPutBytes d.weft off.toNat (data.take (weftSize - off.toNat)) }
  | .bank b k => d.modBank b.val (fun _ => k)
  | .runBank b => { d with tk := { d.tk with runBank := b.val } }
  | .map staged words => if staged then { d with mapStaged := some words } else d.landMap words
  | .inst id record lanes preload =>
    (d.modInst id.val (fun i => i.fromXfer record lanes preload)).fromTb2Src id.val (bit (wat record 15) 28)
  | .acc q a => d.modAcc q.val (fun x => { x with value := a.value, frac := a.frac, wrap := a.wrap })
  | .commit st e t set campus armed =>
    let d := d.mirrorCommit st.val e t.toNat set.toNat campus
    { d with recipes := { d.recipes with armed := armed.map (·.val) } }
  | .enc e => d.modCell e.strand.val (fun c => c.fromImage e)
  | .trim x => (d.modTrim x.chan.val (fun t => t.fromImage x)).setEn x.chan.val (bit (wat x.words 2) 0)
  | .flags f => (d.modStrand f.strand.val (fun s => s.landFlags true f)).rawStrands
  | .pulse j p =>
    let outs := tblMod {} d.meter.pulseOut j.val (fun o => { o with residual := p.residual, backlog := p.backlog, owing := p.owing })
    { d with meter := { d.meter with pulseOut := outs } }
  | .fields e t g => { d with tk := { d.tk with appliedEpoch := e, appliedTick := t.toNat, commitGuard := g } }
  | .param l => landOne l d
  | .coefs es => { d with spin := { d.spin with stagedCoef := es } }
  | .allocs ws => { d with spin := { d.spin with stagedAlloc := ws } }
  | .trimStaged n set drv => d.modTrim n.val (fun t => { t with staged := set, stagedDrv := drv })
  | .start st r pre main time => d.mirrorStart st.val r.val pre main time
  | .channel n c age => d.modChan n.val (fun old => { c with stepMissed := old.stepMissed, dlTick := if c.dlTick = 0 then 0 else d.now - age + 1 })
  | .slot n s => { d with recipes := { d.recipes with slots := tblSet {} d.recipes.slots n.val s } }
  | .recipes f st off to_ =>
    { d with recipes := { d.recipes with inForce := f.val, staged := st.map (·.val), localOffset := off, dlTimeout := to_ } }
  | .sec s x => d.modSec s.val (fun old => { x with shareShort := old.shareShort })
  | .derate k h => d.modCell k.val (fun c => { c with derate := h.toNat })
  | .meter q c => { d with meter := { d.meter with qrefLost := q, calSeq := c.toNat } }

/-- XFER_UNIT: a unit with a wrong UCRC is discarded and counted, whatever the state; in XFER a good one lands, and XFER_LEFT
follows the units still expected (R217, R237). -/
def execXferUnit (left : Nat) (u : XferMsg) (s : State) : Host.Outcome State Fault Refusal :=
  onMain (fun d =>
    if !d.isMember || d.ply.link != .up then d
    else d.onUnit u.ucrcOk (fun d =>
      if d.ply.pstate != .xfer then d
      else (d.landXfer u.unit).modPly (fun p => { p with xferLeft := left, xferAsk := false }))) s

/-! ### The active (R237) -/

/-- Word 0 of a strand's record, whose RW fields are mirrored (R186). -/
def Strand.settings (s : Strand) : Word := pack [(7, b1 s.restUp), (6, b1 s.restDn), (5, b1 s.autoRetrain), (4, b1 s.enable)]

/-- The words 3 to 5 of a PULSE_IN that brings a pulse input to its settings (R427). -/
def PulseIn.settings (i : Nat) (p : PulseIn) : Landing :=
  .pulseIn i (pack [(31, b1 p.en), (30, b1 p.activeLow), (0, p.debounce)]) (word p.stuckLim) (word p.maxRate)

/-- The words 3 and 4 of a PULSE_OUT that brings a pulse output to its settings (R427). -/
def PulseOut.settings (j : Nat) (p : PulseOut) : Landing :=
  .pulseOut j (pack [(31, b1 p.en), (30, b1 p.activeLow), (16, p.src), (0, p.width)]) (word p.weight)

/-- The metering parameter of a kind and index as it stands; a truth channel without a word has none (R427). -/
def Meter.param (m : Meter) (kind i : Nat) : Option Word :=
  if kind = 0 then some (lowBits 32 (tblGet ({} : Acc) m.accs i).gain |> word)
  else if kind = 1 then some (lowBits 32 (tblGet ({} : Acc) m.accs i).offset |> word)
  else if kind = 2 then some (word (tblGet 10737418 m.litTh i))
  else if kind = 3 then some (word m.mvTol)
  else if kind = 4 then tblGet none m.truth i
  else if kind = 5 then some (word m.saveInterval)
  else some (tblGet 0 m.lArm i)

/-- The unit that a piece of the transfer image makes, with its contents as they stand (R237); none where nothing stands. -/
def Dev.xferUnit (d : Dev) : XferKey → Option XferUnit
  | .weft off => some (.weft (BitVec.ofNat 23 off) (memBytes d.weft off 64))
  | .bank b => some (.bank (Fin.ofNat 2 b) (d.bank b))
  | .runBank => some (.runBank (Fin.ofNat 2 d.tk.runBank))
  | .map staged => (if staged then d.mapStaged else d.mapForce).map (XferUnit.map staged)
  | .inst n =>
    let i := d.instOf n
    some (.inst (Fin.ofNat 2048 n) (d.coefWords n) ((List.range 32).map (fun l => tblGet ({} : Lane) i.lanes l)) i.preload)
  | .acc q => let a := d.accOf q; some (.acc (Fin.ofNat 136 q) ⟨a.value, a.frac, a.wrap⟩)
  | .fields => some (.fields d.tk.appliedEpoch (BitVec.ofNat 48 d.tk.appliedTick) d.tk.commitGuard)
  | .commit =>
    let t := d.tk
    let st : Fin 3 := match t.commit with | .idle => 0 | .armed => 1 | .committed => 2
    some (.commit st t.epoch (BitVec.ofNat 48 t.target) (BitVec.ofNat 16 t.set) t.campus (d.recipes.armed.map (Fin.ofNat 16)))
  | .enc k => some (.enc ((d.cellOf k).image k))
  | .trim n => some (.trim ((d.trimOf n).image n))
  | .flags k => some (.flags (d.pendingFlags k))
  | .pulse j => let o := tblGet ({} : PulseOut) d.meter.pulseOut j; some (.pulse (Fin.ofNat 8 j) ⟨o.residual, o.backlog, o.owing⟩)
  | .start =>
    some (.start (Fin.ofNat 8 d.pwr.start.code) (Fin.ofNat 8 d.pwr.tripReason) d.pwr.preCmd d.pwr.mainCmd d.startTime)
  | .channel n => let c := d.chanOf n; some (.channel (Fin.ofNat 32 n) c (d.now + 1 - c.dlTick))
  | .slot n => some (.slot (Fin.ofNat 16 n) (tblGet {} d.recipes.slots n))
  | .recipes =>
    let r := d.recipes
    some (.recipes (Fin.ofNat 16 r.inForce) (r.staged.map (Fin.ofNat 16)) r.localOffset r.dlTimeout)
  | .sec s => some (.sec (Fin.ofNat 6 s) (d.secOf s))
  | .derate k => some (.derate (Fin.ofNat 256 k) (BitVec.ofNat 16 (d.cellOf k).derate))
  | .meter => some (.meter d.meter.qrefLost (BitVec.ofNat 16 d.meter.calSeq))
  | .coefs => some (.coefs d.spin.stagedCoef)
  | .allocs => some (.allocs d.spin.stagedAlloc)
  | .trimStaged n => let t := d.trimOf n; some (.trimStaged (Fin.ofNat 32 n) t.staged t.stagedDrv)
  | .severity src => some (.param (.severity src (d.sevOf src)))
  | .stopTh => some (.param (.stopTh d.flt.stopTh))
  | .thermal row => some (.param (.thermal row (d.therm.param row)))
  | .strand k => some (.param (.strandFields k (d.strandOf k).settings))
  | .meterParam kind i => (d.meter.param kind i).map (fun w => .param (.meterParam kind i w))
  | .pulseIn i => some (.param ((tblGet ({} : PulseIn) d.meter.pulseIn i).settings i))
  | .pulseOut j => some (.param ((tblGet ({} : PulseOut) d.meter.pulseOut j).settings j))
  | .adc c => some (.param (.adc c 0 (if c = 8 then [word (b1 d.adcs.mainsNom)] else (d.adcWords c).take 4)))

/-- Slots of 18 core cycles that the image of this tick leaves free: all but those of the TABLE, SEAL and TRAILER units (R217,
R219, R237). -/
def Dev.freeSlots (d : Dev) : Nat :=
  let tables := (d.ply.txUnits.filter (fun u => match u with | .table _ _ _ => true | _ => false)).length
  d.tickCycles / 18 - (tables + 25 + 129)

/-- The CRC register of the image after a unit (R237). -/
def Ply.crcUnit (p : Ply) (u : XferUnit) : Nat := (Config.xferBytes u).foldl crcByte p.xferCrc

/-- The next pieces go out, one a slot, each with its contents of this moment; XFER_END follows the last of them, and then the
request that waited is taken (R237). -/
def Dev.sendPieces : Nat → Dev → Dev
  | 0, d => d
  | n + 1, d =>
    match d.ply.xferJob with
    | none => d
    | some [] =>
      d.modPly (fun p =>
        { p with xferEndTx := some (word (p.xferCrc ^^^ 0xFFFFFFFF)), xferCrc := 0xFFFFFFFF, xferAgain := false
                 xferJob := if p.xferAgain then some d.xferKeys else none })
    | some (k :: ks) =>
      match d.xferUnit k with
      | none => Dev.sendPieces n (d.modPly (fun p => { p with xferJob := some ks }))
      | some u =>
        Dev.sendPieces n (d.modPly (fun p => { p with xferJob := some ks, xferTx := p.xferTx ++ [u], xferCrc := p.crcUnit u }))

/-- A tick's share of the transfer that the active sends (R237). DESIGN CHOICE (note 28): the model sends it at the seal step. -/
def Dev.sendTransfer (d : Dev) : Dev :=
  if d.isMember && d.ply.pstate == .active && d.ply.link == .up then Dev.sendPieces d.freeSlots d else d

end Sys2Proof.Machine
end

