-- ==== Sys2Proof/Machine/WarpRun.lean ====
section
/-!
DEFINITION. The entries of the running warp table as they run (R41 to R48, R51, R69): each at its own time in the
table part, in index order, and only in ticks in which it is due.
-/

namespace Sys2Proof.Machine

/-- Entry i may run now as an entry of a class: the sequencer runs a table, the guard window has not begun, no later
entry has run, it has not been abandoned, and it is due (R38, R40, R42, R51). With it comes its start in core cycles
from the boundary: that of the table, and later where an entry before it ran late, after whose end every later entry keeps its
BUDGET. An entry whose start would come in the guard window does not start. -/
def Dev.entryAt (d : Dev) (cls i : Nat) : Option (Entry × Nat) :=
  let t := d.tk
  let open_ := t.seqRun && !t.noBank && !d.inGuard && decide (t.nextEntry ≤ i) &&
    (match t.abandoned with | some a => decide (i < a) | none => true)
  match d.running?.entries[i]?, (spansGo t.entryEnd (d.running?.entries.drop t.nextEntry))[i - t.nextEntry]? with
  | some e, some s =>
    let start := max s.1 d.cyc
    if open_ && decide (e.cls = cls) && decide (t.tick % e.period = e.offset) && decide (start + t.guardLen < d.tickCycles) then
      some (e, start)
    else none
  | _, _ => none

/-- An entry runs from its start; the entries before it cannot run any more in this tick (R42). -/
def Dev.runEntry (d : Dev) (cls i : Nat) (f : Entry → Nat → Dev → Dev) : Dev :=
  match d.entryAt cls i with
  | none => d
  | some (e, start) =>
    let d := d.advance (start - d.cyc)
    f e start { d with tk := { d.tk with nextEntry := i + 1, entryEnd := start + e.budget } }

/-! ### Rest (R179) -/

/-- A frame of strand k leaves within `n` core cycles from now: of a DELIVER entry still to run in this tick, at its release
(R46, R166). -/
def Dev.frameWithin (d : Dev) (k n : Nat) : Bool :=
  (List.range d.running?.entries.length).any (fun i =>
    match d.entryAt clsDeliver i with
    | some (e, start) =>
      decide (16 * e.unit ≤ k) && decide (k < 16 * e.unit + e.count) &&
      decide (start + 20 + 8 * (k - 16 * e.unit + 1) < d.cyc + n)
    | none => false)

/-- The MARK of the next boundary leaves within `n` core cycles from now (R165). -/
def Dev.markWithin (d : Dev) (k n : Nat) : Bool :=
  d.tk.seqRun && decide (64 * d.tickCycles < 64 * (d.cyc + n) + (d.strandOf k).comp)

/-- Bulk is pending on strand k: a segment on the line, or more of a firmware transfer, which the DMA's ring may or may not
hold (R175, note 23). -/
def Dev.bulkPending (d : Dev) (k : Nat) : Bool :=
  let s := d.strandOf k
  s.sending d.now || (s.fwRun && s.ringDn.isSome && decide (Config.freeNat d.fresh % 2 = 0))

/-- REST_ENTRY: an ACTIVE strand with REST_DN set and REST reported, no cut to send, its next MARK or frame at least 1.0 µs
away and no bulk pending (R179). -/
def execRestEntry (k : Fin 256) (s : State) : Host.Outcome State Fault Refusal :=
  onMain (fun d =>
    let st := d.strandOf k.val
    let idle := !d.markWithin k.val 1250 && !d.frameWithin k.val 1250 && !d.bulkPending k.val
    let d := d.useFresh
    if st.state == .active && st.restDn && bit st.caps0 19 && !d.strandCut k.val && idle then
      d.modStrand k.val (fun s => { s with txRest := true, txLine := [.rest, .rest], txAt := s.gridFrom d.tk.tickStart (64 * d.now) })
    else d) s

/-- REST_EXIT: the transmitter leaves idle with 32 COMMAs, valid at the pin within 200 ns (R179). -/
def execRestExit (k : Fin 256) (s : State) : Host.Outcome State Fault Refusal :=
  onMain (fun d =>
    if (d.strandOf k.val).state == .active && (d.strandOf k.val).txRest then
      d.modStrand k.val (fun s => { s with txRest := false, txLine := List.replicate 32 .comma, txAt := s.gridFrom d.tk.tickStart (64 * (d.now + 250) - 255) })
    else d) s

/-! ### INTAKE (R45) -/

/-- The FLOOR of a strand's uplink in the intake of this tick, where it is FRESH (R172, R224). -/
def Dev.freshFloor (d : Dev) (k : Nat) : Option Word :=
  let s := d.strandOf k
  if s.fresh && s.state == .active then s.last.map (fun u => wat u.header 0) else none

/-- A FLOOR above the held claim: an active member yields at the next boundary, a single device reports the conflict
(R225, R226). -/
def Dev.seeFloor (d : Dev) (k : Nat) : Dev :=
  match d.ply.held, d.freshFloor k with
  | some c, some f =>
    if f.toNat ≤ c.toNat then d
    else if d.isMember then d.modPly (fun p => { p with yieldDue := p.yieldDue || p.pstate == .active })
    else (d.modPly (fun p => { p with claimConflict := true })).event 0x054 f
  | _, _ => d

/-- The intake digest of a strand (R219), kept for a FRESH uplink. -/
def Dev.digest (d : Dev) (k : Nat) : Dev :=
  match d.freshFloor k, (d.strandOf k).last with
  | some _, some u =>
    let c := crc32 (wordsBytes (fit 22 0 u.control ++ [wat u.control 23]))
    d.modPly (fun p => { p with digests := tblSet 0 p.digests k (bits c 15 0) })
  | _, _ => d

/-- INTAKE_ENTRY. A cell that the intake shows lost, bypassed or parked leaves the allocation (R122). -/
def execIntakeEntry (i : Fin 4096) (s : State) : Host.Outcome State Fault Refusal :=
  onMain (fun d => d.runEntry clsIntake i.val (fun e _ d =>
    let ks := (List.range e.count).map (16 * e.unit + ·)
    let d := d.intake e
    let d := { d with isl := { d.isl with updated := d.isl.updated || ks.any (fun k => (d.strandOf k).fresh) } }
    let d := forEach ks (fun k d => (d.digest k).seeFloor k) d
    d.allocEntries.foldl Dev.allocService d)) s

/-! ### SPIN and ALLOC (R69, R85, R111, R121) -/

/-- The share stage of every section, where the control-law set runs it in entry i (R120, R121, note 32). -/
def Dev.shareStage (d : Dev) (i : Nat) : Dev :=
  if Config.shareEntry i then
    d.allocEntries.foldl (fun d e => d.sectionShares (d.running?.entries.filter (fun x => x.cls == clsDeliver)) e) d
  else d

/-- SPIN_ENTRY: the instances in list order. A wrong result of a lane is a hardware fault, which the command brings with it;
the checker finds it where it recomputes that lane of that instance in this entry (R85). -/
def execSpinEntry (i : Fin 4096) (fault : Option (Fin 2048 × Fin 32)) (s : State) : Host.Outcome State Fault Refusal :=
  onMain (fun d => d.runEntry clsSpin i.val (fun e _ d =>
    let b := d.running?
    (d.runSpin b e (fault.map (fun f => (f.1.val, f.2.val)))).shareStage i.val)) s

/-- THERMAL_STEP_TICK (R286): the step, and the limit and derates in force from this tick's boundary (R287). -/
def execThermalStepTick (s : State) : Host.Outcome State Fault Refusal :=
  onMain (fun d => if d.isStepTick then d.stepTick.limitNow else d) s

/-- ALLOC_ENTRY. -/
def execAllocEntry (i : Fin 4096) (s : State) : Host.Outcome State Fault Refusal :=
  onMain (fun d => d.runEntry clsAlloc i.val (fun e _ d => d.runAlloc e)) s

/-! ### METER and DELIVER (R46, R47) -/

/-- METER_ENTRY. -/
def execMeterEntry (i : Fin 4096) (s : State) : Host.Outcome State Fault Refusal :=
  onMain (fun d => d.runEntry clsMeter i.val (fun e _ d => d.meterRun e)) s

/-- DELIVER_ENTRY. -/
def execDeliverEntry (i : Fin 4096) (s : State) : Host.Outcome State Fault Refusal :=
  onMain (fun d => d.runEntry clsDeliver i.val (fun e start d => (d.deliver e start).placeCrossings)) s

/-! ### COPY, XDIE, CAPTURE and MIRROR (R41, R48) -/

/-- Block j of an entry's source: 64 bytes. -/
def Dev.block (d : Dev) (e : Entry) (j : Nat) : List Byte := memBytes d.weft (e.src + 64 * j) 64

/-- COPY_ENTRY: block after block. -/
def execCopyEntry (i : Fin 4096) (s : State) : Host.Outcome State Fault Refusal :=
  onMain (fun d => d.runEntry clsCopy i.val (fun e _ d =>
    forEach (List.range e.count) (fun j d => { d with weft := memPutBytes d.weft (e.dst + 64 * j) (d.block e j) }) d)) s

/-- The converter block (R48). -/
def Dev.converterBlock (d : Dev) : List Word :=
  (List.range 8).map (fun c => (d.adcOf c).newest) ++ (List.range 8).map (fun c => word ((d.adcOf c).seq % 65536))

/-- XDIE_ENTRY: the converter block as it stands at the start, and the trim blocks. -/
def execXdieEntry (i : Fin 4096) (s : State) : Host.Outcome State Fault Refusal :=
  onMain (fun d => d.runEntry clsXdie i.val (fun e _ d =>
    let conv := d.converterBlock
    let blocks := (List.range e.count).map (fun j => bytesWords (d.block e j))
    let d := { d with weft := memPutWords d.weft e.dst conv }
    blocks.foldl Dev.xdieBlock d)) s

/-- CAPTURE_ENTRY: blocks appended to the ring while it is not frozen. -/
def execCaptureEntry (i : Fin 4096) (s : State) : Host.Outcome State Fault Refusal :=
  onMain (fun d => d.runEntry clsCapture i.val (fun e _ d =>
    if d.capturing then
      ((List.range e.count).flatMap (d.block e)).foldl Dev.poolPut d
    else d)) s

/-- MIRROR_ENTRY: blocks placed in the transmit buffer; a standby does not send them (R44, R219). -/
def execMirrorEntry (i : Fin 4096) (s : State) : Host.Outcome State Fault Refusal :=
  onMain (fun d => d.runEntry clsMirror i.val (fun e start d =>
    if d.isMember && d.ply.pstate == .active then
      let us := (List.range e.count).map (fun j =>
        let off := e.src + 64 * j
        PlyUnit.table (BitVec.ofNat 23 off) (d.block e j) (BitVec.ofNat 16 (tableUcrc off d.tk.tick (d.block e j))))
      d.modPly (fun p => { p with txUnits := p.txUnits ++ us, linkBusy := max p.linkBusy (start + 12) + 18 * e.count })
    else d)) s

/-! ### Overrun (R51) -/

/-- TICK_OVERRUN: an entry's budget has expired before it was complete, and entries from i on are abandoned for this
tick (note 33). -/
def execTickOverrun (i : Fin 4096) (s : State) : Host.Outcome State Fault Refusal :=
  onMain (fun d =>
    if d.tk.seqRun && !d.tk.noBank && d.tk.abandoned.isNone && decide (i.val < d.running?.entries.length) then
      let t := d.tk
      ({ d with tk := { t with overrun := true, overrunCnt := satInc 16 t.overrunCnt, abandoned := some i.val } }).event
        0x000 (word i.val)
    else d) s

end Sys2Proof.Machine
end

