-- ==== Sys2Proof/Machine/Tick.lean ====
section
/-!
DEFINITION. The tick (R16, R28, R34 to R39, R56, R57, R77, R146, R246, R342, R486): what lands at a boundary and in which
order, the fixed work of the guard window, and the counted periods before the first boundary.
-/

namespace Sys2Proof.Machine

/-! ### Writes that land at tick (R16, R77, R342) -/

/-- The place of a write among those of one boundary: time bases first (R342), then open and close before HOLD_SEL
and MANUAL (R77), then the rest. -/
def Landing.place : Landing → Nat
  | .tbSet _ _ _ | .tbStep _ _ => 0
  | .tbRate _ _ | .tbState _ _ | .tbHoldLimit _ _ | .tbSlew _ _ => 1
  | .tb2Lane _ _ => 2
  | .openClose _ _ => 3
  | .hold _ _ _ => 4
  | _ => 5

/-- The writes due at a boundary, of one place, in order of acceptance. -/
def landPlace (due : List Landing) (n : Nat) (d : Dev) : Dev :=
  (due.filter (fun l => l.place == n)).foldl (fun d l => landOne l d) d

/-- The writes due at the boundary now, and the device with those that go on waiting. -/
def Dev.takeDue (d : Dev) : List Landing × Dev :=
  ((d.landing.filter (fun p => d.isDue p.2)).map (·.1),
    { d with landing := (d.landing.filter (fun p => !d.isDue p.2)).map (fun p => (p.1, p.2.pass)) })

/-- Items 1 to 3 of R342. -/
def Dev.landBases (d : Dev) (due : List Landing) : Dev :=
  (((landPlace due 1 (landPlace due 0 d)).takeSlew 0).takeSlew 1)

/-! ### Releases (R195, R196, R212) -/

/-- Sources still asserted that fire groups of a mask again (R212). -/
def Dev.refire (d : Dev) (g : Nat) : Dev :=
  let d := if d.cut.cutIn then d.fire 3 0 (d.matrixRow 257 &&& g) else d
  let d := if d.cut.plyCutIn then d.fire 4 0 (d.matrixRow 258 &&& g) else d
  forEach ((List.range d.strandCount).filter (fun k => (d.strandOf k).cutSrc)) (fun k d => d.fire 1 k (d.matrixRow k &&& g)) d

/-- One accepted release lands; on a standby a group whose own source is still asserted stays cut (R196), and so does one that a
CUT_FIRE write of this core cycle names (R212). -/
def Dev.releaseGroups (d : Dev) (g : Nat) : Dev :=
  let keeps := d.isMember && d.ply.pstate != .active && d.ply.pstate != .candidate
  let g := if d.cut.firedAt = d.now + 1 then g &&& (65535 ^^^ d.cut.fired) else g
  let g := if keeps then g &&& (65535 ^^^ d.assertedGroups) else g
  let off := 65535 ^^^ (g % 65536)
  let c := { d.cut with active := d.cut.active &&& off, notCutIn := d.cut.notCutIn &&& off, notPlyCut := d.cut.notPlyCut &&& off }
  (forEach (List.range 32) (fun n d => d.releaseTrim n) { d with cut := c }).refire g

/-- The releases due at a boundary. -/
def Dev.landReleases (d : Dev) : Dev :=
  let due := d.cut.releases.filter (fun p => d.isDue p.2)
  let rest := (d.cut.releases.filter (fun p => !d.isDue p.2)).map (fun p => (p.1, p.2.pass))
  due.foldl (fun d p => d.releaseGroups p.1) { d with cut := { d.cut with releases := rest } }

/-! ### Mode commit at a boundary (R56, R57) -/

/-- The staged warp table becomes the running one (R52). -/
def Dev.commitWarp (d : Dev) : Dev := { d with tk := { d.tk with runBank := d.otherBank } }

/-- Strands whose cell a map takes into use out of parking or deep rest while the strand is not ACTIVE, nor becomes it at this
boundary (R180). -/
def Dev.unparkedDown (d : Dev) (m : List Word) : List Nat :=
  (List.range d.strandCount).filter (fun k =>
    let s := d.strandOf k
    mapUsed m k && !mapParked m k && s.state != .active && !s.activeDue && (d.parked k || s.state == .deep || s.capsKept))

/-- A MAP commit (R124, R180, R446, R485). -/
def Dev.commitMap (d : Dev) : Dev :=
  match d.mapStaged with
  | none => d
  | some m =>
    let down := d.unparkedDown m
    let d := { d with mapForce := some m, mapStaged := none, tk := { d.tk with devPhase := mapDevPhase m } }
    let d := d.mapToSections m
    let d := forEach (List.range d.strandCount) (fun k d => d.refreshCell k) d
    let d := forEach down (fun k d => d.markLost k 1) d
    d.rearm

/-- The items of a mode set switch together. -/
def Dev.applySet (d : Dev) (set : Nat) : Dev :=
  let d := if nbit set 0 then d.commitWarp else d
  let d := if nbit set 1 then d.commitMap else d
  let d := if nbit set 2 then (d.commitCoef).commitAlloc else d
  let d := if nbit set 3 then d.commitRecipe else d
  let d := if nbit set 4 then d.commitChan else d
  if nbit set 5 then d.commitTrim else d

/-- An ARMED change is COMMITTED from the boundary T − G on, which a discard of that boundary finds it (R56, R257). -/
def Dev.reachGuard (d : Dev) : Dev :=
  let t := d.tk
  if t.commit == .armed && decide (t.target ≤ t.tick + t.commitGuard) then { d with tk := { t with commit := .committed } } else d

/-- The commit logic at a boundary: the change at T, but not after a thermal shutdown (R56, R291). -/
def Dev.commitBoundary (d : Dev) : Dev :=
  let t := d.tk
  if t.commit == .committed && decide (t.target ≤ t.tick) && !d.therm.shutdown then
    let d := { d with tk := { t.disarm with appliedEpoch := t.epoch, appliedTick := t.target } }
    (d.applySet t.set).owe .apply (some (d.now + d.coordDelay))
  else d

/-! ### Faults, island and allocator at a boundary -/

/-- Some source stopped FAULT_ALIVE 16 core cycles before now (R246). -/
def Dev.stopped16 (d : Dev) : Bool :=
  let late := (d.flt.stopFlips.filter (fun t => decide (d.now < t + 16))).length
  d.stopping != decide (late % 2 = 1)

/-- FAULT_ALIVE (R246). -/
def Dev.aliveBoundary (d : Dev) : Dev :=
  let f := d.flt
  let frozen := d.stopped16
  { d with flt := { f with aliveStop := frozen, alive := if frozen then f.alive else !f.alive } }

/-- A rise of FAULT_STEPS before this boundary lowers the device power limit (R245). -/
def Dev.limitBoundary (d : Dev) : Dev :=
  if d.flt.faultSteps < d.heldSteps then
    let d := { d with flt := { d.flt with faultSteps := d.heldSteps } }
    { d with therm := { d.therm with limit := d.powerLimit } }
  else d

/-- The main logic that takes the first action reads the demand block, and the island has the strand currents of the tick that ends (R261, R262,
R268). -/
def Dev.islandBoundary (d : Dev) : Dev :=
  let n := max 1 (2500000 / d.tickCycles)
  let sum := fun (c : Nat) => (d.channelCells c).foldl (fun (t : Int) k =>
    (List.range 4).foldl (fun (u : Int) i => u + (d.strandOf k).sample 8 i) t) 0
  let x := d.isl
  let cur := if x.updated then
      (List.range 32).foldl (fun (t : Tbl (List Int)) c => tblSet [] t c ((sum c :: tblGet [] t c).take n)) x.currents
    else x.currents
  { d with isl := { x with demandsRead := if d.firstActs then x.demands else [], currents := cur, strandAge := if x.updated then 0 else x.strandAge + 1
                           updated := false } }

/-- Allocator inputs of every ALLOC entry of the running table, and after a MAP commit the fallback of those that are
not due (R125, R126). -/
def Dev.allocBoundary (d : Dev) (newMap : Bool) : Dev :=
  let es := d.allocEntries
  let d := es.foldl Dev.allocInputs d
  if newMap then (es.filter (fun e => decide (d.tk.tick % e.period ≠ e.offset))).foldl Dev.mapFallback d else d

/-- Edge schedules move on by one tick: the one sent last is switched now (R28, R183, R295). -/
def Dev.shiftSchedules (d : Dev) : Dev :=
  { d with cells := d.cells.map (fun p =>
      (p.1, { p.2.tickEnd (64 * d.tickCycles) with prev := p.2.cur, cur := p.2.next })) }

/-- Trim ownership inputs of a boundary (R209). -/
def Dev.ownBoundary (d : Dev) (ownIn : Bool) : Dev :=
  let waits := d.isMember && d.ply.pstate == .active && !d.cut.trimOwn && ownIn
  { d with cut := { d.cut with ownIn := ownIn, ownWait := if waits then satInc 32 d.cut.ownWait else d.cut.ownWait } }

/-- The ply's part of a boundary (R225, R226, R310). -/
def Dev.plyBoundary (d : Dev) : Dev :=
  let done := d.isMember && d.ply.pstate == .xfer && d.ply.shadowDue
  let d := (d.singleClaim).memberBoundary
  if done then d.latchImage else d

/-! ### Boundaries (R28, R36) -/

/-- A tick begins: its number and its core cycle, from which TICK_SYNC_OUT stays high for 20 core cycles (R150). -/
def Dev.openTick (d : Dev) (n at_ : Nat) : Dev :=
  { d with tk := { d.tk with tick := n % 2 ^ 48, tickStart := at_, nextEntry := 0, entryEnd := 0, abandoned := none, guardDone := false
                             zcNow := d.tk.zcNext, zcNext := [], syncOutEnd := at_ + 20 } }

/-- TICK_SYNC_OUT is high (R150). -/
def Dev.tickSyncOut (d : Dev) : Bool := decide (d.now < d.tk.syncOutEnd)

/-- What a boundary closes of the tick that ends: the power limit, its replies, FAULT_ALIVE, the ply's image and books with what
the last seal brought, and the schedules and totals of the tick. -/
def Dev.closeTick (d : Dev) : Dev :=
  let d := ((((((d.limitBoundary).flushReplies).aliveBoundary).imageBoundary).plyBooks).landFlags).landLog
  let d := (d.endCommissioning).shiftSchedules
  { d with meter := { d.meter with mapPrev := d.mapForce, doneTotals := d.meter.totals, doneTick := d.meter.lastMeterTick } }

/-- The writes that land at a boundary and the commit, in the order of R77, R195 and R342. -/
def Dev.landBoundary (d : Dev) (b : BoundaryIn) : Dev :=
  let q := (d.openAdcWindows).takeDue
  let due := q.1
  let d := landPlace due 2 (q.2.landBases due)
  let d := ((((d.tb2Boundary).markBases q.2).slewPlls).alignBoundary).notePlls.commitBoundary
  let d := landPlace due 5 (landPlace due 4 (landPlace due 3 d))
  (d.trimBoundary).landReleases

/-- A MAP commit applies at this boundary (R56, R124, R291). -/
def Dev.mapDue (d : Dev) : Bool :=
  nbit d.tk.set 1 && d.tk.commit != .idle && decide (d.tk.target ≤ d.tk.tick) && d.mapStaged.isSome && !d.therm.shutdown

/-- Everything that lands or happens at a boundary of the sequencer, in order. -/
def Dev.boundaryWork (d : Dev) (b : BoundaryIn) : Dev :=
  let d := d.reachGuard.closeTick
  let newMap := d.mapDue
  let d := (((d.landBoundary b).portsBoundary).plyBoundary).ownBoundary b.ownIn
  let d := ((d.strandsBoundary b.sideband).islandBoundary).moveRefs
  let d := (d.allocBoundary newMap).adcBoundary
  let d := { d with pwr := { d.pwr with gpio := d.pwr.samplePins b.gpio } }
  (((d.startBoundary).capBoundary).noteHello).owedBoundary

/-- A boundary, whose occurrences are those of one core cycle (R250). -/
def Dev.atBoundary (d : Dev) (b : BoundaryIn) : Dev := d.oneCycle (d.boundaryWork b)

/-- The model's clock moved to a core cycle of the tick, unless that has passed. -/
def Dev.advanceTo (d : Dev) (cyc : Nat) : Dev := d.advanceUntil (d.tk.tickStart + cyc)

/-- TICK_BOUNDARY: the present tick ends and the next begins (R28, R34, R35). -/
def execTickBoundary (b : BoundaryIn) (s : State) : Host.Outcome State Fault Refusal :=
  onMain (fun d =>
    if d.tk.seqRun then
      let d := (d.advanceTo d.tickCycles).judgeWaiting
      ((d.openTick (d.tk.tick + 1) d.now).atBoundary b).takeDeferred
    else d) s

/-- The first boundary of a start with TB0 or TB1: the first instant at least 1 ms after the start at which the source's time
less ALIGN_ORIGIN reaches a whole multiple of the tick length, and the tick number of that multiple (R36). -/
def Dev.toFirst (d : Dev) : Nat × Dev :=
  let d := d.advanceUntil (d.tk.startAt + startWait)
  let n := if d.tk.alignSrc = 2 then 1 else 0
  (((d.sourceTicks (d.baseOf n)).ceil % (2 ^ 48 : Nat)).toNat, d.advance (d.cyclesToMultiple n))

/-- The sequencer starts with tick n at a core cycle; one started by R227 runs no bank. -/
def Dev.beginTicks (d : Dev) (k n at_ : Nat) (b : BoundaryIn) : Dev :=
  let tk := { d.tk with seqRun := true, starting := none, firstPulse := none
                        runBank := if d.tk.noBank then d.tk.runBank else k }
  (({ d with tk := tk }).openTick n at_).atBoundary b

/-- FIRST_BOUNDARY: the starting sequencer's first boundary (R36, R53, R227): at once with NONE, at the instant of R36
with a time base, and with SYNC at the pulse that has come; before that pulse nothing happens. -/
def execFirstBoundary (b : BoundaryIn) (s : State) : Host.Outcome State Fault Refusal :=
  onMain (fun d =>
    match d.tk.starting with
    | none => d
    | some k =>
      if d.tk.alignSrc = 3 then
        match d.tk.firstPulse with
        | none => d
        | some p => d.beginTicks k p.2 p.1 b
      else
        let q := if d.tk.alignSrc = 0 then (d.firstTick, d) else d.toFirst
        q.2.beginTicks k q.1 q.2.now b) s

/-- TICK_PERIOD_END: a counted period before the first boundary ends. Writes that land at tick land, a cut release among
them (R195), and the slew and order of R342 hold, and a PLL's return slew goes on (R335);
nothing that belongs to a tick boundary happens (R486). -/
def execTickPeriodEnd (s : State) : Host.Outcome State Fault Refusal :=
  onMain (fun d =>
    if d.tk.seqRun then d
    else
      let d := d.advanceTo d.tickCycles
      let d := { d with tk := { d.tk with tickStart := d.now } }
      let q := ((d.flushReplies).openAdcWindows).takeDue
      let due := q.1
      let d := [2, 3, 4, 5].foldl (fun d n => landPlace due n d) (((q.2.landBases due).markBases q.2).slewPlls.notePlls)
      q.2.oneCycle d.landReleases.adcBoundary.portsBoundary) s

/-! ### The guard window (R39, R131, R198 to R200) -/

/-- Delay-line calibration (R131, R251). -/
def Dev.calibrate (d : Dev) (ok : Bool) : Dev :=
  let n := if ok then 0 else satInc 32 d.pwr.delayFails
  let d := { d with pwr := { d.pwr with delayGood := ok, delayFails := n } }
  if ok then d else if n = 1000 then d.reoccur 0x002 (word n) else d.event 0x002 (word n)

/-- The probe of one rail: skipped under a cut, aborted by a real source, or judged (R199, R200). -/
def Dev.probe (d : Dev) (railB : Bool) (step : Nat) (abort : Bool) : Dev :=
  let c := d.cut
  if abort || decide (c.active ≠ 0) then { d with cut := { c with probeSkip := satInc 16 c.probeSkip } }
  else
    let pass := if step = 0 then min 16 ((if railB then c.passB else c.passA) + 1) else 0
    let fail := decide (step ≠ 0) || ((if railB then c.railBFail else c.railAFail) && decide (pass < 16))
    let d := if railB then { d with cut := { c with passB := pass, railBFail := fail } }
      else { d with cut := { c with passA := pass, railAFail := fail } }
    if step = 0 then d else d.event (if railB then 0x042 else 0x041) (word step)

/-- The ECC scrub step (R39, R236). -/
def Dev.scrub (d : Dev) (fixed bad : Option Word) : Dev :=
  let d := if bad.isSome then d.modPly (fun p => { p with eccOk := false }) else d
  d.events (bad.toList.map (fun a => (0x071, a)) ++ fixed.toList.map (fun a => (0x070, a)))

/-- GUARD_WINDOW: the fixed work, in its order (R39). -/
def execGuardWindow (g : GuardIn) (s : State) : Host.Outcome State Fault Refusal :=
  onMain (fun d =>
    if d.tk.seqRun && !d.tk.guardDone then
      let d := d.advanceTo (d.tickCycles - d.tk.guardLen)
      let d := { d with tk := { d.tk with guardDone := true } }
      let d := d.calibrate g.calOk
      let d := (d.probe false g.railA.val g.abortA).probe true g.railB.val g.abortB
      let d := (((d.landWaiting).sealStep).sendTransfer).scrub g.eccFixed g.eccBad
      { d with tk := d.tk.latch }
    else d) s

end Sys2Proof.Machine
end

