-- ==== Sys2Proof/Machine/Flags.lean ====
section
/-!
DEFINITION. Every status word of the register space as it reads: the identity and status block (R60, R153, R201, R238,
R290, R389, R450), the fault collector (R256), metering (R311), time bases and timestamp queues (R346, R356), mailboxes
and fallback queues (R397 to R408), and the BAR2 window (R395). Side effects of reads have commands of their own.
-/

namespace Sys2Proof.Machine

/-! ### Identity and status block -/

/-- LINK_STATE (R238). -/
def LinkState.code : LinkState → Nat
  | .down => 0 | .lock => 1 | .align => 2 | .up => 3 | .incompat => 4

/-- Words of R201, from 0x80 to 0x90. -/
def Dev.cutWord (d : Dev) (off : Nat) : Word :=
  let c := d.cut
  match off with
  | 0x80 => pack [(16, c.active)]
  | 0x88 => pack [(16, c.probeSkip), (8, b1 c.dualTrip), (7, b1 c.railBFail), (6, b1 c.railAFail), (5, b1 c.degraded),
                  (4, b1 c.trimOwn), (3, b1 c.plyCutIn), (2, b1 c.cutIn), (1, b1 d.plyCutOutLvl), (0, b1 d.cutOutLvl)]
  | 0x8C => lastCutWord c.lastClass c.lastIndex c.lastGroups
  | 0x90 => word c.lastTick
  | _ => 0

/-- Words of R238, from 0xA0 to 0xBC. -/
def Dev.plyWord (d : Dev) (off : Nat) : Word :=
  let p := d.ply
  let x := d.ref
  match off with
  | 0xA0 => pack [(30, roleCode p.role), (27, p.pstate.code), (26, b1 d.fits), (25, b1 p.sync), (24, b1 p.diverge),
                  (21, p.link.code), (18, ((p.hello.map (·.pstate)).getD 7) % 8), (17, b1 ((p.hello.map (·.fit)).getD false)),
                  (16, b1 p.grantSeen), (15, b1 p.grantIgnored), (14, b1 p.resyncSeen), (13, b1 p.claimConflict)]
  | 0xA4 => d.sentClaim
  | 0xA8 => p.floorMax
  | 0xAC => pack [(16, p.switchCnt), (0, p.imageMiss)]
  | 0xB0 => pack [(16, p.mismatchCnt), (0, p.xferCnt)]
  | 0xB4 => word p.claimTick
  | 0xB8 => if p.pstate = .xfer then word p.xferLeft else 0
  | 0xBC => pack [(16, x.grantCnt), (14, x.lastGrant), (7, b1 x.viewA.aliveOk), (6, b1 x.viewB.aliveOk),
                  (5, b1 x.viewA.reportOk), (4, b1 x.viewB.reportOk), (3, b1 x.noStandby), (2, b1 x.holdoff), (0, b1 x.run)]
  | _ => 0

/-- Cells with a derate below 1 (R290). -/
def Dev.derated (d : Dev) : Nat := (d.cells.filter (fun p => decide (p.2.derate < 0x8000))).length

/-- A pair of signed 16-bit quantities. -/
def pair16 (hi lo : Int) : Word := pack [(16, lowBits 16 hi), (0, lowBits 16 lo)]

/-- Words of R290, from 0xC0 to 0xEC. -/
def Dev.thermalWord (d : Dev) (off : Nat) : Word :=
  let t := d.therm
  let value := fun (i : Nat) => (tblGet ({} : Sensor) t.sensors i).value
  if off = 0xC0 then
    pack [(27, t.steps), (26, b1 t.absOver), (25, b1 t.rateOver), (21, t.hotSensor), (0, t.limit)]
  else if off = 0xC4 then pair16 t.tj t.rateMax
  else if off = 0xC8 then pack [(16, t.stepCnt), (0, d.derated)]
  else if 0xD0 ≤ off ∧ off < 0xF0 then pair16 (value (2 * ((off - 0xD0) / 4) + 1)) (value (2 * ((off - 0xD0) / 4)))
  else 0

/-- The bit of RESET_CAUSE for a cause (R450). -/
def ResetCause.place : ResetCause → Nat
  | .porAon => 31 | .resetPin => 30 | .swReset => 29 | .collapse => 28 | .wdog => 27

/-- Words of R450, from 0xF0 to 0xF8. -/
def Dev.powerWord (d : Dev) (off : Nat) : Word :=
  let p := d.pwr
  match off with
  | 0xF0 => pack [(28, p.start.code), (24, p.tripReason), (0, min 65535 (((d.now : Int) - p.stateStart) / 12500000).toNat)]
  | 0xF4 => pack [(17, b1 p.mainCmd), (16, b1 p.preCmd), (0, p.gpio.toNat)]
  | 0xF8 => pack [(p.cause.place, 1), (26, b1 p.memRetained), (25, p.fwSlot % 2), (24, b1 p.slotFallback)]
  | _ => 0

/-- Words of R389, from 0x00 to 0x18; the part's stepping is B0 (R4). -/
def Dev.identityWord (d : Dev) (id off : Nat) : Word :=
  match off with
  | 0x00 => 0x92560020
  | 0x04 => pack [(16, d.strandCount), (14, d.portCount), (13, if d.part = .t9256 then 1 else 0), (10, 4)]
  | 0x08 => d.host.fwVersion
  | 0x0C => pack [(28, d.host.bootStage), (27, b1 d.host.authOk), (26, b1 d.host.bindLocked)]
  | 0x10 => d.causeWord id
  | 0x14 => (d.intOf id).en
  | 0x18 => word id
  | _ => 0

/-- A word of the identity and status block. -/
def Dev.statusWord (d : Dev) (id off : Nat) : Word :=
  if off < 0x40 then d.identityWord id off
  else if off < 0x80 then d.tk.regWord off
  else if off < 0xA0 then d.cutWord off
  else if off < 0xC0 then d.plyWord off
  else if off < 0xF0 then d.thermalWord off
  else d.powerWord off

/-! ### Fault collector (R256) -/

/-- A mask of 32 sources from 32w. -/
def Dev.srcMask (d : Dev) (w : Nat) (p : FaultSrc → Bool) : Word := word (maskOf 32 (fun b => p (d.srcOf (32 * w + b))))

/-- Severities of the eight sources from 8w, one a nibble. -/
def Dev.sevWord (d : Dev) (w : Nat) : Word := pack ((List.range 8).map (fun i => (4 * i, d.sevOf (8 * w + i))))

/-- The four words of a hank slot. -/
def HankRec.words (h : HankRec) : List Word :=
  [ pack [(16, h.seq), (0, h.cycle)], word h.tick, pack [(29, h.sev), (16, h.source), (0, h.tick / 2 ^ 32 % 65536)], h.detail ]

/-- A word of the fault collector block. -/
def Dev.faultWord (d : Dev) (off : Nat) : Word :=
  let f := d.flt
  if off = 0x00 then
    pack [(31, b1 f.aliveStop), (28, d.maxSev), (25, f.stopTh), (16, d.heldSteps), (0, f.lastSeq)]
  else if off = 0x04 then pack [(16, f.hankAck), (0, f.hankCount)]
  else if off = 0x08 then pack [(16, f.hankOvf), (0, f.hankLost)]
  else if off = 0x0C then pack [(16, f.discardCnt)]
  else if off = 0x10 then word f.feLast.tick
  else if off = 0x14 then
    pack [(31, b1 f.fe.isSome), (28, f.feLast.sev), (16, f.feLast.source), (0, f.feLast.tick / 2 ^ 32 % 65536)]
  else if off = 0x18 then f.feLast.detail
  else if off = 0x1C then word f.feLast.cycle
  else if 0x100 ≤ off ∧ off < 0x140 then d.srcMask ((off - 0x100) / 4) (·.status)
  else if 0x140 ≤ off ∧ off < 0x180 then d.srcMask ((off - 0x140) / 4) (·.raw)
  else if 0x200 ≤ off ∧ off < 0x300 then d.sevWord ((off - 0x200) / 4)
  else if 0x400 ≤ off ∧ off < 0x600 then wat (tblGet ({} : HankRec) f.slots ((off - 0x400) / 16)).words ((off - 0x400) % 16 / 4)
  else 0

/-! ### Metering (R311) -/

/-- The state word of pulse input i. -/
def PulseIn.word (p : PulseIn) : Word :=
  pack [(31, b1 p.en), (30, b1 p.activeLow), (29, b1 p.level), (28, b1 p.stuck), (27, b1 p.overRate), (0, p.rateLast)]

/-- The state word of pulse output j; the member drives an enabled output while it is the one that counts. -/
def PulseOut.word (p : PulseOut) (drives : Bool) : Word :=
  pack [(31, b1 p.en), (30, b1 (p.en && drives)), (29, b1 p.owing), (28, b1 p.oweSat), (16, p.src), (0, p.backlog)]

/-- A word of the metering block. -/
def Dev.meterWord (d : Dev) (off : Nat) : Word :=
  let m := d.meter
  if off = 0x00 then
    pack [(30, b1 m.snapReady), (29, b1 m.initBlank), (28, b1 m.gap), (27, b1 m.closeOk), (26, b1 m.nvFail), (25, b1 m.saveFail),
          (24, b1 m.qrefLost), (16, m.truthMis)]
  else if off = 0x04 then word m.snapTick
  else if off = 0x08 then pack [(16, m.calSeq), (0, m.snapTick / 2 ^ 32 % 65536)]
  else if off = 0x0C then word m.saveSeq
  else if off = 0x10 then word m.saveTick
  else if off = 0x14 then word m.gapS
  else if off = 0x18 then word m.uncertWh
  else if off = 0x1C then word m.uncertMol
  else if 0x20 ≤ off ∧ off < 0x50 then
    word (tblGet 0 m.unattr ((off - 0x20) / 8) / 2 ^ (32 * ((off - 0x20) % 8 / 4)))
  else if 0x100 ≤ off ∧ off < 0x540 then
    let s := tblGet ({} : SnapAcc) m.snap ((off - 0x100) / 8)
    if off % 8 = 0 then word s.value else pack [(31, b1 s.valid), (16, s.wrap), (0, s.value / 2 ^ 32 % 65536)]
  else if 0x600 ≤ off ∧ off < 0x680 then word (tblGet 0 m.estTicks ((off - 0x600) / 4))
  else if 0x800 ≤ off ∧ off < 0x840 then (tblGet ({} : PulseIn) m.pulseIn ((off - 0x800) / 4)).word
  else if 0x840 ≤ off ∧ off < 0x860 then (tblGet ({} : PulseOut) m.pulseOut ((off - 0x840) / 4)).word d.drivesPulses
  else 0

/-! ### Time bases and timestamp queues (R346, R356) -/

/-- STATE of a PLL (R333). -/
def PllState.code : PllState → Nat
  | .off => 0 | .acquire => 1 | .locked => 2 | .holdover => 3 | .ret => 4

/-- LOCK as the comparator shows it: while a PLL is on its way to LOCKED, or the output is ignored, it is free (R332, R333,
note 177). -/
def Pll.lockShown (p : Pll) (e : Nat) : Bool :=
  match p.state with
  | .off | .locked => p.lock
  | .acquire => p.lock || decide (Config.freeNat e % 2 = 1)
  | .holdover | .ret => decide (Config.freeNat e % 2 = 1)

/-- A word of a PLL's record. -/
def Pll.regWord (p : Pll) (e off : Nat) : Word :=
  match off with
  | 0x00 => pack [(29, p.state.code), (28, b1 (p.lockShown e)), (27, b1 p.refOk), (26, b1 p.everLocked), (0, p.fbInt)]
  | 0x04 => sword (p.fbFrac + p.offset)
  | 0x08 => sword p.steer
  | 0x0C => sword p.buildout
  | 0x10 => pack [(16, p.unlockCnt), (0, p.holdoverCnt)]
  | _ => 0

/-- A word of a time base's record: the first as it stands, the next three as captured (R345). -/
def Dev.tbRegWord (d : Dev) (n off : Nat) : Word :=
  let t := d.baseOf n
  if off = 0 then wat (d.tbWords n) 0
  else if off < 0x10 then wat (if n = 3 then d.clk.tb3Cap else t.cap) (off / 4 - 1)
  else if n = 3 then 0
  else if off = 0x10 then (if n = 2 then 0 else sword t.rate)
  else if off = 0x14 then (if n = 2 then 0 else sword t.slewLeft)
  else if off = 0x18 then word (t.holdCount / 1250000000)
  else if n = 2 then word d.clk.mainsPeriod else word t.holdLimit

/-- A word of a port's transmit timestamp queue. -/
def Dev.tsRegWord (d : Dev) (m : Master) (p off : Nat) : Word :=
  let e := d.portOf p
  if off = 0 then (if d.tsHidden m then 0 else pack [(31, b1 e.tsOvf), (8, e.tsDrop), (0, e.ts.length)])
  else if 0x10 ≤ off ∧ off < 0x20 then d.tsWord m p ((off - 0x10) / 4)
  else 0

/-- A word of the clocks and time bases block. -/
def Dev.clockWord (d : Dev) (m : Master) (off : Nat) : Word :=
  if off < 0x20 then d.clk.pllA.regWord d.fresh off
  else if off < 0x40 then d.clk.pllB.regWord (d.fresh + 1) (off - 0x20)
  else if off < 0xC0 then d.tbRegWord ((off - 0x40) / 0x20) (off % 0x20)
  else if 0xD0 ≤ off ∧ off < 0x110 then
    let n := (off - 0xD0) / 16
    wat (if n = 3 then d.clk.tb3Snap else (d.baseOf n).snap) (off % 16 / 4)
  else if 0x200 ≤ off ∧ off < 0x200 + 0x40 * d.portCount then d.tsRegWord m ((off - 0x200) / 0x40) (off % 0x40)
  else 0

/-! ### Mailboxes (R397 to R408) -/

/-- A word of a mailbox channel as one of its identities reads it; others read zero, and while GO is set the requester reads
the previous reply (R399, R405). -/
def Dev.boxWord (d : Dev) (id ch off : Nat) : Word :=
  let c := d.boxOf ch
  if id ≠ c.reqId ∧ id ≠ c.rspId then 0
  else if off < 0x40 then wat c.req (off / 4)
  else if off < 0x80 then wat (if c.go && c.reqId == id then c.prevRep else c.rep) (off / 4 - 16)
  else if off = 0x80 then c.doorWord
  else 0

/-- DONE_SUM and GO_SUM of an identity (R408). -/
def Dev.doneSum (d : Dev) (id : Nat) : Word := word (maskOf 32 (fun ch => (d.boxOf ch).done && (d.boxOf ch).reqId == id))
/-- GO_SUM. -/
def Dev.goSum (d : Dev) (id : Nat) : Word :=
  word (maskOf 32 (fun ch => (d.boxOf ch).go && !(d.boxOf ch).picked && (d.boxOf ch).rspId == id))

/-- A word of the mailbox block, from 0x0001_0000. -/
def Dev.mailWord (d : Dev) (id off : Nat) : Word :=
  if off < 0x2000 then d.boxWord id (off / 0x100) (off % 0x100)
  else if off = 0x2000 then d.doneSum id
  else if off = 0x2004 then d.goSum id
  else if off = 0x2008 then word (d.intOf id).viol
  else if 0x3000 ≤ off ∧ off < 0x3100 then
    (if off % 8 = 0 then (d.boxOf ((off - 0x3000) / 8)).bind0 else (d.boxOf ((off - 0x3000) / 8)).bind1)
  else if 0x3100 ≤ off ∧ off < 0x310C then word (tblGet ({} : WrEn) d.host.wrEn ((off - 0x3100) / 4)).value
  else if off = 0x3200 then word (b1 d.host.bindLocked)
  else 0

/-- A word of a fallback queue block: the heads as their receivers see them, and the status. -/
def Dev.queueRegWord (d : Dev) (id ch off : Nat) : Word :=
  let c := d.boxOf ch
  if off = 0 then (if (d.responders ch).contains id then c.fwd.headD 0 else 0)
  else if off = 4 then (if (d.requesters ch).contains id then c.back.headD 0 else 0)
  else if off = 8 then c.queueWord
  else 0

/-! ### The whole space -/

/-- A word of BAR0 as a master whose port is awake reads it (Dev.portRead); words that no table names read zero. -/
def Dev.bar0Word (d : Dev) (m : Master) (off : Nat) : Word :=
  let id := masterId m
  if off < 0x10000 then d.statusWord id off
  else if off < 0x20000 then d.mailWord id (off - 0x10000)
  else if off < 0x20400 then d.queueRegWord id ((off - 0x20000) / 0x20) (off % 0x20)
  else if 0x30000 ≤ off ∧ off < 0x40000 then d.faultWord (off - 0x30000)
  else if 0x40000 ≤ off ∧ off < 0x50000 then d.meterWord (off - 0x40000)
  else if 0x50000 ≤ off ∧ off < 0x60000 then (d.canOf ((off - 0x50000) / 0x4000)).regWord d.now d.fresh (off % 0x4000)
  else if 0x100000 ≤ off ∧ off < 0x140000 then (d.canOf ((off - 0x100000) / 0x10000)).ramWord (off % 0x10000)
  else if 0x200000 ≤ off ∧ off < 0x210000 then d.clockWord m (off - 0x200000)
  else 0

/-- A byte of the BAR2 window (R395). -/
def Dev.bar2Byte (d : Dev) (a : Nat) : Byte := if a < areaEnd then memByte d.bar2 a else 0

end Sys2Proof.Machine
end

