-- ==== Sys2Proof/Machine/Registers.lean ====
section
/-!
DEFINITION. Writes of the register space (R9 to R12, R16, R395 to R406): which words may be written, by whom, and what
each write does at once.
-/

namespace Sys2Proof.Machine

/-! ### Identity and status block -/

/-- A write of a word of the identity and status block by an identity. -/
def Dev.writeStatus (d : Dev) (id off : Nat) (v : Word) : Dev :=
  match off with
  | 0x10 => d.clearCauses id v
  | 0x14 => d.writeEnables id v
  | 0x54 => { d with tk := { d.tk with overrun := d.tk.overrun && !bit v 9 } }
  | 0x70 => { d with tk := { d.tk with syncStray := d.tk.syncStray && !bit v 2 } }
  | 0x84 => d.cutFire (bits v 15 0)
  | 0x88 => { d with cut := { d.cut with dualTrip := d.cut.dualTrip && !bit v 8 } }
  | 0xA0 => d.modPly (fun p =>
      { p with grantSeen := p.grantSeen && !bit v 16, grantIgnored := p.grantIgnored && !bit v 15
               resyncSeen := p.resyncSeen && !bit v 14, claimConflict := p.claimConflict && !bit v 13 })
  | 0xBC => d.modRef (fun x => { x with noStandby := x.noStandby && !bit v 3 })
  | _ => d

/-! ### Fault collector, metering, clocks -/

/-- A write of a word of the fault collector block (R256). -/
def Dev.writeFault (d : Dev) (off : Nat) (v : Word) : Dev :=
  if off = 0x04 then d.ackHank (bits v 31 16)
  else if off = 0x14 then (if bit v 31 then { d with flt := { d.flt with fe := none } } else d)
  else if 0x100 ≤ off ∧ off < 0x140 then
    forEach (maskBits 32 v.toNat) (fun b d => d.clearStatus (32 * ((off - 0x100) / 4) + b)) d
  else d

/-- STUCK and OVER_RATE of a pulse input written 1; STUCK clears only when its cause has gone (R302, R303, R252). -/
def PulseIn.clear (p : PulseIn) (v : Word) : PulseIn :=
  { p with stuck := p.stuck && (!bit v 28 || p.stuckRaw), overRate := p.overRate && !bit v 27 }

/-- A write of a word of the metering block (R311). -/
def Dev.writeMeter (d : Dev) (off : Nat) (v : Word) : Dev :=
  if off = 0 then d.writeMeter0 v
  else if 0x800 ≤ off ∧ off < 0x840 then
    { d with meter := { d.meter with pulseIn := tblMod {} d.meter.pulseIn ((off - 0x800) / 4) (fun p => p.clear v) } }
  else if 0x840 ≤ off ∧ off < 0x860 then
    { d with meter := { d.meter with
        pulseOut := tblMod {} d.meter.pulseOut ((off - 0x840) / 4) (fun p => { p with oweSat := p.oweSat && !bit v 28 }) } }
  else d

/-- A write of a word of the clocks and time bases block (R345, R356). -/
def Dev.writeClocks (d : Dev) (off : Nat) (v : Word) : Dev :=
  if off = 0xC0 then (if bit v 0 then d.snapTb else d)
  else if 0x200 ≤ off ∧ off < 0x200 + 0x40 * d.portCount ∧ off % 0x40 = 0 then
    d.modPort ((off - 0x200) / 0x40) (fun e => { e with tsOvf := e.tsOvf && !bit v 31 })
  else d

/-! ### CAN -/

/-- A write of a word of a controller's register block (R382, R383, R387). -/
def Dev.writeCan (d : Dev) (c off : Nat) (v : Word) : Dev :=
  if off = 0x64 then d.txPush c v
  else if off = 0x68 then d.txFlush c v
  else
    let e := d.modCan c (fun x => x.writeReg d.now off v)
    if off = 0x24 ∧ !(d.canOf c).levelCause ∧ (e.canOf c).levelCause then e.levelUp (4 + c) else e

/-! ### Mailboxes -/

/-- A write of a word of mailbox channel ch (R399): each word takes the identity that R399 names. -/
def Dev.writeBox (d : Dev) (m : Master) (ch off : Nat) (v : Word) : Dev :=
  if off < 0x40 then d.boxWrite m ch Chan.reqId (fun d => d.writeReq ch (off / 4) v)
  else if off < 0x80 then d.boxWrite m ch Chan.rspId (fun d => d.writeRep ch (off / 4 - 16) v)
  else if off = 0x80 then d.boxWrite m ch Chan.reqId (fun d => d.doorbell ch v)
  else if off = 0x84 then d.boxWrite m ch Chan.rspId (fun d => d.control ch v)
  else if masterId m = (d.boxOf ch).reqId then d
  else d.boxWrite m ch Chan.rspId id

/-- A write that only the management processor may make (R397, R398). -/
def Dev.mgmtOnly (d : Dev) (m : Master) (f : Dev → Dev) : Dev := if masterId m = 0x20 then f d else d.violation m

/-- A write of a word of the mailbox block behind the channels; one of a word that no host may write is counted (R397). -/
def Dev.writeMailTables (d : Dev) (m : Master) (off : Nat) (v : Word) : Dev :=
  if 0x3000 ≤ off ∧ off < 0x3100 then d.mgmtOnly m (fun d => d.writeBinding ((off - 0x3000) / 8) (decide (off % 8 = 4)) v)
  else if 0x3100 ≤ off ∧ off < 0x310C then d.mgmtOnly m (fun d => d.writeWrEn ((off - 0x3100) / 4) v)
  else if off = 0x3200 then d.mgmtOnly m (fun d => if bit v 0 then d.lockBinding else d)
  else d.mgmtOnly m id

/-- A write of a word of a channel's fallback queues (R406): a push by its sender, and a clear of an overflow bit by
either side. -/
def Dev.writeQueue (d : Dev) (m : Master) (ch off : Nat) (v : Word) : Dev :=
  let id := masterId m
  let req := (d.requesters ch).contains id
  let rsp := (d.responders ch).contains id
  if off = 0 then (if req then d.pushFwd ch v else d.violation m)
  else if off = 4 then (if rsp then d.pushBack ch v else d.violation m)
  else if off = 8 then (if req || rsp then d.clearOvf ch v else d.violation m)
  else if req || rsp || id == 0x20 then d
  else d.violation m

/-! ### The whole space -/

/-- A write of a word of BAR0; words that no table names take none. -/
def Dev.writeBar0 (d : Dev) (m : Master) (off : Nat) (v : Word) : Dev :=
  if off < 0x10000 then d.guarded m 0 (fun d => d.writeStatus (masterId m) off v)
  else if off < 0x12000 then d.writeBox m ((off - 0x10000) / 0x100) (off % 0x100) v
  else if off < 0x20000 then d.writeMailTables m (off - 0x10000) v
  else if off < 0x20400 then d.writeQueue m ((off - 0x20000) / 0x20) (off % 0x20) v
  else if 0x30000 ≤ off ∧ off < 0x40000 then d.guarded m 1 (fun d => d.writeFault (off - 0x30000) v)
  else if 0x40000 ≤ off ∧ off < 0x50000 then d.guarded m 2 (fun d => d.writeMeter (off - 0x40000) v)
  else if 0x50000 ≤ off ∧ off < 0x60000 then
    d.guarded m canBlock (fun d => d.writeCan ((off - 0x50000) / 0x4000) (off % 0x4000) v)
  else if 0x100000 ≤ off ∧ off < 0x140000 then
    d.guarded m canBlock (fun d => d.modCan ((off - 0x100000) / 0x10000) (fun c => c.writeRam (off % 0x10000) v))
  else if 0x200000 ≤ off ∧ off < 0x210000 then d.guarded m 4 (fun d => d.writeClocks (off - 0x200000) v)
  else d

/-- A write of BAR2: bytes that fall in the converter buffer area are stored, where the master may write it; the capture
pool and what the table does not name take none (R391, R395, R397). -/
def Dev.writeBar2 (d : Dev) (m : Master) (off : Nat) (data : List Byte) : Dev :=
  if off + data.length ≤ areaLo ∨ areaEnd ≤ off then d
  else d.guarded m 5 (fun d =>
    forEach ((List.range data.length).filter (fun i => decide (areaLo ≤ off + i) && decide (off + i < areaEnd)))
      (fun i d => { d with bar2 := memPut d.bar2 (off + i) (data.getD i 0) }) d)

/-- The whole aligned words that a write of bytes at an offset covers, in ascending address; the rest is discarded (R9). -/
def wordsCovered (off : Nat) (data : List Byte) : List (Nat × Word) :=
  let lead := (4 - off % 4) % 4
  let ws := data.drop lead
  (bytesWords (ws.take (ws.length / 4 * 4))).zipIdx.map (fun p => (off + lead + 4 * p.2, p.1))

/-- A write of bytes to BAR0: word accesses in ascending address (R9, R391). -/
def Dev.writeRun (d : Dev) (m : Master) (off : Nat) (data : List Byte) : Dev :=
  (wordsCovered off data).foldl (fun d p => d.writeBar0 m p.1 p.2) d

/-- A write of a space. -/
def Dev.writeSpace (d : Dev) (m : Master) (space : Space) (off : Nat) (data : List Byte) : Dev :=
  match space with
  | .bar0 => d.writeRun m off data
  | .bar2 => d.writeBar2 m off data
  | .other _ => d

/-- A read of bytes of a word of BAR0, with the effect that the read of that word has (R9, R60, R345, R355, R378, R406); the bytes
read are in the model's image of the read port. -/
def Dev.readWord (d : Dev) (m : WordRead) (off : Nat) : Dev :=
  let ram := (off - 0x100000) % 0x10000 - 0x900
  let ts := (off - 0x200200) % 0x40
  if off = 0x40 then d.readTickLo m.bytes
  else if 0x20000 ≤ off ∧ off < 0x20400 ∧ off % 0x20 = 0 then d.popFwd m ((off - 0x20000) / 0x20)
  else if 0x20000 ≤ off ∧ off < 0x20400 ∧ off % 0x20 = 4 then d.popBack m ((off - 0x20000) / 0x20)
  else if 0x100000 ≤ off ∧ off < 0x140000 ∧ 0x900 ≤ off % 0x10000 ∧ off % 0x10000 < 0x1C00 then
    (if ram % 76 = 0 then d.readBufferHead m ((off - 0x100000) / 0x10000) (ram / 76)
     else d.readBufferWord m ((off - 0x100000) / 0x10000) (ram / 76) (ram % 76 / 4))
  else if 0x200040 ≤ off ∧ off < 0x2000C0 ∧ off % 0x20 = 0 then d.readTb m ((off - 0x200040) / 0x20)
  else if 0x200200 ≤ off ∧ off < 0x200200 + 0x40 * d.portCount ∧ ts = 0x10 then d.readEntry0 m ((off - 0x200200) / 0x40)
  else if 0x200200 ≤ off ∧ off < 0x200200 + 0x40 * d.portCount ∧ ts = 0x1C then d.readEntry3 m ((off - 0x200200) / 0x40)
  else d.giveBytes m.bytes (d.bar0Word m.master off)

/-- The aligned words that a read of `len` bytes at an offset touches, in ascending address, each with the bytes it takes of it. -/
def wordsTouched (off len : Nat) : List (Nat × ReadBytes) :=
  if len = 0 then []
  else (List.range ((off + len - 1) / 4 - off / 4 + 1)).map (fun i =>
    let a := (off / 4 + i) * 4
    let lo := max off a - a
    (a, { first := Fin.ofNat 4 lo, count := Fin.ofNat 5 (min (off + len) (a + 4) - a - lo) }))

/-- A read of `len` bytes of BAR0: word accesses in ascending address, each with its effect, and the bytes read (R9, R391). -/
def Dev.readRun (d : Dev) (m : Master) (off len : Nat) : Dev × List Byte :=
  (wordsTouched off len).foldl (fun q p =>
    let e := q.1.readWord ⟨m, p.2⟩ p.1
    (e, q.2 ++ (wordBytes e.host.readData).take p.2.count.val)) (d, [])

/-- A read of a space. -/
def Dev.readSpace (d : Dev) (m : Master) (space : Space) (off len : Nat) : Dev × List Byte :=
  match space with
  | .bar0 => d.readRun m off len
  | .bar2 => (d, (List.range len).map (fun i => d.bar2Byte (off + i)))
  | .other _ => (d, List.replicate len 0)

/-- The address of a QSPI transaction breaks a rule of R394. -/
def qspiAddrBad (space : Space) (off : Nat) : Bool :=
  decide (off % 4 ≠ 0) || (match space with | .bar0 | .bar2 => false | .other _ => true)

/-- The bytes of a QSPI transaction up to the first that breaks a rule of R394. -/
def qspiKept (space : Space) (off len : Nat) : Nat :=
  if qspiAddrBad space off then 0
  else match space with
    | .bar0 => min len (64 - off % 64)
    | .bar2 => min len 256
    | .other _ => 0

/-- A QSPI transaction of `len` data bytes breaks a rule of R394. -/
def qspiBroken (space : Space) (off len : Nat) : Bool := qspiAddrBad space off || decide (qspiKept space off len < len)

/-- A QSPI write: whole words up to the first byte that breaks a rule, which is an error, and ends the transaction (R393,
R394). -/
def Dev.qspiWrite (d : Dev) (space : Space) (off : Nat) (data : List Byte) : Dev :=
  let kept := data.take (qspiKept space off data.length / 4 * 4)
  let d := if kept.isEmpty then d else d.writeSpace .qspi space off kept
  if qspiBroken space off data.length then d.qspiError else d

/-- A QSPI READ or QREAD of `len` bytes: what it answers up to the first that breaks a rule, which is an error and ends the
transaction (R393, R394). -/
def Dev.qspiRead (d : Dev) (space : Space) (off len : Nat) : Dev × List Byte :=
  let q := d.readSpace .qspi space off (qspiKept space off len)
  (if qspiBroken space off len then q.1.qspiError else q.1, q.2)

/-- What the opcode byte of a QSPI transaction asks for (R393). -/
inductive QspiOp where
  | read | write | status
  deriving DecidableEq, Repr

/-- The opcodes that R393 lists: READ and QREAD, WRITE and QWRITE, STATUS. -/
def qspiOp (b : Byte) : Option QspiOp :=
  if b = 0x03 ∨ b = 0xEB then some .read else if b = 0x02 ∨ b = 0x32 then some .write else if b = 0x05 then some .status else none

/-- The space that the address bits [31:28] of a QSPI transaction select (R393). -/
def qspiSpace (addr : Word) : Space :=
  if bits addr 31 28 = 0 then .bar0 else if bits addr 31 28 = 2 then .bar2 else .other (addr.extractLsb' 28 4)

/-- A whole QSPI transaction: opcode byte, address, the bytes written, and how many bytes the master clocks out; what it does,
and the bytes it answers (R393, R394). -/
def Dev.qspiTransaction (d : Dev) (op : Byte) (addr : Word) (data : List Byte) (len : Nat) : Dev × List Byte :=
  match qspiOp op with
  | some .read => d.qspiRead (qspiSpace addr) (bits addr 27 0) len
  | some .write => (d.qspiWrite (qspiSpace addr) (bits addr 27 0) data, [])
  | some .status => (d.qspiStatus, [BitVec.ofNat 8 (b1 d.host.qspiErr + 2 * b1 d.qspiIrq)])
  | none => (d.qspiError, [])

/-- A BAR0 request that a PCIe function serves: at most 64 bytes, within 64 aligned ones (R391). -/
def bar0Served (off len : Nat) : Bool := decide (off % 64 + len ≤ 64)

/-- A write request of a PCIe function carries more than the maximum payload size (R390). -/
def tooLarge (m : Master) (len : Nat) : Bool := (fnOfId (masterId m)).isSome && decide (256 < len)

/-- REGISTER_WRITE: a write request of a master, of any length (R9, R390, R391, R393, R394). -/
def execRegisterWrite (m : Master) (space : Space) (off : BitVec 28) (first : Byte) (rest : List Byte) (s : State) :
    Host.Outcome State Fault Refusal :=
  onMain (fun d =>
    let data := first :: rest
    if d.asleep m then d.unsupported m
    else if tooLarge m data.length then d.malformed m
    else if masterId m = 0x10 then d.qspiWrite space off.toNat data
    else if (fnOfId (masterId m)).isSome && space == .bar0 && !bar0Served off.toNat data.length then d.unsupported m
    else d.writeSpace m space off.toNat data) s

/-- A read request of a PCIe function: its bytes, or none where it completes with Unsupported Request, because the function is
in D3hot, the request is of more than 512 bytes, or a BAR0 request breaks the limits of R391 (R390, R391, R392). -/
def Dev.pcieRead (d : Dev) (m : Master) (space : Space) (off len : Nat) : Dev × Option (List Byte) :=
  if d.asleep m || decide (512 < len) || (space == .bar0 && !bar0Served off len) then (d.unsupported m, none)
  else
    let q := d.readSpace m space off len
    (q.1, some q.2)

/-- A read through a host port: the bytes of a PCIe read request, or those that a QSPI read answers. -/
def Dev.portRead (d : Dev) (m : Master) (space : Space) (off len : Nat) : Dev × Option (List Byte) :=
  if masterId m = 0x10 then
    let q := d.qspiRead space off len
    (q.1, some q.2)
  else d.pcieRead m space off len

/-! ### Identity of the PCIe functions (R390, R482) -/

/-- What the PCIe endpoint supports, as R390's table has it. -/
structure PcieCaps where
  functions : Nat
  lanes : Nat
  rate : Nat
  maxPayload : Nat
  maxRead : Nat
  vectors : Nat
  aer : Bool
  flr : Bool
  d3hot : Bool
  aspm : Bool
  intx : Bool
  msi : Bool
  srIov : Bool
  deriving DecidableEq, Repr

/-- R390's table. -/
def pcieCaps : PcieCaps :=
  { functions := 2, lanes := 2, rate := 2, maxPayload := 256, maxRead := 512, vectors := 16, aer := true, flr := true
    d3hot := true, aspm := false, intx := false, msi := false, srIov := false }

/-- What a base address register at a header offset answers once all ones have been written to it, in the form of the PCI
Express Base Specification: BAR0 of 16 MiB, 32-bit and not prefetchable; BAR2 of 64 MiB, 64-bit and prefetchable; no other BAR
and no expansion ROM (R390, note 183). -/
def pcieBarProbe (off : Nat) : Option Word :=
  match off with
  | 0x10 => some 0xFF000000
  | 0x18 => some 0xFC00000C
  | 0x1C => some 0xFFFFFFFF
  | 0x14 | 0x20 | 0x24 | 0x30 => some 0
  | _ => none

/-- The device ID of a part (R390). -/
def deviceId : Part → Nat
  | .t9256 => 0x9256 | .t9128 => 0x9128

/-- The fused vendor ID, which is the subsystem vendor ID too (R390, R482). -/
def vendorId : Nat := 0x1F7A

/-- The words of a function's configuration header that the spec gives, in the places of the PCI Express Base Specification that
R390 follows: the device and vendor IDs, the class code above a revision that no rule states, and the subsystem ID, which
equals the device ID, with the subsystem vendor ID (R482). Both functions have the same (R390). -/
def Dev.pcieHeader (d : Dev) (off : Nat) : Option Word :=
  if off = 0x00 ∨ off = 0x2C then some (pack [(16, deviceId d.part), (0, vendorId)])
  else if off = 0x08 then some (pack [(8, 0x118000), (0, Config.pcieRevision.toNat)])
  else none

end Sys2Proof.Machine
end

