-- ==== Sys2Proof/Machine/Dispatch.lean ====
section
/-!
DEFINITION. One arm for each command of the table: the meaning it has, called once.
-/

namespace Sys2Proof.Machine

/-- The effect of a command on everything but the queue. -/
def exec (i : Instr) (s : State) : Host.Outcome State Fault Refusal :=
  match i with
  | .nop r => Sys2Proof.Machine.execNop r s
  | .info r => Sys2Proof.Machine.execInfo r s
  | .query r => Sys2Proof.Machine.execQuery r s
  | .severity r => Sys2Proof.Machine.execSeverity r s
  | .stopTh r => Sys2Proof.Machine.execStopTh r s
  | .thermal r => Sys2Proof.Machine.execThermal r s
  | .cutMatrix r => Sys2Proof.Machine.execCutMatrix r s
  | .cutGroup r => Sys2Proof.Machine.execCutGroup r s
  | .cut r => Sys2Proof.Machine.execCut r s
  | .cutRelease r => Sys2Proof.Machine.execCutRelease r s
  | .port r => Sys2Proof.Machine.execPort r s
  | .deviceReset r => Sys2Proof.Machine.execDeviceReset r s
  | .mapLoad r => Sys2Proof.Machine.execMapLoad r s
  | .mapRead r => Sys2Proof.Machine.execMapRead r s
  | .sectionStatus r => Sys2Proof.Machine.execSectionStatus r s
  | .encoder r => Sys2Proof.Machine.execEncoder r s
  | .strand r => Sys2Proof.Machine.execStrand r s
  | .auxOut r => Sys2Proof.Machine.execAuxOut r s
  | .returnCell r => Sys2Proof.Machine.execReturnCell r s
  | .deepRest r => Sys2Proof.Machine.execDeepRest r s
  | .wake r => Sys2Proof.Machine.execWake r s
  | .endpointCmd r => Sys2Proof.Machine.execEndpointCmd r s
  | .bulkRing r => Sys2Proof.Machine.execBulkRing r s
  | .recipeLoad r => Sys2Proof.Machine.execRecipeLoad r s
  | .chanStage r => Sys2Proof.Machine.execChanStage r s
  | .localOffset r => Sys2Proof.Machine.execLocalOffset r s
  | .scale r => Sys2Proof.Machine.execScale r s
  | .dlTimeout r => Sys2Proof.Machine.execDlTimeout r s
  | .target r => Sys2Proof.Machine.execTarget r s
  | .report r => Sys2Proof.Machine.execReport r s
  | .trim r => Sys2Proof.Machine.execTrim r s
  | .trimPair r => Sys2Proof.Machine.execTrimPair r s
  | .trimStage r => Sys2Proof.Machine.execTrimStage r s
  | .trimDriver r => Sys2Proof.Machine.execTrimDriver r s
  | .lockoutClear r => Sys2Proof.Machine.execLockoutClear r s
  | .coefWrite r => Sys2Proof.Machine.execCoefWrite r s
  | .coefRead r => Sys2Proof.Machine.execCoefRead r s
  | .openClose r => Sys2Proof.Machine.execOpenClose r s
  | .hold r => Sys2Proof.Machine.execHold r s
  | .flagClear r => Sys2Proof.Machine.execFlagClear r s
  | .coefStage r => Sys2Proof.Machine.execCoefStage r s
  | .allocStage r => Sys2Proof.Machine.execAllocStage r s
  | .plyStart r => Sys2Proof.Machine.execPlyStart r s
  | .claimStart r => Sys2Proof.Machine.execClaimStart r s
  | .refereeTick r => Sys2Proof.Machine.execRefereeTick r s
  | .refereeStart r => Sys2Proof.Machine.execRefereeStart r s
  | .meterParam r => Sys2Proof.Machine.execMeterParam r s
  | .pulseIn r => Sys2Proof.Machine.execPulseIn r s
  | .pulseOut r => Sys2Proof.Machine.execPulseOut r s
  | .meterClear r => Sys2Proof.Machine.execMeterClear r s
  | .adc r => Sys2Proof.Machine.execAdc r s
  | .adcUrgent r => Sys2Proof.Machine.execAdcUrgent r s
  | .adcCal r => Sys2Proof.Machine.execAdcCal r s
  | .adcCoef r => Sys2Proof.Machine.execAdcCoef r s
  | .safetyLoad r => Sys2Proof.Machine.execSafetyLoad r s
  | .safetyConfirm r => Sys2Proof.Machine.execSafetyConfirm r s
  | .zoneRequest r => Sys2Proof.Machine.execZoneRequest r s
  | .resetArm r => Sys2Proof.Machine.execResetArm r s
  | .safetyStatus r => Sys2Proof.Machine.execSafetyStatus r s
  | .arm r => Sys2Proof.Machine.execArm r s
  | .abort r => Sys2Proof.Machine.execAbort r s
  | .tickConfig r => Sys2Proof.Machine.execTickConfig r s
  | .warpLoad r => Sys2Proof.Machine.execWarpLoad r s
  | .seqStart r => Sys2Proof.Machine.execSeqStart r s
  | .unstage r => Sys2Proof.Machine.execUnstage r s
  | .tbSet r => Sys2Proof.Machine.execTbSet r s
  | .tbStep r => Sys2Proof.Machine.execTbStep r s
  | .tbSlew r => Sys2Proof.Machine.execTbSlew r s
  | .tbRate r => Sys2Proof.Machine.execTbRate r s
  | .tbState r => Sys2Proof.Machine.execTbState r s
  | .tbHoldLimit r => Sys2Proof.Machine.execTbHoldLimit r s
  | .tb2Lane r => Sys2Proof.Machine.execTb2Lane r s
  | .ptp r => Sys2Proof.Machine.execPtp r s
  | .frameSend r => Sys2Proof.Machine.execFrameSend r s
  | .testMode r => Sys2Proof.Machine.execTestMode r s
  | .loopback r => Sys2Proof.Machine.execLoopback r s
  | .inject r => Sys2Proof.Machine.execInject r s
  | .capture r => Sys2Proof.Machine.execCapture r s
  | .telemetry r => Sys2Proof.Machine.execTelemetry r s
  | .fwStage r => Sys2Proof.Machine.execFwStage r s
  | .fwActivate r => Sys2Proof.Machine.execFwActivate r s
  | .longRunningComplete slot => Sys2Proof.Machine.execLongRunningComplete slot s
  | .tickLoRead m => Sys2Proof.Machine.execTickLoRead m s
  | .cutFire m v => Sys2Proof.Machine.execCutFire m v s
  | .statusClear m w v => Sys2Proof.Machine.execStatusClear m w v s
  | .hankAck m v => Sys2Proof.Machine.execHankAck m v s
  | .feValidClear m v => Sys2Proof.Machine.execFeValidClear m v s
  | .snapReq m v => Sys2Proof.Machine.execSnapReq m v s
  | .tbSnapReq m v => Sys2Proof.Machine.execTbSnapReq m v s
  | .tbRecordRead m n => Sys2Proof.Machine.execTbRecordRead m n s
  | .entry0Read m p => Sys2Proof.Machine.execEntry0Read m p s
  | .entry3Read m p => Sys2Proof.Machine.execEntry3Read m p s
  | .bufferLockRead m c n => Sys2Proof.Machine.execBufferLockRead m c n s
  | .bufferReleaseRead m c n word => Sys2Proof.Machine.execBufferReleaseRead m c n word s
  | .lockedForceRelease m c half v => Sys2Proof.Machine.execLockedForceRelease m c half v s
  | .rxqRelease m c f v => Sys2Proof.Machine.execRxqRelease m c f v s
  | .txPush m c v => Sys2Proof.Machine.execTxPush m c v s
  | .txFlush m c v => Sys2Proof.Machine.execTxFlush m c v s
  | .configSet m c v => Sys2Proof.Machine.execConfigSet m c v s
  | .configClear m c v => Sys2Proof.Machine.execConfigClear m c v s
  | .busIntegration c => Sys2Proof.Machine.execBusIntegration c s
  | .goPost m ch => Sys2Proof.Machine.execGoPost m ch s
  | .goWithdraw m ch => Sys2Proof.Machine.execGoWithdraw m ch s
  | .pick m ch => Sys2Proof.Machine.execPick m ch s
  | .land m ch => Sys2Proof.Machine.execLand m ch s
  | .doneSet m ch => Sys2Proof.Machine.execDoneSet m ch s
  | .bindLock m => Sys2Proof.Machine.execBindLock m s
  | .fwdDataPush m ch v => Sys2Proof.Machine.execFwdDataPush m ch v s
  | .fwdDataPop m ch => Sys2Proof.Machine.execFwdDataPop m ch s
  | .backDataPush m ch v => Sys2Proof.Machine.execBackDataPush m ch v s
  | .backDataPop m ch => Sys2Proof.Machine.execBackDataPop m ch s
  | .intCauseClear m v => Sys2Proof.Machine.execIntCauseClear m v s
  | .qspiStatus => Sys2Proof.Machine.execQspiStatus s
  | .registerWrite m space off first rest => Sys2Proof.Machine.execRegisterWrite m space off first rest s
  | .vaonPowerOn => Sys2Proof.Machine.execVaonPowerOn s
  | .vsafePowerOn => Sys2Proof.Machine.execVsafePowerOn s
  | .islandSelfTest pass => Sys2Proof.Machine.execIslandSelfTest pass s
  | .supplyOutOfRange dom => Sys2Proof.Machine.execSupplyOutOfRange dom s
  | .supplyDomainOn dom => Sys2Proof.Machine.execSupplyDomainOn dom s
  | .supplyDomainOff dom => Sys2Proof.Machine.execSupplyDomainOff dom s
  | .resetN => Sys2Proof.Machine.execResetN s
  | .resetRelease role recoveryLow vmemHeld => Sys2Proof.Machine.execResetRelease role recoveryLow vmemHeld s
  | .collapse cause => Sys2Proof.Machine.execCollapse cause s
  | .firmwareWatchdogReset => Sys2Proof.Machine.execFirmwareWatchdogReset s
  | .perstN => Sys2Proof.Machine.execPerstN s
  | .functionLevelReset f => Sys2Proof.Machine.execFunctionLevelReset f s
  | .pcieLinkDown => Sys2Proof.Machine.execPcieLinkDown s
  | .firmwareStart => Sys2Proof.Machine.execFirmwareStart s
  | .cutIn => Sys2Proof.Machine.execCutIn s
  | .plyCutIn => Sys2Proof.Machine.execPlyCutIn s
  | .cutSymbols k => Sys2Proof.Machine.execCutSymbols k s
  | .strandSourceEnd k => Sys2Proof.Machine.execStrandSourceEnd k s
  | .shortTrip first others => Sys2Proof.Machine.execShortTrip first others s
  | .stuck n highWaiting => Sys2Proof.Machine.execStuck n highWaiting s
  | .bstUv n => Sys2Proof.Machine.execBstUv n s
  | .bstUvRelease n => Sys2Proof.Machine.execBstUvRelease n s
  | .prechargeEnd n => Sys2Proof.Machine.execPrechargeEnd n s
  | .maskApply e => Sys2Proof.Machine.execMaskApply e s
  | .trimEvt pin falling => Sys2Proof.Machine.execTrimEvt pin falling s
  | .grant => Sys2Proof.Machine.execGrant s
  | .resync => Sys2Proof.Machine.execResync s
  | .claim => Sys2Proof.Machine.execClaim s
  | .yieldClaim => Sys2Proof.Machine.execYieldClaim s
  | .trimOwnershipTake => Sys2Proof.Machine.execTrimOwnershipTake s
  | .ownershipWait => Sys2Proof.Machine.execOwnershipWait s
  | .plyJoin => Sys2Proof.Machine.execPlyJoin s
  | .xferEnd crcOk => Sys2Proof.Machine.execXferEnd crcOk s
  | .xferTimeout => Sys2Proof.Machine.execXferTimeout s
  | .xferUnit left u => Sys2Proof.Machine.execXferUnit left u s
  | .comparedTicksDone => Sys2Proof.Machine.execComparedTicksDone s
  | .plyLinkLock => Sys2Proof.Machine.execPlyLinkLock s
  | .plyLinkAlign => Sys2Proof.Machine.execPlyLinkAlign s
  | .plyLinkError => Sys2Proof.Machine.execPlyLinkError s
  | .plyLinkRestart => Sys2Proof.Machine.execPlyLinkRestart s
  | .hello h => Sys2Proof.Machine.execHello h s
  | .helloTimer => Sys2Proof.Machine.execHelloTimer s
  | .helloAbsent => Sys2Proof.Machine.execHelloAbsent s
  | .plyUnit u => Sys2Proof.Machine.execPlyUnit u s
  | .imageDeadline => Sys2Proof.Machine.execImageDeadline s
  | .aliveEdge mem => Sys2Proof.Machine.execAliveEdge mem s
  | .healthReportReceived mem w0 w1 w2 w3 => Sys2Proof.Machine.execHealthReportReceived mem w0 w1 w2 w3 s
  | .aliveOkLost mem => Sys2Proof.Machine.execAliveOkLost mem s
  | .reportOkLost mem => Sys2Proof.Machine.execReportOkLost mem s
  | .tickSyncIn fine => Sys2Proof.Machine.execTickSyncIn fine s
  | .refLost => Sys2Proof.Machine.execRefLost s
  | .refValid errA errB => Sys2Proof.Machine.execRefValid errA errB s
  | .pllLocked p => Sys2Proof.Machine.execPllLocked p s
  | .lockClear p => Sys2Proof.Machine.execLockClear p s
  | .acquireTimeout p => Sys2Proof.Machine.execAcquireTimeout p s
  | .holdLimitExpiry n => Sys2Proof.Machine.execHoldLimitExpiry n s
  | .receiverDetection k seen => Sys2Proof.Machine.execReceiverDetection k seen s
  | .bitLock k => Sys2Proof.Machine.execBitLock k s
  | .trainTimeout k => Sys2Proof.Machine.execTrainTimeout k s
  | .symbolLock k => Sys2Proof.Machine.execSymbolLock k s
  | .lockTimeout k => Sys2Proof.Machine.execLockTimeout k s
  | .capabilityFrame k w0 w1 w2 w3 e => Sys2Proof.Machine.execCapabilityFrame k w0 w1 w2 w3 e s
  | .capsTimeout k => Sys2Proof.Machine.execCapsTimeout k s
  | .symbolLockLost k => Sys2Proof.Machine.execSymbolLockLost k s
  | .deepSymbols k => Sys2Proof.Machine.execDeepSymbols k s
  | .clusterPllUnlock k => Sys2Proof.Machine.execClusterPllUnlock k s
  | .clusterPllLock k => Sys2Proof.Machine.execClusterPllLock k s
  | .uplinkFrame k f => Sys2Proof.Machine.execUplinkFrame k f s
  | .restEntry k => Sys2Proof.Machine.execRestEntry k s
  | .restExit k => Sys2Proof.Machine.execRestExit k s
  | .ethLinkUp p => Sys2Proof.Machine.execEthLinkUp p s
  | .ethLinkDown p => Sys2Proof.Machine.execEthLinkDown p s
  | .frameReceive p f => Sys2Proof.Machine.execFrameReceive p f s
  | .coordinationFrame p f => Sys2Proof.Machine.execCoordinationFrame p f s
  | .ptpServoHoldover n => Sys2Proof.Machine.execPtpServoHoldover n s
  | .launch p => Sys2Proof.Machine.execLaunch p s
  | .lpiEntry p => Sys2Proof.Machine.execLpiEntry p s
  | .epochReport cause => Sys2Proof.Machine.execEpochReport cause s
  | .canFrameReceived c f => Sys2Proof.Machine.execCanFrameReceived c f s
  | .attemptEnd c a => Sys2Proof.Machine.execAttemptEnd c a s
  | .busOffRecovery c => Sys2Proof.Machine.execBusOffRecovery c s
  | .tickBoundary b => Sys2Proof.Machine.execTickBoundary b s
  | .tickPeriodEnd => Sys2Proof.Machine.execTickPeriodEnd s
  | .firstBoundary b => Sys2Proof.Machine.execFirstBoundary b s
  | .fbTimeExpiry => Sys2Proof.Machine.execFbTimeExpiry s
  | .preTimeout => Sys2Proof.Machine.execPreTimeout s
  | .syncTimeout => Sys2Proof.Machine.execSyncTimeout s
  | .feedbackDisagree => Sys2Proof.Machine.execFeedbackDisagree s
  | .guardWindow g => Sys2Proof.Machine.execGuardWindow g s
  | .intakeEntry x => Sys2Proof.Machine.execIntakeEntry x s
  | .spinEntry x fault => Sys2Proof.Machine.execSpinEntry x fault s
  | .allocEntry x => Sys2Proof.Machine.execAllocEntry x s
  | .meterEntry x => Sys2Proof.Machine.execMeterEntry x s
  | .deliverEntry x => Sys2Proof.Machine.execDeliverEntry x s
  | .copyEntry x => Sys2Proof.Machine.execCopyEntry x s
  | .xdieEntry x => Sys2Proof.Machine.execXdieEntry x s
  | .captureEntry x => Sys2Proof.Machine.execCaptureEntry x s
  | .mirrorEntry x => Sys2Proof.Machine.execMirrorEntry x s
  | .tickOverrun x => Sys2Proof.Machine.execTickOverrun x s
  | .recipeStep delivered => Sys2Proof.Machine.execRecipeStep delivered s
  | .thermalStepTick => Sys2Proof.Machine.execThermalStepTick s
  | .sensorSample readings => Sys2Proof.Machine.execSensorSample readings s
  | .islandCycle x => Sys2Proof.Machine.execIslandCycle x s
  | .soloExpired => Sys2Proof.Machine.execSoloExpired s
  | .testPulse tp l => Sys2Proof.Machine.execTestPulse tp l s
  | .outputTest n lowSide pass => Sys2Proof.Machine.execOutputTest n lowSide pass s
  | .pendingDrop => Sys2Proof.Machine.execPendingDrop s
  | .armedExpiry z => Sys2Proof.Machine.execArmedExpiry z s
  | .meterImageLatch => Sys2Proof.Machine.execMeterImageLatch s
  | .imageWriteDone ok => Sys2Proof.Machine.execImageWriteDone ok s
  | .pulseInputChange x active => Sys2Proof.Machine.execPulseInputChange x active s
  | .pulseInputStuck x => Sys2Proof.Machine.execPulseInputStuck x s
  | .overRateWindow => Sys2Proof.Machine.execOverRateWindow s
  | .pulseOutputStart j => Sys2Proof.Machine.execPulseOutputStart j s
  | .conversionEnd c raw => Sys2Proof.Machine.execConversionEnd c raw s
  | .hankEntry => Sys2Proof.Machine.execHankEntry s
  | .cutInDeassert => Sys2Proof.Machine.execCutInDeassert s
  | .plyCutInDeassert => Sys2Proof.Machine.execPlyCutInDeassert s
  | .trimPeriodEnd n => Sys2Proof.Machine.execTrimPeriodEnd n s
  | .trimDutyEnd n => Sys2Proof.Machine.execTrimDutyEnd n s
  | .oppositeGateFall n high => Sys2Proof.Machine.execOppositeGateFall n high s
  | .returnSlewEnd p => Sys2Proof.Machine.execReturnSlewEnd p s
  | .pulseOutputEnd j => Sys2Proof.Machine.execPulseOutputEnd j s
  | .oddConversionStart pair => Sys2Proof.Machine.execOddConversionStart pair s
  | .canReceiveError c e dataPhase => Sys2Proof.Machine.execCanReceiveError c e dataPhase s
  | .telemetrySend => Sys2Proof.Machine.execTelemetrySend s
  | .watchdogExpiry => Sys2Proof.Machine.execWatchdogExpiry s
  | .lockstepMismatch pc => Sys2Proof.Machine.execLockstepMismatch pc s
  | .closeRecordWritten => Sys2Proof.Machine.execCloseRecordWritten s
  | .vsafeLoss => Sys2Proof.Machine.execVsafeLoss s
  | .powerStateChange f d3hot => Sys2Proof.Machine.execPowerStateChange f d3hot s
  | .qspiProtocolError => Sys2Proof.Machine.execQspiProtocolError s
  | .prbsCheckerLock cls lane => Sys2Proof.Machine.execPrbsCheckerLock cls lane s
  | .prbsCheckerLockLost cls lane => Sys2Proof.Machine.execPrbsCheckerLockLost cls lane s
  | .grantHoldoffExpiry => Sys2Proof.Machine.execGrantHoldoffExpiry s

end Sys2Proof.Machine
end

