-- ==== Sys2Proof/Machine/Idle.lean ====
section
/-!
DEFINITION. What an empty queue means: one core cycle passes (note 1).
-/

namespace Sys2Proof.Machine

/-- One core cycle with no command: the clock and the time bases advance, and coordination replies whose time has come
leave; nothing while the main logic is held in reset. -/
def Dev.idleCycle (d : Dev) : Dev := if d.pwr.held then d else (d.advance 1).flushReplies

end Sys2Proof.Machine
end

