-- ==== Sys2Proof/Laws/State.lean ====
section
/-!
SUPPORT. One lemma for each field and each named update of the device: what the update leaves alone.
-/

namespace Sys2Proof.Machine

/-! ### modStrand -/

@[simp] theorem Dev.modStrand_part (d : Dev) (k : Nat) (f : Strand → Strand) : (d.modStrand k f).part = d.part := rfl
@[simp] theorem Dev.modStrand_now (d : Dev) (k : Nat) (f : Strand → Strand) : (d.modStrand k f).now = d.now := rfl
@[simp] theorem Dev.modStrand_fresh (d : Dev) (k : Nat) (f : Strand → Strand) : (d.modStrand k f).fresh = d.fresh := rfl
@[simp] theorem Dev.modStrand_host (d : Dev) (k : Nat) (f : Strand → Strand) : (d.modStrand k f).host = d.host := rfl
@[simp] theorem Dev.modStrand_tk (d : Dev) (k : Nat) (f : Strand → Strand) : (d.modStrand k f).tk = d.tk := rfl
@[simp] theorem Dev.modStrand_landing (d : Dev) (k : Nat) (f : Strand → Strand) : (d.modStrand k f).landing = d.landing := rfl
@[simp] theorem Dev.modStrand_spin (d : Dev) (k : Nat) (f : Strand → Strand) : (d.modStrand k f).spin = d.spin := rfl
@[simp] theorem Dev.modStrand_recipes (d : Dev) (k : Nat) (f : Strand → Strand) : (d.modStrand k f).recipes = d.recipes := rfl
@[simp] theorem Dev.modStrand_secs (d : Dev) (k : Nat) (f : Strand → Strand) : (d.modStrand k f).secs = d.secs := rfl
@[simp] theorem Dev.modStrand_mapForce (d : Dev) (k : Nat) (f : Strand → Strand) : (d.modStrand k f).mapForce = d.mapForce := rfl
@[simp] theorem Dev.modStrand_mapStaged (d : Dev) (k : Nat) (f : Strand → Strand) : (d.modStrand k f).mapStaged = d.mapStaged := rfl
@[simp] theorem Dev.modStrand_skeins (d : Dev) (k : Nat) (f : Strand → Strand) : (d.modStrand k f).skeins = d.skeins := rfl
@[simp] theorem Dev.modStrand_cells (d : Dev) (k : Nat) (f : Strand → Strand) : (d.modStrand k f).cells = d.cells := rfl
@[simp] theorem Dev.modStrand_trims (d : Dev) (k : Nat) (f : Strand → Strand) : (d.modStrand k f).trims = d.trims := rfl
@[simp] theorem Dev.modStrand_cut (d : Dev) (k : Nat) (f : Strand → Strand) : (d.modStrand k f).cut = d.cut := rfl
@[simp] theorem Dev.modStrand_ply (d : Dev) (k : Nat) (f : Strand → Strand) : (d.modStrand k f).ply = d.ply := rfl
@[simp] theorem Dev.modStrand_ref (d : Dev) (k : Nat) (f : Strand → Strand) : (d.modStrand k f).ref = d.ref := rfl
@[simp] theorem Dev.modStrand_flt (d : Dev) (k : Nat) (f : Strand → Strand) : (d.modStrand k f).flt = d.flt := rfl
@[simp] theorem Dev.modStrand_isl (d : Dev) (k : Nat) (f : Strand → Strand) : (d.modStrand k f).isl = d.isl := rfl
@[simp] theorem Dev.modStrand_therm (d : Dev) (k : Nat) (f : Strand → Strand) : (d.modStrand k f).therm = d.therm := rfl
@[simp] theorem Dev.modStrand_meter (d : Dev) (k : Nat) (f : Strand → Strand) : (d.modStrand k f).meter = d.meter := rfl
@[simp] theorem Dev.modStrand_fram (d : Dev) (k : Nat) (f : Strand → Strand) : (d.modStrand k f).fram = d.fram := rfl
@[simp] theorem Dev.modStrand_adcs (d : Dev) (k : Nat) (f : Strand → Strand) : (d.modStrand k f).adcs = d.adcs := rfl
@[simp] theorem Dev.modStrand_clk (d : Dev) (k : Nat) (f : Strand → Strand) : (d.modStrand k f).clk = d.clk := rfl
@[simp] theorem Dev.modStrand_eth (d : Dev) (k : Nat) (f : Strand → Strand) : (d.modStrand k f).eth = d.eth := rfl
@[simp] theorem Dev.modStrand_cans (d : Dev) (k : Nat) (f : Strand → Strand) : (d.modStrand k f).cans = d.cans := rfl
@[simp] theorem Dev.modStrand_pwr (d : Dev) (k : Nat) (f : Strand → Strand) : (d.modStrand k f).pwr = d.pwr := rfl
@[simp] theorem Dev.modStrand_flash (d : Dev) (k : Nat) (f : Strand → Strand) : (d.modStrand k f).flash = d.flash := rfl
@[simp] theorem Dev.modStrand_cfg (d : Dev) (k : Nat) (f : Strand → Strand) : (d.modStrand k f).cfg = d.cfg := rfl
@[simp] theorem Dev.modStrand_test (d : Dev) (k : Nat) (f : Strand → Strand) : (d.modStrand k f).test = d.test := rfl
@[simp] theorem Dev.modStrand_weft (d : Dev) (k : Nat) (f : Strand → Strand) : (d.modStrand k f).weft = d.weft := rfl
@[simp] theorem Dev.modStrand_bar2 (d : Dev) (k : Nat) (f : Strand → Strand) : (d.modStrand k f).bar2 = d.bar2 := rfl

/-! ### modSkein -/

@[simp] theorem Dev.modSkein_part (d : Dev) (k : Nat) (f : Skein → Skein) : (d.modSkein k f).part = d.part := rfl
@[simp] theorem Dev.modSkein_now (d : Dev) (k : Nat) (f : Skein → Skein) : (d.modSkein k f).now = d.now := rfl
@[simp] theorem Dev.modSkein_fresh (d : Dev) (k : Nat) (f : Skein → Skein) : (d.modSkein k f).fresh = d.fresh := rfl
@[simp] theorem Dev.modSkein_host (d : Dev) (k : Nat) (f : Skein → Skein) : (d.modSkein k f).host = d.host := rfl
@[simp] theorem Dev.modSkein_tk (d : Dev) (k : Nat) (f : Skein → Skein) : (d.modSkein k f).tk = d.tk := rfl
@[simp] theorem Dev.modSkein_landing (d : Dev) (k : Nat) (f : Skein → Skein) : (d.modSkein k f).landing = d.landing := rfl
@[simp] theorem Dev.modSkein_spin (d : Dev) (k : Nat) (f : Skein → Skein) : (d.modSkein k f).spin = d.spin := rfl
@[simp] theorem Dev.modSkein_recipes (d : Dev) (k : Nat) (f : Skein → Skein) : (d.modSkein k f).recipes = d.recipes := rfl
@[simp] theorem Dev.modSkein_secs (d : Dev) (k : Nat) (f : Skein → Skein) : (d.modSkein k f).secs = d.secs := rfl
@[simp] theorem Dev.modSkein_mapForce (d : Dev) (k : Nat) (f : Skein → Skein) : (d.modSkein k f).mapForce = d.mapForce := rfl
@[simp] theorem Dev.modSkein_mapStaged (d : Dev) (k : Nat) (f : Skein → Skein) : (d.modSkein k f).mapStaged = d.mapStaged := rfl
@[simp] theorem Dev.modSkein_strands (d : Dev) (k : Nat) (f : Skein → Skein) : (d.modSkein k f).strands = d.strands := rfl
@[simp] theorem Dev.modSkein_cells (d : Dev) (k : Nat) (f : Skein → Skein) : (d.modSkein k f).cells = d.cells := rfl
@[simp] theorem Dev.modSkein_trims (d : Dev) (k : Nat) (f : Skein → Skein) : (d.modSkein k f).trims = d.trims := rfl
@[simp] theorem Dev.modSkein_cut (d : Dev) (k : Nat) (f : Skein → Skein) : (d.modSkein k f).cut = d.cut := rfl
@[simp] theorem Dev.modSkein_ply (d : Dev) (k : Nat) (f : Skein → Skein) : (d.modSkein k f).ply = d.ply := rfl
@[simp] theorem Dev.modSkein_ref (d : Dev) (k : Nat) (f : Skein → Skein) : (d.modSkein k f).ref = d.ref := rfl
@[simp] theorem Dev.modSkein_flt (d : Dev) (k : Nat) (f : Skein → Skein) : (d.modSkein k f).flt = d.flt := rfl
@[simp] theorem Dev.modSkein_isl (d : Dev) (k : Nat) (f : Skein → Skein) : (d.modSkein k f).isl = d.isl := rfl
@[simp] theorem Dev.modSkein_therm (d : Dev) (k : Nat) (f : Skein → Skein) : (d.modSkein k f).therm = d.therm := rfl
@[simp] theorem Dev.modSkein_meter (d : Dev) (k : Nat) (f : Skein → Skein) : (d.modSkein k f).meter = d.meter := rfl
@[simp] theorem Dev.modSkein_fram (d : Dev) (k : Nat) (f : Skein → Skein) : (d.modSkein k f).fram = d.fram := rfl
@[simp] theorem Dev.modSkein_adcs (d : Dev) (k : Nat) (f : Skein → Skein) : (d.modSkein k f).adcs = d.adcs := rfl
@[simp] theorem Dev.modSkein_clk (d : Dev) (k : Nat) (f : Skein → Skein) : (d.modSkein k f).clk = d.clk := rfl
@[simp] theorem Dev.modSkein_eth (d : Dev) (k : Nat) (f : Skein → Skein) : (d.modSkein k f).eth = d.eth := rfl
@[simp] theorem Dev.modSkein_cans (d : Dev) (k : Nat) (f : Skein → Skein) : (d.modSkein k f).cans = d.cans := rfl
@[simp] theorem Dev.modSkein_pwr (d : Dev) (k : Nat) (f : Skein → Skein) : (d.modSkein k f).pwr = d.pwr := rfl
@[simp] theorem Dev.modSkein_flash (d : Dev) (k : Nat) (f : Skein → Skein) : (d.modSkein k f).flash = d.flash := rfl
@[simp] theorem Dev.modSkein_cfg (d : Dev) (k : Nat) (f : Skein → Skein) : (d.modSkein k f).cfg = d.cfg := rfl
@[simp] theorem Dev.modSkein_test (d : Dev) (k : Nat) (f : Skein → Skein) : (d.modSkein k f).test = d.test := rfl
@[simp] theorem Dev.modSkein_weft (d : Dev) (k : Nat) (f : Skein → Skein) : (d.modSkein k f).weft = d.weft := rfl
@[simp] theorem Dev.modSkein_bar2 (d : Dev) (k : Nat) (f : Skein → Skein) : (d.modSkein k f).bar2 = d.bar2 := rfl

/-! ### modCell -/

@[simp] theorem Dev.modCell_part (d : Dev) (k : Nat) (f : Cell → Cell) : (d.modCell k f).part = d.part := rfl
@[simp] theorem Dev.modCell_now (d : Dev) (k : Nat) (f : Cell → Cell) : (d.modCell k f).now = d.now := rfl
@[simp] theorem Dev.modCell_fresh (d : Dev) (k : Nat) (f : Cell → Cell) : (d.modCell k f).fresh = d.fresh := rfl
@[simp] theorem Dev.modCell_host (d : Dev) (k : Nat) (f : Cell → Cell) : (d.modCell k f).host = d.host := rfl
@[simp] theorem Dev.modCell_tk (d : Dev) (k : Nat) (f : Cell → Cell) : (d.modCell k f).tk = d.tk := rfl
@[simp] theorem Dev.modCell_landing (d : Dev) (k : Nat) (f : Cell → Cell) : (d.modCell k f).landing = d.landing := rfl
@[simp] theorem Dev.modCell_spin (d : Dev) (k : Nat) (f : Cell → Cell) : (d.modCell k f).spin = d.spin := rfl
@[simp] theorem Dev.modCell_recipes (d : Dev) (k : Nat) (f : Cell → Cell) : (d.modCell k f).recipes = d.recipes := rfl
@[simp] theorem Dev.modCell_secs (d : Dev) (k : Nat) (f : Cell → Cell) : (d.modCell k f).secs = d.secs := rfl
@[simp] theorem Dev.modCell_mapForce (d : Dev) (k : Nat) (f : Cell → Cell) : (d.modCell k f).mapForce = d.mapForce := rfl
@[simp] theorem Dev.modCell_mapStaged (d : Dev) (k : Nat) (f : Cell → Cell) : (d.modCell k f).mapStaged = d.mapStaged := rfl
@[simp] theorem Dev.modCell_strands (d : Dev) (k : Nat) (f : Cell → Cell) : (d.modCell k f).strands = d.strands := rfl
@[simp] theorem Dev.modCell_skeins (d : Dev) (k : Nat) (f : Cell → Cell) : (d.modCell k f).skeins = d.skeins := rfl
@[simp] theorem Dev.modCell_trims (d : Dev) (k : Nat) (f : Cell → Cell) : (d.modCell k f).trims = d.trims := rfl
@[simp] theorem Dev.modCell_cut (d : Dev) (k : Nat) (f : Cell → Cell) : (d.modCell k f).cut = d.cut := rfl
@[simp] theorem Dev.modCell_ply (d : Dev) (k : Nat) (f : Cell → Cell) : (d.modCell k f).ply = d.ply := rfl
@[simp] theorem Dev.modCell_ref (d : Dev) (k : Nat) (f : Cell → Cell) : (d.modCell k f).ref = d.ref := rfl
@[simp] theorem Dev.modCell_flt (d : Dev) (k : Nat) (f : Cell → Cell) : (d.modCell k f).flt = d.flt := rfl
@[simp] theorem Dev.modCell_isl (d : Dev) (k : Nat) (f : Cell → Cell) : (d.modCell k f).isl = d.isl := rfl
@[simp] theorem Dev.modCell_therm (d : Dev) (k : Nat) (f : Cell → Cell) : (d.modCell k f).therm = d.therm := rfl
@[simp] theorem Dev.modCell_meter (d : Dev) (k : Nat) (f : Cell → Cell) : (d.modCell k f).meter = d.meter := rfl
@[simp] theorem Dev.modCell_fram (d : Dev) (k : Nat) (f : Cell → Cell) : (d.modCell k f).fram = d.fram := rfl
@[simp] theorem Dev.modCell_adcs (d : Dev) (k : Nat) (f : Cell → Cell) : (d.modCell k f).adcs = d.adcs := rfl
@[simp] theorem Dev.modCell_clk (d : Dev) (k : Nat) (f : Cell → Cell) : (d.modCell k f).clk = d.clk := rfl
@[simp] theorem Dev.modCell_eth (d : Dev) (k : Nat) (f : Cell → Cell) : (d.modCell k f).eth = d.eth := rfl
@[simp] theorem Dev.modCell_cans (d : Dev) (k : Nat) (f : Cell → Cell) : (d.modCell k f).cans = d.cans := rfl
@[simp] theorem Dev.modCell_pwr (d : Dev) (k : Nat) (f : Cell → Cell) : (d.modCell k f).pwr = d.pwr := rfl
@[simp] theorem Dev.modCell_flash (d : Dev) (k : Nat) (f : Cell → Cell) : (d.modCell k f).flash = d.flash := rfl
@[simp] theorem Dev.modCell_cfg (d : Dev) (k : Nat) (f : Cell → Cell) : (d.modCell k f).cfg = d.cfg := rfl
@[simp] theorem Dev.modCell_test (d : Dev) (k : Nat) (f : Cell → Cell) : (d.modCell k f).test = d.test := rfl
@[simp] theorem Dev.modCell_weft (d : Dev) (k : Nat) (f : Cell → Cell) : (d.modCell k f).weft = d.weft := rfl
@[simp] theorem Dev.modCell_bar2 (d : Dev) (k : Nat) (f : Cell → Cell) : (d.modCell k f).bar2 = d.bar2 := rfl

/-! ### modTrim -/

@[simp] theorem Dev.modTrim_part (d : Dev) (k : Nat) (f : Trim → Trim) : (d.modTrim k f).part = d.part := rfl
@[simp] theorem Dev.modTrim_now (d : Dev) (k : Nat) (f : Trim → Trim) : (d.modTrim k f).now = d.now := rfl
@[simp] theorem Dev.modTrim_fresh (d : Dev) (k : Nat) (f : Trim → Trim) : (d.modTrim k f).fresh = d.fresh := rfl
@[simp] theorem Dev.modTrim_host (d : Dev) (k : Nat) (f : Trim → Trim) : (d.modTrim k f).host = d.host := rfl
@[simp] theorem Dev.modTrim_tk (d : Dev) (k : Nat) (f : Trim → Trim) : (d.modTrim k f).tk = d.tk := rfl
@[simp] theorem Dev.modTrim_landing (d : Dev) (k : Nat) (f : Trim → Trim) : (d.modTrim k f).landing = d.landing := rfl
@[simp] theorem Dev.modTrim_spin (d : Dev) (k : Nat) (f : Trim → Trim) : (d.modTrim k f).spin = d.spin := rfl
@[simp] theorem Dev.modTrim_recipes (d : Dev) (k : Nat) (f : Trim → Trim) : (d.modTrim k f).recipes = d.recipes := rfl
@[simp] theorem Dev.modTrim_secs (d : Dev) (k : Nat) (f : Trim → Trim) : (d.modTrim k f).secs = d.secs := rfl
@[simp] theorem Dev.modTrim_mapForce (d : Dev) (k : Nat) (f : Trim → Trim) : (d.modTrim k f).mapForce = d.mapForce := rfl
@[simp] theorem Dev.modTrim_mapStaged (d : Dev) (k : Nat) (f : Trim → Trim) : (d.modTrim k f).mapStaged = d.mapStaged := rfl
@[simp] theorem Dev.modTrim_strands (d : Dev) (k : Nat) (f : Trim → Trim) : (d.modTrim k f).strands = d.strands := rfl
@[simp] theorem Dev.modTrim_skeins (d : Dev) (k : Nat) (f : Trim → Trim) : (d.modTrim k f).skeins = d.skeins := rfl
@[simp] theorem Dev.modTrim_cells (d : Dev) (k : Nat) (f : Trim → Trim) : (d.modTrim k f).cells = d.cells := rfl
@[simp] theorem Dev.modTrim_cut (d : Dev) (k : Nat) (f : Trim → Trim) : (d.modTrim k f).cut = d.cut := rfl
@[simp] theorem Dev.modTrim_ply (d : Dev) (k : Nat) (f : Trim → Trim) : (d.modTrim k f).ply = d.ply := rfl
@[simp] theorem Dev.modTrim_ref (d : Dev) (k : Nat) (f : Trim → Trim) : (d.modTrim k f).ref = d.ref := rfl
@[simp] theorem Dev.modTrim_flt (d : Dev) (k : Nat) (f : Trim → Trim) : (d.modTrim k f).flt = d.flt := rfl
@[simp] theorem Dev.modTrim_isl (d : Dev) (k : Nat) (f : Trim → Trim) : (d.modTrim k f).isl = d.isl := rfl
@[simp] theorem Dev.modTrim_therm (d : Dev) (k : Nat) (f : Trim → Trim) : (d.modTrim k f).therm = d.therm := rfl
@[simp] theorem Dev.modTrim_meter (d : Dev) (k : Nat) (f : Trim → Trim) : (d.modTrim k f).meter = d.meter := rfl
@[simp] theorem Dev.modTrim_fram (d : Dev) (k : Nat) (f : Trim → Trim) : (d.modTrim k f).fram = d.fram := rfl
@[simp] theorem Dev.modTrim_adcs (d : Dev) (k : Nat) (f : Trim → Trim) : (d.modTrim k f).adcs = d.adcs := rfl
@[simp] theorem Dev.modTrim_clk (d : Dev) (k : Nat) (f : Trim → Trim) : (d.modTrim k f).clk = d.clk := rfl
@[simp] theorem Dev.modTrim_eth (d : Dev) (k : Nat) (f : Trim → Trim) : (d.modTrim k f).eth = d.eth := rfl
@[simp] theorem Dev.modTrim_cans (d : Dev) (k : Nat) (f : Trim → Trim) : (d.modTrim k f).cans = d.cans := rfl
@[simp] theorem Dev.modTrim_pwr (d : Dev) (k : Nat) (f : Trim → Trim) : (d.modTrim k f).pwr = d.pwr := rfl
@[simp] theorem Dev.modTrim_flash (d : Dev) (k : Nat) (f : Trim → Trim) : (d.modTrim k f).flash = d.flash := rfl
@[simp] theorem Dev.modTrim_cfg (d : Dev) (k : Nat) (f : Trim → Trim) : (d.modTrim k f).cfg = d.cfg := rfl
@[simp] theorem Dev.modTrim_test (d : Dev) (k : Nat) (f : Trim → Trim) : (d.modTrim k f).test = d.test := rfl
@[simp] theorem Dev.modTrim_weft (d : Dev) (k : Nat) (f : Trim → Trim) : (d.modTrim k f).weft = d.weft := rfl
@[simp] theorem Dev.modTrim_bar2 (d : Dev) (k : Nat) (f : Trim → Trim) : (d.modTrim k f).bar2 = d.bar2 := rfl

/-! ### modSec -/

@[simp] theorem Dev.modSec_part (d : Dev) (k : Nat) (f : Section → Section) : (d.modSec k f).part = d.part := rfl
@[simp] theorem Dev.modSec_now (d : Dev) (k : Nat) (f : Section → Section) : (d.modSec k f).now = d.now := rfl
@[simp] theorem Dev.modSec_fresh (d : Dev) (k : Nat) (f : Section → Section) : (d.modSec k f).fresh = d.fresh := rfl
@[simp] theorem Dev.modSec_host (d : Dev) (k : Nat) (f : Section → Section) : (d.modSec k f).host = d.host := rfl
@[simp] theorem Dev.modSec_tk (d : Dev) (k : Nat) (f : Section → Section) : (d.modSec k f).tk = d.tk := rfl
@[simp] theorem Dev.modSec_landing (d : Dev) (k : Nat) (f : Section → Section) : (d.modSec k f).landing = d.landing := rfl
@[simp] theorem Dev.modSec_spin (d : Dev) (k : Nat) (f : Section → Section) : (d.modSec k f).spin = d.spin := rfl
@[simp] theorem Dev.modSec_recipes (d : Dev) (k : Nat) (f : Section → Section) : (d.modSec k f).recipes = d.recipes := rfl
@[simp] theorem Dev.modSec_mapForce (d : Dev) (k : Nat) (f : Section → Section) : (d.modSec k f).mapForce = d.mapForce := rfl
@[simp] theorem Dev.modSec_mapStaged (d : Dev) (k : Nat) (f : Section → Section) : (d.modSec k f).mapStaged = d.mapStaged := rfl
@[simp] theorem Dev.modSec_strands (d : Dev) (k : Nat) (f : Section → Section) : (d.modSec k f).strands = d.strands := rfl
@[simp] theorem Dev.modSec_skeins (d : Dev) (k : Nat) (f : Section → Section) : (d.modSec k f).skeins = d.skeins := rfl
@[simp] theorem Dev.modSec_cells (d : Dev) (k : Nat) (f : Section → Section) : (d.modSec k f).cells = d.cells := rfl
@[simp] theorem Dev.modSec_trims (d : Dev) (k : Nat) (f : Section → Section) : (d.modSec k f).trims = d.trims := rfl
@[simp] theorem Dev.modSec_cut (d : Dev) (k : Nat) (f : Section → Section) : (d.modSec k f).cut = d.cut := rfl
@[simp] theorem Dev.modSec_ply (d : Dev) (k : Nat) (f : Section → Section) : (d.modSec k f).ply = d.ply := rfl
@[simp] theorem Dev.modSec_ref (d : Dev) (k : Nat) (f : Section → Section) : (d.modSec k f).ref = d.ref := rfl
@[simp] theorem Dev.modSec_flt (d : Dev) (k : Nat) (f : Section → Section) : (d.modSec k f).flt = d.flt := rfl
@[simp] theorem Dev.modSec_isl (d : Dev) (k : Nat) (f : Section → Section) : (d.modSec k f).isl = d.isl := rfl
@[simp] theorem Dev.modSec_therm (d : Dev) (k : Nat) (f : Section → Section) : (d.modSec k f).therm = d.therm := rfl
@[simp] theorem Dev.modSec_meter (d : Dev) (k : Nat) (f : Section → Section) : (d.modSec k f).meter = d.meter := rfl
@[simp] theorem Dev.modSec_fram (d : Dev) (k : Nat) (f : Section → Section) : (d.modSec k f).fram = d.fram := rfl
@[simp] theorem Dev.modSec_adcs (d : Dev) (k : Nat) (f : Section → Section) : (d.modSec k f).adcs = d.adcs := rfl
@[simp] theorem Dev.modSec_clk (d : Dev) (k : Nat) (f : Section → Section) : (d.modSec k f).clk = d.clk := rfl
@[simp] theorem Dev.modSec_eth (d : Dev) (k : Nat) (f : Section → Section) : (d.modSec k f).eth = d.eth := rfl
@[simp] theorem Dev.modSec_cans (d : Dev) (k : Nat) (f : Section → Section) : (d.modSec k f).cans = d.cans := rfl
@[simp] theorem Dev.modSec_pwr (d : Dev) (k : Nat) (f : Section → Section) : (d.modSec k f).pwr = d.pwr := rfl
@[simp] theorem Dev.modSec_flash (d : Dev) (k : Nat) (f : Section → Section) : (d.modSec k f).flash = d.flash := rfl
@[simp] theorem Dev.modSec_cfg (d : Dev) (k : Nat) (f : Section → Section) : (d.modSec k f).cfg = d.cfg := rfl
@[simp] theorem Dev.modSec_test (d : Dev) (k : Nat) (f : Section → Section) : (d.modSec k f).test = d.test := rfl
@[simp] theorem Dev.modSec_weft (d : Dev) (k : Nat) (f : Section → Section) : (d.modSec k f).weft = d.weft := rfl
@[simp] theorem Dev.modSec_bar2 (d : Dev) (k : Nat) (f : Section → Section) : (d.modSec k f).bar2 = d.bar2 := rfl

/-! ### modChan -/

@[simp] theorem Dev.modChan_part (d : Dev) (k : Nat) (f : Channel → Channel) : (d.modChan k f).part = d.part := rfl
@[simp] theorem Dev.modChan_now (d : Dev) (k : Nat) (f : Channel → Channel) : (d.modChan k f).now = d.now := rfl
@[simp] theorem Dev.modChan_fresh (d : Dev) (k : Nat) (f : Channel → Channel) : (d.modChan k f).fresh = d.fresh := rfl
@[simp] theorem Dev.modChan_host (d : Dev) (k : Nat) (f : Channel → Channel) : (d.modChan k f).host = d.host := rfl
@[simp] theorem Dev.modChan_tk (d : Dev) (k : Nat) (f : Channel → Channel) : (d.modChan k f).tk = d.tk := rfl
@[simp] theorem Dev.modChan_landing (d : Dev) (k : Nat) (f : Channel → Channel) : (d.modChan k f).landing = d.landing := rfl
@[simp] theorem Dev.modChan_spin (d : Dev) (k : Nat) (f : Channel → Channel) : (d.modChan k f).spin = d.spin := rfl
@[simp] theorem Dev.modChan_secs (d : Dev) (k : Nat) (f : Channel → Channel) : (d.modChan k f).secs = d.secs := rfl
@[simp] theorem Dev.modChan_mapForce (d : Dev) (k : Nat) (f : Channel → Channel) : (d.modChan k f).mapForce = d.mapForce := rfl
@[simp] theorem Dev.modChan_mapStaged (d : Dev) (k : Nat) (f : Channel → Channel) : (d.modChan k f).mapStaged = d.mapStaged := rfl
@[simp] theorem Dev.modChan_strands (d : Dev) (k : Nat) (f : Channel → Channel) : (d.modChan k f).strands = d.strands := rfl
@[simp] theorem Dev.modChan_skeins (d : Dev) (k : Nat) (f : Channel → Channel) : (d.modChan k f).skeins = d.skeins := rfl
@[simp] theorem Dev.modChan_cells (d : Dev) (k : Nat) (f : Channel → Channel) : (d.modChan k f).cells = d.cells := rfl
@[simp] theorem Dev.modChan_trims (d : Dev) (k : Nat) (f : Channel → Channel) : (d.modChan k f).trims = d.trims := rfl
@[simp] theorem Dev.modChan_cut (d : Dev) (k : Nat) (f : Channel → Channel) : (d.modChan k f).cut = d.cut := rfl
@[simp] theorem Dev.modChan_ply (d : Dev) (k : Nat) (f : Channel → Channel) : (d.modChan k f).ply = d.ply := rfl
@[simp] theorem Dev.modChan_ref (d : Dev) (k : Nat) (f : Channel → Channel) : (d.modChan k f).ref = d.ref := rfl
@[simp] theorem Dev.modChan_flt (d : Dev) (k : Nat) (f : Channel → Channel) : (d.modChan k f).flt = d.flt := rfl
@[simp] theorem Dev.modChan_isl (d : Dev) (k : Nat) (f : Channel → Channel) : (d.modChan k f).isl = d.isl := rfl
@[simp] theorem Dev.modChan_therm (d : Dev) (k : Nat) (f : Channel → Channel) : (d.modChan k f).therm = d.therm := rfl
@[simp] theorem Dev.modChan_meter (d : Dev) (k : Nat) (f : Channel → Channel) : (d.modChan k f).meter = d.meter := rfl
@[simp] theorem Dev.modChan_fram (d : Dev) (k : Nat) (f : Channel → Channel) : (d.modChan k f).fram = d.fram := rfl
@[simp] theorem Dev.modChan_adcs (d : Dev) (k : Nat) (f : Channel → Channel) : (d.modChan k f).adcs = d.adcs := rfl
@[simp] theorem Dev.modChan_clk (d : Dev) (k : Nat) (f : Channel → Channel) : (d.modChan k f).clk = d.clk := rfl
@[simp] theorem Dev.modChan_eth (d : Dev) (k : Nat) (f : Channel → Channel) : (d.modChan k f).eth = d.eth := rfl
@[simp] theorem Dev.modChan_cans (d : Dev) (k : Nat) (f : Channel → Channel) : (d.modChan k f).cans = d.cans := rfl
@[simp] theorem Dev.modChan_pwr (d : Dev) (k : Nat) (f : Channel → Channel) : (d.modChan k f).pwr = d.pwr := rfl
@[simp] theorem Dev.modChan_flash (d : Dev) (k : Nat) (f : Channel → Channel) : (d.modChan k f).flash = d.flash := rfl
@[simp] theorem Dev.modChan_cfg (d : Dev) (k : Nat) (f : Channel → Channel) : (d.modChan k f).cfg = d.cfg := rfl
@[simp] theorem Dev.modChan_test (d : Dev) (k : Nat) (f : Channel → Channel) : (d.modChan k f).test = d.test := rfl
@[simp] theorem Dev.modChan_weft (d : Dev) (k : Nat) (f : Channel → Channel) : (d.modChan k f).weft = d.weft := rfl
@[simp] theorem Dev.modChan_bar2 (d : Dev) (k : Nat) (f : Channel → Channel) : (d.modChan k f).bar2 = d.bar2 := rfl

/-! ### modInst -/

@[simp] theorem Dev.modInst_part (d : Dev) (k : Nat) (f : Inst → Inst) : (d.modInst k f).part = d.part := rfl
@[simp] theorem Dev.modInst_now (d : Dev) (k : Nat) (f : Inst → Inst) : (d.modInst k f).now = d.now := rfl
@[simp] theorem Dev.modInst_fresh (d : Dev) (k : Nat) (f : Inst → Inst) : (d.modInst k f).fresh = d.fresh := rfl
@[simp] theorem Dev.modInst_host (d : Dev) (k : Nat) (f : Inst → Inst) : (d.modInst k f).host = d.host := rfl
@[simp] theorem Dev.modInst_tk (d : Dev) (k : Nat) (f : Inst → Inst) : (d.modInst k f).tk = d.tk := rfl
@[simp] theorem Dev.modInst_landing (d : Dev) (k : Nat) (f : Inst → Inst) : (d.modInst k f).landing = d.landing := rfl
@[simp] theorem Dev.modInst_recipes (d : Dev) (k : Nat) (f : Inst → Inst) : (d.modInst k f).recipes = d.recipes := rfl
@[simp] theorem Dev.modInst_secs (d : Dev) (k : Nat) (f : Inst → Inst) : (d.modInst k f).secs = d.secs := rfl
@[simp] theorem Dev.modInst_mapForce (d : Dev) (k : Nat) (f : Inst → Inst) : (d.modInst k f).mapForce = d.mapForce := rfl
@[simp] theorem Dev.modInst_mapStaged (d : Dev) (k : Nat) (f : Inst → Inst) : (d.modInst k f).mapStaged = d.mapStaged := rfl
@[simp] theorem Dev.modInst_strands (d : Dev) (k : Nat) (f : Inst → Inst) : (d.modInst k f).strands = d.strands := rfl
@[simp] theorem Dev.modInst_skeins (d : Dev) (k : Nat) (f : Inst → Inst) : (d.modInst k f).skeins = d.skeins := rfl
@[simp] theorem Dev.modInst_cells (d : Dev) (k : Nat) (f : Inst → Inst) : (d.modInst k f).cells = d.cells := rfl
@[simp] theorem Dev.modInst_trims (d : Dev) (k : Nat) (f : Inst → Inst) : (d.modInst k f).trims = d.trims := rfl
@[simp] theorem Dev.modInst_cut (d : Dev) (k : Nat) (f : Inst → Inst) : (d.modInst k f).cut = d.cut := rfl
@[simp] theorem Dev.modInst_ply (d : Dev) (k : Nat) (f : Inst → Inst) : (d.modInst k f).ply = d.ply := rfl
@[simp] theorem Dev.modInst_ref (d : Dev) (k : Nat) (f : Inst → Inst) : (d.modInst k f).ref = d.ref := rfl
@[simp] theorem Dev.modInst_flt (d : Dev) (k : Nat) (f : Inst → Inst) : (d.modInst k f).flt = d.flt := rfl
@[simp] theorem Dev.modInst_isl (d : Dev) (k : Nat) (f : Inst → Inst) : (d.modInst k f).isl = d.isl := rfl
@[simp] theorem Dev.modInst_therm (d : Dev) (k : Nat) (f : Inst → Inst) : (d.modInst k f).therm = d.therm := rfl
@[simp] theorem Dev.modInst_meter (d : Dev) (k : Nat) (f : Inst → Inst) : (d.modInst k f).meter = d.meter := rfl
@[simp] theorem Dev.modInst_fram (d : Dev) (k : Nat) (f : Inst → Inst) : (d.modInst k f).fram = d.fram := rfl
@[simp] theorem Dev.modInst_adcs (d : Dev) (k : Nat) (f : Inst → Inst) : (d.modInst k f).adcs = d.adcs := rfl
@[simp] theorem Dev.modInst_clk (d : Dev) (k : Nat) (f : Inst → Inst) : (d.modInst k f).clk = d.clk := rfl
@[simp] theorem Dev.modInst_eth (d : Dev) (k : Nat) (f : Inst → Inst) : (d.modInst k f).eth = d.eth := rfl
@[simp] theorem Dev.modInst_cans (d : Dev) (k : Nat) (f : Inst → Inst) : (d.modInst k f).cans = d.cans := rfl
@[simp] theorem Dev.modInst_pwr (d : Dev) (k : Nat) (f : Inst → Inst) : (d.modInst k f).pwr = d.pwr := rfl
@[simp] theorem Dev.modInst_flash (d : Dev) (k : Nat) (f : Inst → Inst) : (d.modInst k f).flash = d.flash := rfl
@[simp] theorem Dev.modInst_cfg (d : Dev) (k : Nat) (f : Inst → Inst) : (d.modInst k f).cfg = d.cfg := rfl
@[simp] theorem Dev.modInst_test (d : Dev) (k : Nat) (f : Inst → Inst) : (d.modInst k f).test = d.test := rfl
@[simp] theorem Dev.modInst_weft (d : Dev) (k : Nat) (f : Inst → Inst) : (d.modInst k f).weft = d.weft := rfl
@[simp] theorem Dev.modInst_bar2 (d : Dev) (k : Nat) (f : Inst → Inst) : (d.modInst k f).bar2 = d.bar2 := rfl

/-! ### modBox -/

@[simp] theorem Dev.modBox_part (d : Dev) (k : Nat) (f : Chan → Chan) : (d.modBox k f).part = d.part := rfl
@[simp] theorem Dev.modBox_now (d : Dev) (k : Nat) (f : Chan → Chan) : (d.modBox k f).now = d.now := rfl
@[simp] theorem Dev.modBox_fresh (d : Dev) (k : Nat) (f : Chan → Chan) : (d.modBox k f).fresh = d.fresh := rfl
@[simp] theorem Dev.modBox_tk (d : Dev) (k : Nat) (f : Chan → Chan) : (d.modBox k f).tk = d.tk := rfl
@[simp] theorem Dev.modBox_landing (d : Dev) (k : Nat) (f : Chan → Chan) : (d.modBox k f).landing = d.landing := rfl
@[simp] theorem Dev.modBox_spin (d : Dev) (k : Nat) (f : Chan → Chan) : (d.modBox k f).spin = d.spin := rfl
@[simp] theorem Dev.modBox_recipes (d : Dev) (k : Nat) (f : Chan → Chan) : (d.modBox k f).recipes = d.recipes := rfl
@[simp] theorem Dev.modBox_secs (d : Dev) (k : Nat) (f : Chan → Chan) : (d.modBox k f).secs = d.secs := rfl
@[simp] theorem Dev.modBox_mapForce (d : Dev) (k : Nat) (f : Chan → Chan) : (d.modBox k f).mapForce = d.mapForce := rfl
@[simp] theorem Dev.modBox_mapStaged (d : Dev) (k : Nat) (f : Chan → Chan) : (d.modBox k f).mapStaged = d.mapStaged := rfl
@[simp] theorem Dev.modBox_strands (d : Dev) (k : Nat) (f : Chan → Chan) : (d.modBox k f).strands = d.strands := rfl
@[simp] theorem Dev.modBox_skeins (d : Dev) (k : Nat) (f : Chan → Chan) : (d.modBox k f).skeins = d.skeins := rfl
@[simp] theorem Dev.modBox_cells (d : Dev) (k : Nat) (f : Chan → Chan) : (d.modBox k f).cells = d.cells := rfl
@[simp] theorem Dev.modBox_trims (d : Dev) (k : Nat) (f : Chan → Chan) : (d.modBox k f).trims = d.trims := rfl
@[simp] theorem Dev.modBox_cut (d : Dev) (k : Nat) (f : Chan → Chan) : (d.modBox k f).cut = d.cut := rfl
@[simp] theorem Dev.modBox_ply (d : Dev) (k : Nat) (f : Chan → Chan) : (d.modBox k f).ply = d.ply := rfl
@[simp] theorem Dev.modBox_ref (d : Dev) (k : Nat) (f : Chan → Chan) : (d.modBox k f).ref = d.ref := rfl
@[simp] theorem Dev.modBox_flt (d : Dev) (k : Nat) (f : Chan → Chan) : (d.modBox k f).flt = d.flt := rfl
@[simp] theorem Dev.modBox_isl (d : Dev) (k : Nat) (f : Chan → Chan) : (d.modBox k f).isl = d.isl := rfl
@[simp] theorem Dev.modBox_therm (d : Dev) (k : Nat) (f : Chan → Chan) : (d.modBox k f).therm = d.therm := rfl
@[simp] theorem Dev.modBox_meter (d : Dev) (k : Nat) (f : Chan → Chan) : (d.modBox k f).meter = d.meter := rfl
@[simp] theorem Dev.modBox_fram (d : Dev) (k : Nat) (f : Chan → Chan) : (d.modBox k f).fram = d.fram := rfl
@[simp] theorem Dev.modBox_adcs (d : Dev) (k : Nat) (f : Chan → Chan) : (d.modBox k f).adcs = d.adcs := rfl
@[simp] theorem Dev.modBox_clk (d : Dev) (k : Nat) (f : Chan → Chan) : (d.modBox k f).clk = d.clk := rfl
@[simp] theorem Dev.modBox_eth (d : Dev) (k : Nat) (f : Chan → Chan) : (d.modBox k f).eth = d.eth := rfl
@[simp] theorem Dev.modBox_cans (d : Dev) (k : Nat) (f : Chan → Chan) : (d.modBox k f).cans = d.cans := rfl
@[simp] theorem Dev.modBox_pwr (d : Dev) (k : Nat) (f : Chan → Chan) : (d.modBox k f).pwr = d.pwr := rfl
@[simp] theorem Dev.modBox_flash (d : Dev) (k : Nat) (f : Chan → Chan) : (d.modBox k f).flash = d.flash := rfl
@[simp] theorem Dev.modBox_cfg (d : Dev) (k : Nat) (f : Chan → Chan) : (d.modBox k f).cfg = d.cfg := rfl
@[simp] theorem Dev.modBox_test (d : Dev) (k : Nat) (f : Chan → Chan) : (d.modBox k f).test = d.test := rfl
@[simp] theorem Dev.modBox_weft (d : Dev) (k : Nat) (f : Chan → Chan) : (d.modBox k f).weft = d.weft := rfl
@[simp] theorem Dev.modBox_bar2 (d : Dev) (k : Nat) (f : Chan → Chan) : (d.modBox k f).bar2 = d.bar2 := rfl

/-! ### modInt -/

@[simp] theorem Dev.modInt_part (d : Dev) (k : Nat) (f : IntBank → IntBank) : (d.modInt k f).part = d.part := rfl
@[simp] theorem Dev.modInt_now (d : Dev) (k : Nat) (f : IntBank → IntBank) : (d.modInt k f).now = d.now := rfl
@[simp] theorem Dev.modInt_fresh (d : Dev) (k : Nat) (f : IntBank → IntBank) : (d.modInt k f).fresh = d.fresh := rfl
@[simp] theorem Dev.modInt_tk (d : Dev) (k : Nat) (f : IntBank → IntBank) : (d.modInt k f).tk = d.tk := rfl
@[simp] theorem Dev.modInt_landing (d : Dev) (k : Nat) (f : IntBank → IntBank) : (d.modInt k f).landing = d.landing := rfl
@[simp] theorem Dev.modInt_spin (d : Dev) (k : Nat) (f : IntBank → IntBank) : (d.modInt k f).spin = d.spin := rfl
@[simp] theorem Dev.modInt_recipes (d : Dev) (k : Nat) (f : IntBank → IntBank) : (d.modInt k f).recipes = d.recipes := rfl
@[simp] theorem Dev.modInt_secs (d : Dev) (k : Nat) (f : IntBank → IntBank) : (d.modInt k f).secs = d.secs := rfl
@[simp] theorem Dev.modInt_mapForce (d : Dev) (k : Nat) (f : IntBank → IntBank) : (d.modInt k f).mapForce = d.mapForce := rfl
@[simp] theorem Dev.modInt_mapStaged (d : Dev) (k : Nat) (f : IntBank → IntBank) : (d.modInt k f).mapStaged = d.mapStaged := rfl
@[simp] theorem Dev.modInt_strands (d : Dev) (k : Nat) (f : IntBank → IntBank) : (d.modInt k f).strands = d.strands := rfl
@[simp] theorem Dev.modInt_skeins (d : Dev) (k : Nat) (f : IntBank → IntBank) : (d.modInt k f).skeins = d.skeins := rfl
@[simp] theorem Dev.modInt_cells (d : Dev) (k : Nat) (f : IntBank → IntBank) : (d.modInt k f).cells = d.cells := rfl
@[simp] theorem Dev.modInt_trims (d : Dev) (k : Nat) (f : IntBank → IntBank) : (d.modInt k f).trims = d.trims := rfl
@[simp] theorem Dev.modInt_cut (d : Dev) (k : Nat) (f : IntBank → IntBank) : (d.modInt k f).cut = d.cut := rfl
@[simp] theorem Dev.modInt_ply (d : Dev) (k : Nat) (f : IntBank → IntBank) : (d.modInt k f).ply = d.ply := rfl
@[simp] theorem Dev.modInt_ref (d : Dev) (k : Nat) (f : IntBank → IntBank) : (d.modInt k f).ref = d.ref := rfl
@[simp] theorem Dev.modInt_flt (d : Dev) (k : Nat) (f : IntBank → IntBank) : (d.modInt k f).flt = d.flt := rfl
@[simp] theorem Dev.modInt_isl (d : Dev) (k : Nat) (f : IntBank → IntBank) : (d.modInt k f).isl = d.isl := rfl
@[simp] theorem Dev.modInt_therm (d : Dev) (k : Nat) (f : IntBank → IntBank) : (d.modInt k f).therm = d.therm := rfl
@[simp] theorem Dev.modInt_meter (d : Dev) (k : Nat) (f : IntBank → IntBank) : (d.modInt k f).meter = d.meter := rfl
@[simp] theorem Dev.modInt_fram (d : Dev) (k : Nat) (f : IntBank → IntBank) : (d.modInt k f).fram = d.fram := rfl
@[simp] theorem Dev.modInt_adcs (d : Dev) (k : Nat) (f : IntBank → IntBank) : (d.modInt k f).adcs = d.adcs := rfl
@[simp] theorem Dev.modInt_clk (d : Dev) (k : Nat) (f : IntBank → IntBank) : (d.modInt k f).clk = d.clk := rfl
@[simp] theorem Dev.modInt_eth (d : Dev) (k : Nat) (f : IntBank → IntBank) : (d.modInt k f).eth = d.eth := rfl
@[simp] theorem Dev.modInt_cans (d : Dev) (k : Nat) (f : IntBank → IntBank) : (d.modInt k f).cans = d.cans := rfl
@[simp] theorem Dev.modInt_pwr (d : Dev) (k : Nat) (f : IntBank → IntBank) : (d.modInt k f).pwr = d.pwr := rfl
@[simp] theorem Dev.modInt_flash (d : Dev) (k : Nat) (f : IntBank → IntBank) : (d.modInt k f).flash = d.flash := rfl
@[simp] theorem Dev.modInt_cfg (d : Dev) (k : Nat) (f : IntBank → IntBank) : (d.modInt k f).cfg = d.cfg := rfl
@[simp] theorem Dev.modInt_test (d : Dev) (k : Nat) (f : IntBank → IntBank) : (d.modInt k f).test = d.test := rfl
@[simp] theorem Dev.modInt_weft (d : Dev) (k : Nat) (f : IntBank → IntBank) : (d.modInt k f).weft = d.weft := rfl
@[simp] theorem Dev.modInt_bar2 (d : Dev) (k : Nat) (f : IntBank → IntBank) : (d.modInt k f).bar2 = d.bar2 := rfl

/-! ### modFn -/

@[simp] theorem Dev.modFn_part (d : Dev) (k : Nat) (f : PcieFn → PcieFn) : (d.modFn k f).part = d.part := rfl
@[simp] theorem Dev.modFn_now (d : Dev) (k : Nat) (f : PcieFn → PcieFn) : (d.modFn k f).now = d.now := rfl
@[simp] theorem Dev.modFn_fresh (d : Dev) (k : Nat) (f : PcieFn → PcieFn) : (d.modFn k f).fresh = d.fresh := rfl
@[simp] theorem Dev.modFn_tk (d : Dev) (k : Nat) (f : PcieFn → PcieFn) : (d.modFn k f).tk = d.tk := rfl
@[simp] theorem Dev.modFn_landing (d : Dev) (k : Nat) (f : PcieFn → PcieFn) : (d.modFn k f).landing = d.landing := rfl
@[simp] theorem Dev.modFn_spin (d : Dev) (k : Nat) (f : PcieFn → PcieFn) : (d.modFn k f).spin = d.spin := rfl
@[simp] theorem Dev.modFn_recipes (d : Dev) (k : Nat) (f : PcieFn → PcieFn) : (d.modFn k f).recipes = d.recipes := rfl
@[simp] theorem Dev.modFn_secs (d : Dev) (k : Nat) (f : PcieFn → PcieFn) : (d.modFn k f).secs = d.secs := rfl
@[simp] theorem Dev.modFn_mapForce (d : Dev) (k : Nat) (f : PcieFn → PcieFn) : (d.modFn k f).mapForce = d.mapForce := rfl
@[simp] theorem Dev.modFn_mapStaged (d : Dev) (k : Nat) (f : PcieFn → PcieFn) : (d.modFn k f).mapStaged = d.mapStaged := rfl
@[simp] theorem Dev.modFn_strands (d : Dev) (k : Nat) (f : PcieFn → PcieFn) : (d.modFn k f).strands = d.strands := rfl
@[simp] theorem Dev.modFn_skeins (d : Dev) (k : Nat) (f : PcieFn → PcieFn) : (d.modFn k f).skeins = d.skeins := rfl
@[simp] theorem Dev.modFn_cells (d : Dev) (k : Nat) (f : PcieFn → PcieFn) : (d.modFn k f).cells = d.cells := rfl
@[simp] theorem Dev.modFn_trims (d : Dev) (k : Nat) (f : PcieFn → PcieFn) : (d.modFn k f).trims = d.trims := rfl
@[simp] theorem Dev.modFn_cut (d : Dev) (k : Nat) (f : PcieFn → PcieFn) : (d.modFn k f).cut = d.cut := rfl
@[simp] theorem Dev.modFn_ply (d : Dev) (k : Nat) (f : PcieFn → PcieFn) : (d.modFn k f).ply = d.ply := rfl
@[simp] theorem Dev.modFn_ref (d : Dev) (k : Nat) (f : PcieFn → PcieFn) : (d.modFn k f).ref = d.ref := rfl
@[simp] theorem Dev.modFn_flt (d : Dev) (k : Nat) (f : PcieFn → PcieFn) : (d.modFn k f).flt = d.flt := rfl
@[simp] theorem Dev.modFn_isl (d : Dev) (k : Nat) (f : PcieFn → PcieFn) : (d.modFn k f).isl = d.isl := rfl
@[simp] theorem Dev.modFn_therm (d : Dev) (k : Nat) (f : PcieFn → PcieFn) : (d.modFn k f).therm = d.therm := rfl
@[simp] theorem Dev.modFn_meter (d : Dev) (k : Nat) (f : PcieFn → PcieFn) : (d.modFn k f).meter = d.meter := rfl
@[simp] theorem Dev.modFn_fram (d : Dev) (k : Nat) (f : PcieFn → PcieFn) : (d.modFn k f).fram = d.fram := rfl
@[simp] theorem Dev.modFn_adcs (d : Dev) (k : Nat) (f : PcieFn → PcieFn) : (d.modFn k f).adcs = d.adcs := rfl
@[simp] theorem Dev.modFn_clk (d : Dev) (k : Nat) (f : PcieFn → PcieFn) : (d.modFn k f).clk = d.clk := rfl
@[simp] theorem Dev.modFn_eth (d : Dev) (k : Nat) (f : PcieFn → PcieFn) : (d.modFn k f).eth = d.eth := rfl
@[simp] theorem Dev.modFn_cans (d : Dev) (k : Nat) (f : PcieFn → PcieFn) : (d.modFn k f).cans = d.cans := rfl
@[simp] theorem Dev.modFn_pwr (d : Dev) (k : Nat) (f : PcieFn → PcieFn) : (d.modFn k f).pwr = d.pwr := rfl
@[simp] theorem Dev.modFn_flash (d : Dev) (k : Nat) (f : PcieFn → PcieFn) : (d.modFn k f).flash = d.flash := rfl
@[simp] theorem Dev.modFn_cfg (d : Dev) (k : Nat) (f : PcieFn → PcieFn) : (d.modFn k f).cfg = d.cfg := rfl
@[simp] theorem Dev.modFn_test (d : Dev) (k : Nat) (f : PcieFn → PcieFn) : (d.modFn k f).test = d.test := rfl
@[simp] theorem Dev.modFn_weft (d : Dev) (k : Nat) (f : PcieFn → PcieFn) : (d.modFn k f).weft = d.weft := rfl
@[simp] theorem Dev.modFn_bar2 (d : Dev) (k : Nat) (f : PcieFn → PcieFn) : (d.modFn k f).bar2 = d.bar2 := rfl

/-! ### modSrc -/

@[simp] theorem Dev.modSrc_part (d : Dev) (k : Nat) (f : FaultSrc → FaultSrc) : (d.modSrc k f).part = d.part := rfl
@[simp] theorem Dev.modSrc_now (d : Dev) (k : Nat) (f : FaultSrc → FaultSrc) : (d.modSrc k f).now = d.now := rfl
@[simp] theorem Dev.modSrc_fresh (d : Dev) (k : Nat) (f : FaultSrc → FaultSrc) : (d.modSrc k f).fresh = d.fresh := rfl
@[simp] theorem Dev.modSrc_host (d : Dev) (k : Nat) (f : FaultSrc → FaultSrc) : (d.modSrc k f).host = d.host := rfl
@[simp] theorem Dev.modSrc_tk (d : Dev) (k : Nat) (f : FaultSrc → FaultSrc) : (d.modSrc k f).tk = d.tk := rfl
@[simp] theorem Dev.modSrc_landing (d : Dev) (k : Nat) (f : FaultSrc → FaultSrc) : (d.modSrc k f).landing = d.landing := rfl
@[simp] theorem Dev.modSrc_spin (d : Dev) (k : Nat) (f : FaultSrc → FaultSrc) : (d.modSrc k f).spin = d.spin := rfl
@[simp] theorem Dev.modSrc_recipes (d : Dev) (k : Nat) (f : FaultSrc → FaultSrc) : (d.modSrc k f).recipes = d.recipes := rfl
@[simp] theorem Dev.modSrc_secs (d : Dev) (k : Nat) (f : FaultSrc → FaultSrc) : (d.modSrc k f).secs = d.secs := rfl
@[simp] theorem Dev.modSrc_mapForce (d : Dev) (k : Nat) (f : FaultSrc → FaultSrc) : (d.modSrc k f).mapForce = d.mapForce := rfl
@[simp] theorem Dev.modSrc_mapStaged (d : Dev) (k : Nat) (f : FaultSrc → FaultSrc) : (d.modSrc k f).mapStaged = d.mapStaged := rfl
@[simp] theorem Dev.modSrc_strands (d : Dev) (k : Nat) (f : FaultSrc → FaultSrc) : (d.modSrc k f).strands = d.strands := rfl
@[simp] theorem Dev.modSrc_skeins (d : Dev) (k : Nat) (f : FaultSrc → FaultSrc) : (d.modSrc k f).skeins = d.skeins := rfl
@[simp] theorem Dev.modSrc_cells (d : Dev) (k : Nat) (f : FaultSrc → FaultSrc) : (d.modSrc k f).cells = d.cells := rfl
@[simp] theorem Dev.modSrc_trims (d : Dev) (k : Nat) (f : FaultSrc → FaultSrc) : (d.modSrc k f).trims = d.trims := rfl
@[simp] theorem Dev.modSrc_cut (d : Dev) (k : Nat) (f : FaultSrc → FaultSrc) : (d.modSrc k f).cut = d.cut := rfl
@[simp] theorem Dev.modSrc_ply (d : Dev) (k : Nat) (f : FaultSrc → FaultSrc) : (d.modSrc k f).ply = d.ply := rfl
@[simp] theorem Dev.modSrc_ref (d : Dev) (k : Nat) (f : FaultSrc → FaultSrc) : (d.modSrc k f).ref = d.ref := rfl
@[simp] theorem Dev.modSrc_isl (d : Dev) (k : Nat) (f : FaultSrc → FaultSrc) : (d.modSrc k f).isl = d.isl := rfl
@[simp] theorem Dev.modSrc_therm (d : Dev) (k : Nat) (f : FaultSrc → FaultSrc) : (d.modSrc k f).therm = d.therm := rfl
@[simp] theorem Dev.modSrc_meter (d : Dev) (k : Nat) (f : FaultSrc → FaultSrc) : (d.modSrc k f).meter = d.meter := rfl
@[simp] theorem Dev.modSrc_fram (d : Dev) (k : Nat) (f : FaultSrc → FaultSrc) : (d.modSrc k f).fram = d.fram := rfl
@[simp] theorem Dev.modSrc_adcs (d : Dev) (k : Nat) (f : FaultSrc → FaultSrc) : (d.modSrc k f).adcs = d.adcs := rfl
@[simp] theorem Dev.modSrc_clk (d : Dev) (k : Nat) (f : FaultSrc → FaultSrc) : (d.modSrc k f).clk = d.clk := rfl
@[simp] theorem Dev.modSrc_eth (d : Dev) (k : Nat) (f : FaultSrc → FaultSrc) : (d.modSrc k f).eth = d.eth := rfl
@[simp] theorem Dev.modSrc_cans (d : Dev) (k : Nat) (f : FaultSrc → FaultSrc) : (d.modSrc k f).cans = d.cans := rfl
@[simp] theorem Dev.modSrc_pwr (d : Dev) (k : Nat) (f : FaultSrc → FaultSrc) : (d.modSrc k f).pwr = d.pwr := rfl
@[simp] theorem Dev.modSrc_flash (d : Dev) (k : Nat) (f : FaultSrc → FaultSrc) : (d.modSrc k f).flash = d.flash := rfl
@[simp] theorem Dev.modSrc_cfg (d : Dev) (k : Nat) (f : FaultSrc → FaultSrc) : (d.modSrc k f).cfg = d.cfg := rfl
@[simp] theorem Dev.modSrc_test (d : Dev) (k : Nat) (f : FaultSrc → FaultSrc) : (d.modSrc k f).test = d.test := rfl
@[simp] theorem Dev.modSrc_weft (d : Dev) (k : Nat) (f : FaultSrc → FaultSrc) : (d.modSrc k f).weft = d.weft := rfl
@[simp] theorem Dev.modSrc_bar2 (d : Dev) (k : Nat) (f : FaultSrc → FaultSrc) : (d.modSrc k f).bar2 = d.bar2 := rfl

/-! ### modCan -/

@[simp] theorem Dev.modCan_part (d : Dev) (k : Nat) (f : Can → Can) : (d.modCan k f).part = d.part := rfl
@[simp] theorem Dev.modCan_now (d : Dev) (k : Nat) (f : Can → Can) : (d.modCan k f).now = d.now := rfl
@[simp] theorem Dev.modCan_fresh (d : Dev) (k : Nat) (f : Can → Can) : (d.modCan k f).fresh = d.fresh := rfl
@[simp] theorem Dev.modCan_host (d : Dev) (k : Nat) (f : Can → Can) : (d.modCan k f).host = d.host := rfl
@[simp] theorem Dev.modCan_tk (d : Dev) (k : Nat) (f : Can → Can) : (d.modCan k f).tk = d.tk := rfl
@[simp] theorem Dev.modCan_landing (d : Dev) (k : Nat) (f : Can → Can) : (d.modCan k f).landing = d.landing := rfl
@[simp] theorem Dev.modCan_spin (d : Dev) (k : Nat) (f : Can → Can) : (d.modCan k f).spin = d.spin := rfl
@[simp] theorem Dev.modCan_recipes (d : Dev) (k : Nat) (f : Can → Can) : (d.modCan k f).recipes = d.recipes := rfl
@[simp] theorem Dev.modCan_secs (d : Dev) (k : Nat) (f : Can → Can) : (d.modCan k f).secs = d.secs := rfl
@[simp] theorem Dev.modCan_mapForce (d : Dev) (k : Nat) (f : Can → Can) : (d.modCan k f).mapForce = d.mapForce := rfl
@[simp] theorem Dev.modCan_mapStaged (d : Dev) (k : Nat) (f : Can → Can) : (d.modCan k f).mapStaged = d.mapStaged := rfl
@[simp] theorem Dev.modCan_strands (d : Dev) (k : Nat) (f : Can → Can) : (d.modCan k f).strands = d.strands := rfl
@[simp] theorem Dev.modCan_skeins (d : Dev) (k : Nat) (f : Can → Can) : (d.modCan k f).skeins = d.skeins := rfl
@[simp] theorem Dev.modCan_cells (d : Dev) (k : Nat) (f : Can → Can) : (d.modCan k f).cells = d.cells := rfl
@[simp] theorem Dev.modCan_trims (d : Dev) (k : Nat) (f : Can → Can) : (d.modCan k f).trims = d.trims := rfl
@[simp] theorem Dev.modCan_cut (d : Dev) (k : Nat) (f : Can → Can) : (d.modCan k f).cut = d.cut := rfl
@[simp] theorem Dev.modCan_ply (d : Dev) (k : Nat) (f : Can → Can) : (d.modCan k f).ply = d.ply := rfl
@[simp] theorem Dev.modCan_ref (d : Dev) (k : Nat) (f : Can → Can) : (d.modCan k f).ref = d.ref := rfl
@[simp] theorem Dev.modCan_flt (d : Dev) (k : Nat) (f : Can → Can) : (d.modCan k f).flt = d.flt := rfl
@[simp] theorem Dev.modCan_isl (d : Dev) (k : Nat) (f : Can → Can) : (d.modCan k f).isl = d.isl := rfl
@[simp] theorem Dev.modCan_therm (d : Dev) (k : Nat) (f : Can → Can) : (d.modCan k f).therm = d.therm := rfl
@[simp] theorem Dev.modCan_meter (d : Dev) (k : Nat) (f : Can → Can) : (d.modCan k f).meter = d.meter := rfl
@[simp] theorem Dev.modCan_fram (d : Dev) (k : Nat) (f : Can → Can) : (d.modCan k f).fram = d.fram := rfl
@[simp] theorem Dev.modCan_adcs (d : Dev) (k : Nat) (f : Can → Can) : (d.modCan k f).adcs = d.adcs := rfl
@[simp] theorem Dev.modCan_clk (d : Dev) (k : Nat) (f : Can → Can) : (d.modCan k f).clk = d.clk := rfl
@[simp] theorem Dev.modCan_eth (d : Dev) (k : Nat) (f : Can → Can) : (d.modCan k f).eth = d.eth := rfl
@[simp] theorem Dev.modCan_pwr (d : Dev) (k : Nat) (f : Can → Can) : (d.modCan k f).pwr = d.pwr := rfl
@[simp] theorem Dev.modCan_flash (d : Dev) (k : Nat) (f : Can → Can) : (d.modCan k f).flash = d.flash := rfl
@[simp] theorem Dev.modCan_cfg (d : Dev) (k : Nat) (f : Can → Can) : (d.modCan k f).cfg = d.cfg := rfl
@[simp] theorem Dev.modCan_test (d : Dev) (k : Nat) (f : Can → Can) : (d.modCan k f).test = d.test := rfl
@[simp] theorem Dev.modCan_weft (d : Dev) (k : Nat) (f : Can → Can) : (d.modCan k f).weft = d.weft := rfl
@[simp] theorem Dev.modCan_bar2 (d : Dev) (k : Nat) (f : Can → Can) : (d.modCan k f).bar2 = d.bar2 := rfl

/-! ### modPort -/

@[simp] theorem Dev.modPort_part (d : Dev) (k : Nat) (f : EthPort → EthPort) : (d.modPort k f).part = d.part := rfl
@[simp] theorem Dev.modPort_now (d : Dev) (k : Nat) (f : EthPort → EthPort) : (d.modPort k f).now = d.now := rfl
@[simp] theorem Dev.modPort_fresh (d : Dev) (k : Nat) (f : EthPort → EthPort) : (d.modPort k f).fresh = d.fresh := rfl
@[simp] theorem Dev.modPort_host (d : Dev) (k : Nat) (f : EthPort → EthPort) : (d.modPort k f).host = d.host := rfl
@[simp] theorem Dev.modPort_tk (d : Dev) (k : Nat) (f : EthPort → EthPort) : (d.modPort k f).tk = d.tk := rfl
@[simp] theorem Dev.modPort_landing (d : Dev) (k : Nat) (f : EthPort → EthPort) : (d.modPort k f).landing = d.landing := rfl
@[simp] theorem Dev.modPort_spin (d : Dev) (k : Nat) (f : EthPort → EthPort) : (d.modPort k f).spin = d.spin := rfl
@[simp] theorem Dev.modPort_recipes (d : Dev) (k : Nat) (f : EthPort → EthPort) : (d.modPort k f).recipes = d.recipes := rfl
@[simp] theorem Dev.modPort_secs (d : Dev) (k : Nat) (f : EthPort → EthPort) : (d.modPort k f).secs = d.secs := rfl
@[simp] theorem Dev.modPort_mapForce (d : Dev) (k : Nat) (f : EthPort → EthPort) : (d.modPort k f).mapForce = d.mapForce := rfl
@[simp] theorem Dev.modPort_mapStaged (d : Dev) (k : Nat) (f : EthPort → EthPort) : (d.modPort k f).mapStaged = d.mapStaged := rfl
@[simp] theorem Dev.modPort_strands (d : Dev) (k : Nat) (f : EthPort → EthPort) : (d.modPort k f).strands = d.strands := rfl
@[simp] theorem Dev.modPort_skeins (d : Dev) (k : Nat) (f : EthPort → EthPort) : (d.modPort k f).skeins = d.skeins := rfl
@[simp] theorem Dev.modPort_cells (d : Dev) (k : Nat) (f : EthPort → EthPort) : (d.modPort k f).cells = d.cells := rfl
@[simp] theorem Dev.modPort_trims (d : Dev) (k : Nat) (f : EthPort → EthPort) : (d.modPort k f).trims = d.trims := rfl
@[simp] theorem Dev.modPort_cut (d : Dev) (k : Nat) (f : EthPort → EthPort) : (d.modPort k f).cut = d.cut := rfl
@[simp] theorem Dev.modPort_ply (d : Dev) (k : Nat) (f : EthPort → EthPort) : (d.modPort k f).ply = d.ply := rfl
@[simp] theorem Dev.modPort_ref (d : Dev) (k : Nat) (f : EthPort → EthPort) : (d.modPort k f).ref = d.ref := rfl
@[simp] theorem Dev.modPort_flt (d : Dev) (k : Nat) (f : EthPort → EthPort) : (d.modPort k f).flt = d.flt := rfl
@[simp] theorem Dev.modPort_isl (d : Dev) (k : Nat) (f : EthPort → EthPort) : (d.modPort k f).isl = d.isl := rfl
@[simp] theorem Dev.modPort_therm (d : Dev) (k : Nat) (f : EthPort → EthPort) : (d.modPort k f).therm = d.therm := rfl
@[simp] theorem Dev.modPort_meter (d : Dev) (k : Nat) (f : EthPort → EthPort) : (d.modPort k f).meter = d.meter := rfl
@[simp] theorem Dev.modPort_fram (d : Dev) (k : Nat) (f : EthPort → EthPort) : (d.modPort k f).fram = d.fram := rfl
@[simp] theorem Dev.modPort_adcs (d : Dev) (k : Nat) (f : EthPort → EthPort) : (d.modPort k f).adcs = d.adcs := rfl
@[simp] theorem Dev.modPort_clk (d : Dev) (k : Nat) (f : EthPort → EthPort) : (d.modPort k f).clk = d.clk := rfl
@[simp] theorem Dev.modPort_cans (d : Dev) (k : Nat) (f : EthPort → EthPort) : (d.modPort k f).cans = d.cans := rfl
@[simp] theorem Dev.modPort_pwr (d : Dev) (k : Nat) (f : EthPort → EthPort) : (d.modPort k f).pwr = d.pwr := rfl
@[simp] theorem Dev.modPort_flash (d : Dev) (k : Nat) (f : EthPort → EthPort) : (d.modPort k f).flash = d.flash := rfl
@[simp] theorem Dev.modPort_cfg (d : Dev) (k : Nat) (f : EthPort → EthPort) : (d.modPort k f).cfg = d.cfg := rfl
@[simp] theorem Dev.modPort_test (d : Dev) (k : Nat) (f : EthPort → EthPort) : (d.modPort k f).test = d.test := rfl
@[simp] theorem Dev.modPort_weft (d : Dev) (k : Nat) (f : EthPort → EthPort) : (d.modPort k f).weft = d.weft := rfl
@[simp] theorem Dev.modPort_bar2 (d : Dev) (k : Nat) (f : EthPort → EthPort) : (d.modPort k f).bar2 = d.bar2 := rfl

/-! ### modAdc -/

@[simp] theorem Dev.modAdc_part (d : Dev) (k : Nat) (f : Adc → Adc) : (d.modAdc k f).part = d.part := rfl
@[simp] theorem Dev.modAdc_now (d : Dev) (k : Nat) (f : Adc → Adc) : (d.modAdc k f).now = d.now := rfl
@[simp] theorem Dev.modAdc_fresh (d : Dev) (k : Nat) (f : Adc → Adc) : (d.modAdc k f).fresh = d.fresh := rfl
@[simp] theorem Dev.modAdc_host (d : Dev) (k : Nat) (f : Adc → Adc) : (d.modAdc k f).host = d.host := rfl
@[simp] theorem Dev.modAdc_tk (d : Dev) (k : Nat) (f : Adc → Adc) : (d.modAdc k f).tk = d.tk := rfl
@[simp] theorem Dev.modAdc_landing (d : Dev) (k : Nat) (f : Adc → Adc) : (d.modAdc k f).landing = d.landing := rfl
@[simp] theorem Dev.modAdc_spin (d : Dev) (k : Nat) (f : Adc → Adc) : (d.modAdc k f).spin = d.spin := rfl
@[simp] theorem Dev.modAdc_recipes (d : Dev) (k : Nat) (f : Adc → Adc) : (d.modAdc k f).recipes = d.recipes := rfl
@[simp] theorem Dev.modAdc_secs (d : Dev) (k : Nat) (f : Adc → Adc) : (d.modAdc k f).secs = d.secs := rfl
@[simp] theorem Dev.modAdc_mapForce (d : Dev) (k : Nat) (f : Adc → Adc) : (d.modAdc k f).mapForce = d.mapForce := rfl
@[simp] theorem Dev.modAdc_mapStaged (d : Dev) (k : Nat) (f : Adc → Adc) : (d.modAdc k f).mapStaged = d.mapStaged := rfl
@[simp] theorem Dev.modAdc_strands (d : Dev) (k : Nat) (f : Adc → Adc) : (d.modAdc k f).strands = d.strands := rfl
@[simp] theorem Dev.modAdc_skeins (d : Dev) (k : Nat) (f : Adc → Adc) : (d.modAdc k f).skeins = d.skeins := rfl
@[simp] theorem Dev.modAdc_cells (d : Dev) (k : Nat) (f : Adc → Adc) : (d.modAdc k f).cells = d.cells := rfl
@[simp] theorem Dev.modAdc_trims (d : Dev) (k : Nat) (f : Adc → Adc) : (d.modAdc k f).trims = d.trims := rfl
@[simp] theorem Dev.modAdc_cut (d : Dev) (k : Nat) (f : Adc → Adc) : (d.modAdc k f).cut = d.cut := rfl
@[simp] theorem Dev.modAdc_ply (d : Dev) (k : Nat) (f : Adc → Adc) : (d.modAdc k f).ply = d.ply := rfl
@[simp] theorem Dev.modAdc_ref (d : Dev) (k : Nat) (f : Adc → Adc) : (d.modAdc k f).ref = d.ref := rfl
@[simp] theorem Dev.modAdc_flt (d : Dev) (k : Nat) (f : Adc → Adc) : (d.modAdc k f).flt = d.flt := rfl
@[simp] theorem Dev.modAdc_isl (d : Dev) (k : Nat) (f : Adc → Adc) : (d.modAdc k f).isl = d.isl := rfl
@[simp] theorem Dev.modAdc_therm (d : Dev) (k : Nat) (f : Adc → Adc) : (d.modAdc k f).therm = d.therm := rfl
@[simp] theorem Dev.modAdc_meter (d : Dev) (k : Nat) (f : Adc → Adc) : (d.modAdc k f).meter = d.meter := rfl
@[simp] theorem Dev.modAdc_fram (d : Dev) (k : Nat) (f : Adc → Adc) : (d.modAdc k f).fram = d.fram := rfl
@[simp] theorem Dev.modAdc_clk (d : Dev) (k : Nat) (f : Adc → Adc) : (d.modAdc k f).clk = d.clk := rfl
@[simp] theorem Dev.modAdc_eth (d : Dev) (k : Nat) (f : Adc → Adc) : (d.modAdc k f).eth = d.eth := rfl
@[simp] theorem Dev.modAdc_cans (d : Dev) (k : Nat) (f : Adc → Adc) : (d.modAdc k f).cans = d.cans := rfl
@[simp] theorem Dev.modAdc_pwr (d : Dev) (k : Nat) (f : Adc → Adc) : (d.modAdc k f).pwr = d.pwr := rfl
@[simp] theorem Dev.modAdc_flash (d : Dev) (k : Nat) (f : Adc → Adc) : (d.modAdc k f).flash = d.flash := rfl
@[simp] theorem Dev.modAdc_cfg (d : Dev) (k : Nat) (f : Adc → Adc) : (d.modAdc k f).cfg = d.cfg := rfl
@[simp] theorem Dev.modAdc_test (d : Dev) (k : Nat) (f : Adc → Adc) : (d.modAdc k f).test = d.test := rfl
@[simp] theorem Dev.modAdc_weft (d : Dev) (k : Nat) (f : Adc → Adc) : (d.modAdc k f).weft = d.weft := rfl
@[simp] theorem Dev.modAdc_bar2 (d : Dev) (k : Nat) (f : Adc → Adc) : (d.modAdc k f).bar2 = d.bar2 := rfl

/-! ### modAcc -/

@[simp] theorem Dev.modAcc_part (d : Dev) (k : Nat) (f : Acc → Acc) : (d.modAcc k f).part = d.part := rfl
@[simp] theorem Dev.modAcc_now (d : Dev) (k : Nat) (f : Acc → Acc) : (d.modAcc k f).now = d.now := rfl
@[simp] theorem Dev.modAcc_fresh (d : Dev) (k : Nat) (f : Acc → Acc) : (d.modAcc k f).fresh = d.fresh := rfl
@[simp] theorem Dev.modAcc_host (d : Dev) (k : Nat) (f : Acc → Acc) : (d.modAcc k f).host = d.host := rfl
@[simp] theorem Dev.modAcc_tk (d : Dev) (k : Nat) (f : Acc → Acc) : (d.modAcc k f).tk = d.tk := rfl
@[simp] theorem Dev.modAcc_landing (d : Dev) (k : Nat) (f : Acc → Acc) : (d.modAcc k f).landing = d.landing := rfl
@[simp] theorem Dev.modAcc_spin (d : Dev) (k : Nat) (f : Acc → Acc) : (d.modAcc k f).spin = d.spin := rfl
@[simp] theorem Dev.modAcc_recipes (d : Dev) (k : Nat) (f : Acc → Acc) : (d.modAcc k f).recipes = d.recipes := rfl
@[simp] theorem Dev.modAcc_secs (d : Dev) (k : Nat) (f : Acc → Acc) : (d.modAcc k f).secs = d.secs := rfl
@[simp] theorem Dev.modAcc_mapForce (d : Dev) (k : Nat) (f : Acc → Acc) : (d.modAcc k f).mapForce = d.mapForce := rfl
@[simp] theorem Dev.modAcc_mapStaged (d : Dev) (k : Nat) (f : Acc → Acc) : (d.modAcc k f).mapStaged = d.mapStaged := rfl
@[simp] theorem Dev.modAcc_strands (d : Dev) (k : Nat) (f : Acc → Acc) : (d.modAcc k f).strands = d.strands := rfl
@[simp] theorem Dev.modAcc_skeins (d : Dev) (k : Nat) (f : Acc → Acc) : (d.modAcc k f).skeins = d.skeins := rfl
@[simp] theorem Dev.modAcc_cells (d : Dev) (k : Nat) (f : Acc → Acc) : (d.modAcc k f).cells = d.cells := rfl
@[simp] theorem Dev.modAcc_trims (d : Dev) (k : Nat) (f : Acc → Acc) : (d.modAcc k f).trims = d.trims := rfl
@[simp] theorem Dev.modAcc_cut (d : Dev) (k : Nat) (f : Acc → Acc) : (d.modAcc k f).cut = d.cut := rfl
@[simp] theorem Dev.modAcc_ply (d : Dev) (k : Nat) (f : Acc → Acc) : (d.modAcc k f).ply = d.ply := rfl
@[simp] theorem Dev.modAcc_ref (d : Dev) (k : Nat) (f : Acc → Acc) : (d.modAcc k f).ref = d.ref := rfl
@[simp] theorem Dev.modAcc_flt (d : Dev) (k : Nat) (f : Acc → Acc) : (d.modAcc k f).flt = d.flt := rfl
@[simp] theorem Dev.modAcc_isl (d : Dev) (k : Nat) (f : Acc → Acc) : (d.modAcc k f).isl = d.isl := rfl
@[simp] theorem Dev.modAcc_therm (d : Dev) (k : Nat) (f : Acc → Acc) : (d.modAcc k f).therm = d.therm := rfl
@[simp] theorem Dev.modAcc_fram (d : Dev) (k : Nat) (f : Acc → Acc) : (d.modAcc k f).fram = d.fram := rfl
@[simp] theorem Dev.modAcc_adcs (d : Dev) (k : Nat) (f : Acc → Acc) : (d.modAcc k f).adcs = d.adcs := rfl
@[simp] theorem Dev.modAcc_clk (d : Dev) (k : Nat) (f : Acc → Acc) : (d.modAcc k f).clk = d.clk := rfl
@[simp] theorem Dev.modAcc_eth (d : Dev) (k : Nat) (f : Acc → Acc) : (d.modAcc k f).eth = d.eth := rfl
@[simp] theorem Dev.modAcc_cans (d : Dev) (k : Nat) (f : Acc → Acc) : (d.modAcc k f).cans = d.cans := rfl
@[simp] theorem Dev.modAcc_pwr (d : Dev) (k : Nat) (f : Acc → Acc) : (d.modAcc k f).pwr = d.pwr := rfl
@[simp] theorem Dev.modAcc_flash (d : Dev) (k : Nat) (f : Acc → Acc) : (d.modAcc k f).flash = d.flash := rfl
@[simp] theorem Dev.modAcc_cfg (d : Dev) (k : Nat) (f : Acc → Acc) : (d.modAcc k f).cfg = d.cfg := rfl
@[simp] theorem Dev.modAcc_test (d : Dev) (k : Nat) (f : Acc → Acc) : (d.modAcc k f).test = d.test := rfl
@[simp] theorem Dev.modAcc_weft (d : Dev) (k : Nat) (f : Acc → Acc) : (d.modAcc k f).weft = d.weft := rfl
@[simp] theorem Dev.modAcc_bar2 (d : Dev) (k : Nat) (f : Acc → Acc) : (d.modAcc k f).bar2 = d.bar2 := rfl

/-! ### modZone -/

@[simp] theorem Dev.modZone_part (d : Dev) (k : Nat) (f : Zone → Zone) : (d.modZone k f).part = d.part := rfl
@[simp] theorem Dev.modZone_now (d : Dev) (k : Nat) (f : Zone → Zone) : (d.modZone k f).now = d.now := rfl
@[simp] theorem Dev.modZone_fresh (d : Dev) (k : Nat) (f : Zone → Zone) : (d.modZone k f).fresh = d.fresh := rfl
@[simp] theorem Dev.modZone_host (d : Dev) (k : Nat) (f : Zone → Zone) : (d.modZone k f).host = d.host := rfl
@[simp] theorem Dev.modZone_tk (d : Dev) (k : Nat) (f : Zone → Zone) : (d.modZone k f).tk = d.tk := rfl
@[simp] theorem Dev.modZone_landing (d : Dev) (k : Nat) (f : Zone → Zone) : (d.modZone k f).landing = d.landing := rfl
@[simp] theorem Dev.modZone_spin (d : Dev) (k : Nat) (f : Zone → Zone) : (d.modZone k f).spin = d.spin := rfl
@[simp] theorem Dev.modZone_recipes (d : Dev) (k : Nat) (f : Zone → Zone) : (d.modZone k f).recipes = d.recipes := rfl
@[simp] theorem Dev.modZone_secs (d : Dev) (k : Nat) (f : Zone → Zone) : (d.modZone k f).secs = d.secs := rfl
@[simp] theorem Dev.modZone_mapForce (d : Dev) (k : Nat) (f : Zone → Zone) : (d.modZone k f).mapForce = d.mapForce := rfl
@[simp] theorem Dev.modZone_mapStaged (d : Dev) (k : Nat) (f : Zone → Zone) : (d.modZone k f).mapStaged = d.mapStaged := rfl
@[simp] theorem Dev.modZone_strands (d : Dev) (k : Nat) (f : Zone → Zone) : (d.modZone k f).strands = d.strands := rfl
@[simp] theorem Dev.modZone_skeins (d : Dev) (k : Nat) (f : Zone → Zone) : (d.modZone k f).skeins = d.skeins := rfl
@[simp] theorem Dev.modZone_cells (d : Dev) (k : Nat) (f : Zone → Zone) : (d.modZone k f).cells = d.cells := rfl
@[simp] theorem Dev.modZone_trims (d : Dev) (k : Nat) (f : Zone → Zone) : (d.modZone k f).trims = d.trims := rfl
@[simp] theorem Dev.modZone_cut (d : Dev) (k : Nat) (f : Zone → Zone) : (d.modZone k f).cut = d.cut := rfl
@[simp] theorem Dev.modZone_ply (d : Dev) (k : Nat) (f : Zone → Zone) : (d.modZone k f).ply = d.ply := rfl
@[simp] theorem Dev.modZone_ref (d : Dev) (k : Nat) (f : Zone → Zone) : (d.modZone k f).ref = d.ref := rfl
@[simp] theorem Dev.modZone_flt (d : Dev) (k : Nat) (f : Zone → Zone) : (d.modZone k f).flt = d.flt := rfl
@[simp] theorem Dev.modZone_therm (d : Dev) (k : Nat) (f : Zone → Zone) : (d.modZone k f).therm = d.therm := rfl
@[simp] theorem Dev.modZone_meter (d : Dev) (k : Nat) (f : Zone → Zone) : (d.modZone k f).meter = d.meter := rfl
@[simp] theorem Dev.modZone_fram (d : Dev) (k : Nat) (f : Zone → Zone) : (d.modZone k f).fram = d.fram := rfl
@[simp] theorem Dev.modZone_adcs (d : Dev) (k : Nat) (f : Zone → Zone) : (d.modZone k f).adcs = d.adcs := rfl
@[simp] theorem Dev.modZone_clk (d : Dev) (k : Nat) (f : Zone → Zone) : (d.modZone k f).clk = d.clk := rfl
@[simp] theorem Dev.modZone_eth (d : Dev) (k : Nat) (f : Zone → Zone) : (d.modZone k f).eth = d.eth := rfl
@[simp] theorem Dev.modZone_cans (d : Dev) (k : Nat) (f : Zone → Zone) : (d.modZone k f).cans = d.cans := rfl
@[simp] theorem Dev.modZone_pwr (d : Dev) (k : Nat) (f : Zone → Zone) : (d.modZone k f).pwr = d.pwr := rfl
@[simp] theorem Dev.modZone_flash (d : Dev) (k : Nat) (f : Zone → Zone) : (d.modZone k f).flash = d.flash := rfl
@[simp] theorem Dev.modZone_cfg (d : Dev) (k : Nat) (f : Zone → Zone) : (d.modZone k f).cfg = d.cfg := rfl
@[simp] theorem Dev.modZone_test (d : Dev) (k : Nat) (f : Zone → Zone) : (d.modZone k f).test = d.test := rfl
@[simp] theorem Dev.modZone_weft (d : Dev) (k : Nat) (f : Zone → Zone) : (d.modZone k f).weft = d.weft := rfl
@[simp] theorem Dev.modZone_bar2 (d : Dev) (k : Nat) (f : Zone → Zone) : (d.modZone k f).bar2 = d.bar2 := rfl

/-! ### useFresh -/

@[simp] theorem Dev.useFresh_part (d : Dev) : (d.useFresh).part = d.part := rfl
@[simp] theorem Dev.useFresh_now (d : Dev) : (d.useFresh).now = d.now := rfl
@[simp] theorem Dev.useFresh_host (d : Dev) : (d.useFresh).host = d.host := rfl
@[simp] theorem Dev.useFresh_tk (d : Dev) : (d.useFresh).tk = d.tk := rfl
@[simp] theorem Dev.useFresh_landing (d : Dev) : (d.useFresh).landing = d.landing := rfl
@[simp] theorem Dev.useFresh_spin (d : Dev) : (d.useFresh).spin = d.spin := rfl
@[simp] theorem Dev.useFresh_recipes (d : Dev) : (d.useFresh).recipes = d.recipes := rfl
@[simp] theorem Dev.useFresh_secs (d : Dev) : (d.useFresh).secs = d.secs := rfl
@[simp] theorem Dev.useFresh_mapForce (d : Dev) : (d.useFresh).mapForce = d.mapForce := rfl
@[simp] theorem Dev.useFresh_mapStaged (d : Dev) : (d.useFresh).mapStaged = d.mapStaged := rfl
@[simp] theorem Dev.useFresh_strands (d : Dev) : (d.useFresh).strands = d.strands := rfl
@[simp] theorem Dev.useFresh_skeins (d : Dev) : (d.useFresh).skeins = d.skeins := rfl
@[simp] theorem Dev.useFresh_cells (d : Dev) : (d.useFresh).cells = d.cells := rfl
@[simp] theorem Dev.useFresh_trims (d : Dev) : (d.useFresh).trims = d.trims := rfl
@[simp] theorem Dev.useFresh_cut (d : Dev) : (d.useFresh).cut = d.cut := rfl
@[simp] theorem Dev.useFresh_ply (d : Dev) : (d.useFresh).ply = d.ply := rfl
@[simp] theorem Dev.useFresh_ref (d : Dev) : (d.useFresh).ref = d.ref := rfl
@[simp] theorem Dev.useFresh_flt (d : Dev) : (d.useFresh).flt = d.flt := rfl
@[simp] theorem Dev.useFresh_isl (d : Dev) : (d.useFresh).isl = d.isl := rfl
@[simp] theorem Dev.useFresh_therm (d : Dev) : (d.useFresh).therm = d.therm := rfl
@[simp] theorem Dev.useFresh_meter (d : Dev) : (d.useFresh).meter = d.meter := rfl
@[simp] theorem Dev.useFresh_fram (d : Dev) : (d.useFresh).fram = d.fram := rfl
@[simp] theorem Dev.useFresh_adcs (d : Dev) : (d.useFresh).adcs = d.adcs := rfl
@[simp] theorem Dev.useFresh_clk (d : Dev) : (d.useFresh).clk = d.clk := rfl
@[simp] theorem Dev.useFresh_eth (d : Dev) : (d.useFresh).eth = d.eth := rfl
@[simp] theorem Dev.useFresh_cans (d : Dev) : (d.useFresh).cans = d.cans := rfl
@[simp] theorem Dev.useFresh_pwr (d : Dev) : (d.useFresh).pwr = d.pwr := rfl
@[simp] theorem Dev.useFresh_flash (d : Dev) : (d.useFresh).flash = d.flash := rfl
@[simp] theorem Dev.useFresh_cfg (d : Dev) : (d.useFresh).cfg = d.cfg := rfl
@[simp] theorem Dev.useFresh_test (d : Dev) : (d.useFresh).test = d.test := rfl
@[simp] theorem Dev.useFresh_weft (d : Dev) : (d.useFresh).weft = d.weft := rfl
@[simp] theorem Dev.useFresh_bar2 (d : Dev) : (d.useFresh).bar2 = d.bar2 := rfl

/-! ### land -/

@[simp] theorem Dev.land_part (d : Dev) (l : Landing) : (d.land l).part = d.part := rfl
@[simp] theorem Dev.land_now (d : Dev) (l : Landing) : (d.land l).now = d.now := rfl
@[simp] theorem Dev.land_fresh (d : Dev) (l : Landing) : (d.land l).fresh = d.fresh := rfl
@[simp] theorem Dev.land_host (d : Dev) (l : Landing) : (d.land l).host = d.host := rfl
@[simp] theorem Dev.land_tk (d : Dev) (l : Landing) : (d.land l).tk = d.tk := rfl
@[simp] theorem Dev.land_spin (d : Dev) (l : Landing) : (d.land l).spin = d.spin := rfl
@[simp] theorem Dev.land_recipes (d : Dev) (l : Landing) : (d.land l).recipes = d.recipes := rfl
@[simp] theorem Dev.land_secs (d : Dev) (l : Landing) : (d.land l).secs = d.secs := rfl
@[simp] theorem Dev.land_mapForce (d : Dev) (l : Landing) : (d.land l).mapForce = d.mapForce := rfl
@[simp] theorem Dev.land_mapStaged (d : Dev) (l : Landing) : (d.land l).mapStaged = d.mapStaged := rfl
@[simp] theorem Dev.land_strands (d : Dev) (l : Landing) : (d.land l).strands = d.strands := rfl
@[simp] theorem Dev.land_skeins (d : Dev) (l : Landing) : (d.land l).skeins = d.skeins := rfl
@[simp] theorem Dev.land_cells (d : Dev) (l : Landing) : (d.land l).cells = d.cells := rfl
@[simp] theorem Dev.land_trims (d : Dev) (l : Landing) : (d.land l).trims = d.trims := rfl
@[simp] theorem Dev.land_cut (d : Dev) (l : Landing) : (d.land l).cut = d.cut := rfl
@[simp] theorem Dev.land_ply (d : Dev) (l : Landing) : (d.land l).ply = d.ply := rfl
@[simp] theorem Dev.land_ref (d : Dev) (l : Landing) : (d.land l).ref = d.ref := rfl
@[simp] theorem Dev.land_flt (d : Dev) (l : Landing) : (d.land l).flt = d.flt := rfl
@[simp] theorem Dev.land_isl (d : Dev) (l : Landing) : (d.land l).isl = d.isl := rfl
@[simp] theorem Dev.land_therm (d : Dev) (l : Landing) : (d.land l).therm = d.therm := rfl
@[simp] theorem Dev.land_meter (d : Dev) (l : Landing) : (d.land l).meter = d.meter := rfl
@[simp] theorem Dev.land_fram (d : Dev) (l : Landing) : (d.land l).fram = d.fram := rfl
@[simp] theorem Dev.land_adcs (d : Dev) (l : Landing) : (d.land l).adcs = d.adcs := rfl
@[simp] theorem Dev.land_clk (d : Dev) (l : Landing) : (d.land l).clk = d.clk := rfl
@[simp] theorem Dev.land_eth (d : Dev) (l : Landing) : (d.land l).eth = d.eth := rfl
@[simp] theorem Dev.land_cans (d : Dev) (l : Landing) : (d.land l).cans = d.cans := rfl
@[simp] theorem Dev.land_pwr (d : Dev) (l : Landing) : (d.land l).pwr = d.pwr := rfl
@[simp] theorem Dev.land_flash (d : Dev) (l : Landing) : (d.land l).flash = d.flash := rfl
@[simp] theorem Dev.land_cfg (d : Dev) (l : Landing) : (d.land l).cfg = d.cfg := rfl
@[simp] theorem Dev.land_test (d : Dev) (l : Landing) : (d.land l).test = d.test := rfl
@[simp] theorem Dev.land_weft (d : Dev) (l : Landing) : (d.land l).weft = d.weft := rfl
@[simp] theorem Dev.land_bar2 (d : Dev) (l : Landing) : (d.land l).bar2 = d.bar2 := rfl

/-! ### landFor -/

@[simp] theorem Dev.landFor_part (d : Dev) (r : Req) (l : Landing) : (d.landFor r l).part = d.part := rfl
@[simp] theorem Dev.landFor_now (d : Dev) (r : Req) (l : Landing) : (d.landFor r l).now = d.now := rfl
@[simp] theorem Dev.landFor_fresh (d : Dev) (r : Req) (l : Landing) : (d.landFor r l).fresh = d.fresh := rfl
@[simp] theorem Dev.landFor_host (d : Dev) (r : Req) (l : Landing) : (d.landFor r l).host = d.host := rfl
@[simp] theorem Dev.landFor_tk (d : Dev) (r : Req) (l : Landing) : (d.landFor r l).tk = d.tk := rfl
@[simp] theorem Dev.landFor_spin (d : Dev) (r : Req) (l : Landing) : (d.landFor r l).spin = d.spin := rfl
@[simp] theorem Dev.landFor_recipes (d : Dev) (r : Req) (l : Landing) : (d.landFor r l).recipes = d.recipes := rfl
@[simp] theorem Dev.landFor_secs (d : Dev) (r : Req) (l : Landing) : (d.landFor r l).secs = d.secs := rfl
@[simp] theorem Dev.landFor_mapForce (d : Dev) (r : Req) (l : Landing) : (d.landFor r l).mapForce = d.mapForce := rfl
@[simp] theorem Dev.landFor_mapStaged (d : Dev) (r : Req) (l : Landing) : (d.landFor r l).mapStaged = d.mapStaged := rfl
@[simp] theorem Dev.landFor_strands (d : Dev) (r : Req) (l : Landing) : (d.landFor r l).strands = d.strands := rfl
@[simp] theorem Dev.landFor_skeins (d : Dev) (r : Req) (l : Landing) : (d.landFor r l).skeins = d.skeins := rfl
@[simp] theorem Dev.landFor_cells (d : Dev) (r : Req) (l : Landing) : (d.landFor r l).cells = d.cells := rfl
@[simp] theorem Dev.landFor_trims (d : Dev) (r : Req) (l : Landing) : (d.landFor r l).trims = d.trims := rfl
@[simp] theorem Dev.landFor_cut (d : Dev) (r : Req) (l : Landing) : (d.landFor r l).cut = d.cut := rfl
@[simp] theorem Dev.landFor_ply (d : Dev) (r : Req) (l : Landing) : (d.landFor r l).ply = d.ply := rfl
@[simp] theorem Dev.landFor_ref (d : Dev) (r : Req) (l : Landing) : (d.landFor r l).ref = d.ref := rfl
@[simp] theorem Dev.landFor_flt (d : Dev) (r : Req) (l : Landing) : (d.landFor r l).flt = d.flt := rfl
@[simp] theorem Dev.landFor_isl (d : Dev) (r : Req) (l : Landing) : (d.landFor r l).isl = d.isl := rfl
@[simp] theorem Dev.landFor_therm (d : Dev) (r : Req) (l : Landing) : (d.landFor r l).therm = d.therm := rfl
@[simp] theorem Dev.landFor_meter (d : Dev) (r : Req) (l : Landing) : (d.landFor r l).meter = d.meter := rfl
@[simp] theorem Dev.landFor_fram (d : Dev) (r : Req) (l : Landing) : (d.landFor r l).fram = d.fram := rfl
@[simp] theorem Dev.landFor_adcs (d : Dev) (r : Req) (l : Landing) : (d.landFor r l).adcs = d.adcs := rfl
@[simp] theorem Dev.landFor_clk (d : Dev) (r : Req) (l : Landing) : (d.landFor r l).clk = d.clk := rfl
@[simp] theorem Dev.landFor_eth (d : Dev) (r : Req) (l : Landing) : (d.landFor r l).eth = d.eth := rfl
@[simp] theorem Dev.landFor_cans (d : Dev) (r : Req) (l : Landing) : (d.landFor r l).cans = d.cans := rfl
@[simp] theorem Dev.landFor_pwr (d : Dev) (r : Req) (l : Landing) : (d.landFor r l).pwr = d.pwr := rfl
@[simp] theorem Dev.landFor_flash (d : Dev) (r : Req) (l : Landing) : (d.landFor r l).flash = d.flash := rfl
@[simp] theorem Dev.landFor_cfg (d : Dev) (r : Req) (l : Landing) : (d.landFor r l).cfg = d.cfg := rfl
@[simp] theorem Dev.landFor_test (d : Dev) (r : Req) (l : Landing) : (d.landFor r l).test = d.test := rfl
@[simp] theorem Dev.landFor_weft (d : Dev) (r : Req) (l : Landing) : (d.landFor r l).weft = d.weft := rfl
@[simp] theorem Dev.landFor_bar2 (d : Dev) (r : Req) (l : Landing) : (d.landFor r l).bar2 = d.bar2 := rfl

/-! ### setRaw -/

@[simp] theorem Dev.setRaw_part (d : Dev) (n : Nat) (b : Bool) : (d.setRaw n b).part = d.part := rfl
@[simp] theorem Dev.setRaw_now (d : Dev) (n : Nat) (b : Bool) : (d.setRaw n b).now = d.now := rfl
@[simp] theorem Dev.setRaw_fresh (d : Dev) (n : Nat) (b : Bool) : (d.setRaw n b).fresh = d.fresh := rfl
@[simp] theorem Dev.setRaw_host (d : Dev) (n : Nat) (b : Bool) : (d.setRaw n b).host = d.host := rfl
@[simp] theorem Dev.setRaw_tk (d : Dev) (n : Nat) (b : Bool) : (d.setRaw n b).tk = d.tk := rfl
@[simp] theorem Dev.setRaw_landing (d : Dev) (n : Nat) (b : Bool) : (d.setRaw n b).landing = d.landing := rfl
@[simp] theorem Dev.setRaw_spin (d : Dev) (n : Nat) (b : Bool) : (d.setRaw n b).spin = d.spin := rfl
@[simp] theorem Dev.setRaw_recipes (d : Dev) (n : Nat) (b : Bool) : (d.setRaw n b).recipes = d.recipes := rfl
@[simp] theorem Dev.setRaw_secs (d : Dev) (n : Nat) (b : Bool) : (d.setRaw n b).secs = d.secs := rfl
@[simp] theorem Dev.setRaw_mapForce (d : Dev) (n : Nat) (b : Bool) : (d.setRaw n b).mapForce = d.mapForce := rfl
@[simp] theorem Dev.setRaw_mapStaged (d : Dev) (n : Nat) (b : Bool) : (d.setRaw n b).mapStaged = d.mapStaged := rfl
@[simp] theorem Dev.setRaw_strands (d : Dev) (n : Nat) (b : Bool) : (d.setRaw n b).strands = d.strands := rfl
@[simp] theorem Dev.setRaw_skeins (d : Dev) (n : Nat) (b : Bool) : (d.setRaw n b).skeins = d.skeins := rfl
@[simp] theorem Dev.setRaw_cells (d : Dev) (n : Nat) (b : Bool) : (d.setRaw n b).cells = d.cells := rfl
@[simp] theorem Dev.setRaw_trims (d : Dev) (n : Nat) (b : Bool) : (d.setRaw n b).trims = d.trims := rfl
@[simp] theorem Dev.setRaw_cut (d : Dev) (n : Nat) (b : Bool) : (d.setRaw n b).cut = d.cut := rfl
@[simp] theorem Dev.setRaw_ply (d : Dev) (n : Nat) (b : Bool) : (d.setRaw n b).ply = d.ply := rfl
@[simp] theorem Dev.setRaw_ref (d : Dev) (n : Nat) (b : Bool) : (d.setRaw n b).ref = d.ref := rfl
@[simp] theorem Dev.setRaw_isl (d : Dev) (n : Nat) (b : Bool) : (d.setRaw n b).isl = d.isl := rfl
@[simp] theorem Dev.setRaw_therm (d : Dev) (n : Nat) (b : Bool) : (d.setRaw n b).therm = d.therm := rfl
@[simp] theorem Dev.setRaw_meter (d : Dev) (n : Nat) (b : Bool) : (d.setRaw n b).meter = d.meter := rfl
@[simp] theorem Dev.setRaw_fram (d : Dev) (n : Nat) (b : Bool) : (d.setRaw n b).fram = d.fram := rfl
@[simp] theorem Dev.setRaw_adcs (d : Dev) (n : Nat) (b : Bool) : (d.setRaw n b).adcs = d.adcs := rfl
@[simp] theorem Dev.setRaw_clk (d : Dev) (n : Nat) (b : Bool) : (d.setRaw n b).clk = d.clk := rfl
@[simp] theorem Dev.setRaw_eth (d : Dev) (n : Nat) (b : Bool) : (d.setRaw n b).eth = d.eth := rfl
@[simp] theorem Dev.setRaw_cans (d : Dev) (n : Nat) (b : Bool) : (d.setRaw n b).cans = d.cans := rfl
@[simp] theorem Dev.setRaw_pwr (d : Dev) (n : Nat) (b : Bool) : (d.setRaw n b).pwr = d.pwr := rfl
@[simp] theorem Dev.setRaw_flash (d : Dev) (n : Nat) (b : Bool) : (d.setRaw n b).flash = d.flash := rfl
@[simp] theorem Dev.setRaw_cfg (d : Dev) (n : Nat) (b : Bool) : (d.setRaw n b).cfg = d.cfg := rfl
@[simp] theorem Dev.setRaw_test (d : Dev) (n : Nat) (b : Bool) : (d.setRaw n b).test = d.test := rfl
@[simp] theorem Dev.setRaw_weft (d : Dev) (n : Nat) (b : Bool) : (d.setRaw n b).weft = d.weft := rfl
@[simp] theorem Dev.setRaw_bar2 (d : Dev) (n : Nat) (b : Bool) : (d.setRaw n b).bar2 = d.bar2 := rfl

end Sys2Proof.Machine
end

