-- ==== Sys2Proof/WellFormed.lean ====
section
/-!
DEFINITION. Which commands are well formed: the lists a message carries have the lengths its rule gives, and numbers fit
the fields that carry them. The meanings are total on every command; an ill-formed one is one that no sender of the spec
can send.
-/

namespace Sys2Proof

/-- A number fits a field of n bits. -/
def fitsIn (n v : Nat) : Bool := decide (v < 2 ^ n)

/-- A request carries at most words 2 to 15 (R410). -/
def Req.wf (r : Req) : Bool := decide (r.args.length ≤ 14)

/-- A read addresses at least one byte, all within the word (R9). -/
def ReadBytes.wf (b : ReadBytes) : Bool := decide (b.count ≠ 0) && decide (b.first.val + b.count.val ≤ 4)

/-- A short trip names each channel once (R204). -/
def tripsWf (first : Trip) (others : List Trip) : Bool := decide ((first :: others).map (·.chan)).Nodup

/-- A HELLO unit's numbers fit their fields (R218, R226). -/
def Hello.wf (h : Hello) : Bool :=
  fitsIn 3 h.pstate && fitsIn 13 h.tickSteps && fitsIn 13 h.guardLen && fitsIn 12 h.syncDelay && fitsIn 16 h.commitGuard

/-- A logged write carries a well-formed request (R219). -/
def LogEntry.wf (e : LogEntry) : Bool := e.req.wf

/-- A seal's log and unit count (R219). -/
def SealImage.wf (x : SealImage) : Bool := x.log.all LogEntry.wf && decide (x.flags.length ≤ 256)

/-- An accumulator of 48 bits with its wrap counter (R292). -/
def AccImage.wf (a : AccImage) : Bool := fitsIn 48 a.value && fitsIn 8 a.wrap

/-- A trailer's sections (R219). -/
def TrailerImage.wf (x : TrailerImage) : Bool :=
  x.accs.all AccImage.wf && decide (x.accs.length ≤ 136) && decide (x.encs.length ≤ 256) && decide (x.trims.length ≤ 32) && x.hello.wf

/-- A unit carries 64 bytes of data at a multiple of 64 (R217, R219). -/
def PlyUnit.wf : PlyUnit → Bool
  | .fill => true
  | .table off data _ => decide (data.length = 64) && decide (off.toNat % 64 = 0)
  | .seal x => x.wf
  | .trailer x => x.wf

/-- A write that carries a parameter or a field marked Mirrored, with a parameter that its command accepts (R237, R423 to R427). -/
def Machine.Landing.mirrored : Machine.Landing → Bool
  | .severity src sev => decide (src < 512) && decide (sev ≤ 5)
  | .stopTh v => decide (1 ≤ v) && decide (v ≤ 5)
  | .thermal row _ => decide (row < 7)
  | .strandFields k _ => fitsIn 8 k
  | .meterParam kind i _ => decide (kind ≤ 6) && decide (i < 136)
  | .pulseIn i _ _ _ => fitsIn 4 i
  | .pulseOut j _ _ => fitsIn 3 j
  | .adc c first words => decide (c ≤ 8) && decide (first = 0) && decide (words.length ≤ 4)
  | .port _ _ _ | .auxOut _ _ | .returnCell _ | .bulkRing _ _ _ _ | .trimEnAlign _ _ | .lockoutClear _ | .openClose _ _
  | .hold _ _ _ | .snapReq | .tbSet _ _ _ | .tbStep _ _ | .tbSlew _ _ | .tbRate _ _ | .tbState _ _ | .tbHoldLimit _ _
  | .tb2Lane _ _ | .ptp _ | .testMode _ | .loopback _ _ | .inject _ _ _ _ | .capture _ _ | .telemetry _ _ | .deepRest _
  | .wake _ => false

/-- A piece of the transfer image (R237). -/
def XferUnit.wf : XferUnit → Bool
  | .weft _ data => decide (data.length ≤ 64)
  | .inst _ ws lanes _ => decide (ws.length = 16) && decide (lanes.length ≤ 32)
  | .acc _ a => a.wf
  | .fields _ _ g => fitsIn 16 g
  | .param l => l.mirrored
  | .commit _ _ _ _ _ _ | .enc _ | .trim _ | .flags _ | .pulse _ _ => true
  | .bank _ _ | .coefs _ | .allocs _ | .trimStaged _ _ _ | .runBank _ | .map _ _ | .start _ _ _ _ _ | .channel _ _ _ | .slot _ _
  | .recipes _ _ _ _ | .sec _ _ | .derate _ _ | .meter _ _ => true

/-- An uplink has four header words and 27 control words, and a bulk segment at most what a frame has room for
(R172, R173). -/
def UplinkLine.wf (u : UplinkLine) : Bool :=
  decide (u.header.length = 4) && decide (u.control.length = 27) &&
  (match u.bulk with
   | none => true
   | some (h, ws, _) => decide ((h.extractLsb' 0 12).toNat = 4 * ws.length) && decide (4 * ws.length ≤ 2672))

/-- An Ethernet frame has its two addresses and its EtherType (R349). -/
def EthFrame.wf (f : EthFrame) : Bool := decide (14 ≤ f.body.length)

/-- A coordination frame has its four head words and its two tag words (R362). -/
def CoordFrame.wf (f : CoordFrame) : Bool := decide (6 ≤ f.words.length)

/-- A CAN frame carries at most 64 bytes, or 8 without FD, and a base identifier has 11 bits (R374). -/
def CanFrame.wf (f : CanFrame) : Bool :=
  decide (f.data.length ≤ if f.fd then 64 else 8) && (f.xtd || fitsIn 11 f.id.toNat) && !(f.fd && f.rmt) && (f.fd || !f.res)

/-- A PCIe write carries at most 256 bytes (R390), and only a QSPI address can select a space outside the table (R393). -/
def writeWf (m : Master) (space : Space) (more : Nat) : Bool :=
  (decide (more < 256) || !(m == .pcie0 || m == .pcie1)) &&
  match space with
  | .other c => m == .qspi && c != 0 && c != 2
  | _ => true

/-- One word a skein, of at most 16 skeins (R157). -/
def BoundaryIn.wf (b : BoundaryIn) : Bool := decide (b.sideband.length ≤ 16)

/-- Up to eight samples of each of up to 32 channels (R260). -/
def IslandIn.wf (i : IslandIn) : Bool := decide (i.sense.length ≤ 32) && i.sense.all (fun l => decide (l.length ≤ 8))

/-- A temperature of 16 bits, in 1/128 °C (R282). -/
def tempWf (t : Int) : Bool := decide (-32768 ≤ t) && decide (t ≤ 32767)

/-- A well-formed command: its request, its message, or nothing beyond its types. -/
def Instr.wf : Instr → Bool
  | .nop r | .info r | .query r | .severity r | .stopTh r | .thermal r | .cutMatrix r | .cutGroup r | .cut r
  | .cutRelease r | .port r | .deviceReset r | .mapLoad r | .mapRead r | .sectionStatus r | .encoder r | .strand r
  | .auxOut r | .returnCell r | .deepRest r | .wake r | .endpointCmd r | .bulkRing r | .recipeLoad r | .chanStage r
  | .localOffset r | .scale r | .dlTimeout r | .target r | .report r | .trim r | .trimPair r | .trimStage r
  | .trimDriver r | .lockoutClear r | .coefWrite r | .coefRead r | .openClose r | .hold r | .flagClear r
  | .coefStage r | .allocStage r | .plyStart r | .claimStart r | .refereeTick r | .refereeStart r | .meterParam r
  | .pulseIn r | .pulseOut r | .meterClear r | .adc r | .adcUrgent r | .adcCal r | .adcCoef r | .safetyLoad r
  | .safetyConfirm r | .zoneRequest r | .resetArm r | .safetyStatus r | .arm r | .abort r | .tickConfig r
  | .warpLoad r | .seqStart r | .unstage r | .tbSet r | .tbStep r | .tbSlew r | .tbRate r | .tbState r
  | .tbHoldLimit r | .tb2Lane r | .ptp r | .frameSend r | .testMode r | .loopback r | .inject r | .capture r
  | .telemetry r | .fwStage r | .fwActivate r => r.wf
  | .shortTrip t ts => tripsWf t ts
  | .hello h => h.wf
  | .plyUnit u => u.unit.wf
  | .xferUnit _ u => u.unit.wf
  | .uplinkFrame _ f => f.wf
  | .frameReceive _ f => f.wf
  | .coordinationFrame _ f => f.wf
  | .canFrameReceived _ f => f.wf
  | .resetRelease x _ _ => decide (x.back.length ≤ 14)
  | .registerWrite m space _ _ rest => writeWf m space rest.length
  | .tickBoundary b => b.wf
  | .firstBoundary b => b.wf
  | .sensorSample l => decide (l.length = 16) && l.all tempWf
  | .islandCycle i => i.wf
  | .testPulse _ l => decide (l.a.length = 8) && decide (l.b.length = 8)
  | .tickLoRead m | .tbRecordRead m _ | .entry0Read m _ | .entry3Read m _ | .bufferLockRead m _ _
  | .bufferReleaseRead m _ _ _ | .fwdDataPop m _ | .backDataPop m _ => m.bytes.wf
  | .longRunningComplete _ | .cutFire _ _ | .statusClear _ _ _ | .hankAck _ _ | .feValidClear _ _
  | .snapReq _ _ | .tbSnapReq _ _
  | .lockedForceRelease _ _ _ _ | .rxqRelease _ _ _ _ | .txPush _ _ _ | .txFlush _ _ _
  | .configSet _ _ _ | .configClear _ _ _ | .busIntegration _ | .goPost _ _ | .goWithdraw _ _ | .pick _ _
  | .land _ _ | .doneSet _ _ | .bindLock _ | .fwdDataPush _ _ _ | .backDataPush _ _ _
  | .intCauseClear _ _ | .qspiStatus | .vaonPowerOn | .vsafePowerOn | .islandSelfTest _
  | .supplyOutOfRange _ | .supplyDomainOn _ | .supplyDomainOff _ | .resetN | .collapse _
  | .firmwareWatchdogReset | .perstN | .functionLevelReset _ | .pcieLinkDown | .firmwareStart | .cutIn | .plyCutIn
  | .cutSymbols _ | .strandSourceEnd _ | .stuck _ _ | .bstUv _ | .bstUvRelease _ | .prechargeEnd _ | .maskApply _
  | .trimEvt _ _ | .grant | .resync | .claim | .yieldClaim | .trimOwnershipTake | .ownershipWait | .plyJoin
  | .xferEnd _ | .xferTimeout | .comparedTicksDone | .plyLinkLock | .plyLinkAlign | .plyLinkError | .plyLinkRestart
  | .helloTimer | .helloAbsent | .imageDeadline | .aliveEdge _ | .healthReportReceived _ _ _ _ _ | .aliveOkLost _
  | .reportOkLost _ | .tickSyncIn _ | .refLost | .refValid _ _ | .pllLocked _ | .lockClear _ | .acquireTimeout _
  | .holdLimitExpiry _ | .receiverDetection _ _ | .bitLock _ | .trainTimeout _ | .symbolLock _ | .lockTimeout _
  | .capabilityFrame _ _ _ _ _ _ | .capsTimeout _ | .symbolLockLost _ | .deepSymbols _ | .clusterPllUnlock _
  | .clusterPllLock _ | .restEntry _ | .restExit _ | .ethLinkUp _ | .ethLinkDown _ | .ptpServoHoldover _
  | .launch _ | .lpiEntry _ | .epochReport _ | .attemptEnd _ _ | .busOffRecovery _ | .tickPeriodEnd | .fbTimeExpiry
  | .preTimeout | .syncTimeout | .feedbackDisagree | .guardWindow _ | .intakeEntry _ | .spinEntry _ _
  | .allocEntry _ | .meterEntry _ | .deliverEntry _ | .copyEntry _ | .xdieEntry _ | .captureEntry _
  | .mirrorEntry _ | .tickOverrun _ | .recipeStep _ | .thermalStepTick | .soloExpired
  | .outputTest _ _ _ | .pendingDrop | .armedExpiry _ | .meterImageLatch | .imageWriteDone _
  | .pulseInputChange _ _ | .pulseInputStuck _ | .overRateWindow | .pulseOutputStart _ | .conversionEnd _ _
  | .hankEntry | .cutInDeassert | .plyCutInDeassert | .trimPeriodEnd _ | .trimDutyEnd _ | .oppositeGateFall _ _
  | .returnSlewEnd _ | .pulseOutputEnd _ | .oddConversionStart _ | .canReceiveError _ _ _ | .telemetrySend
  | .watchdogExpiry | .lockstepMismatch _ | .closeRecordWritten | .vsafeLoss | .powerStateChange _ _
  | .qspiProtocolError | .prbsCheckerLock _ _ | .prbsCheckerLockLost _ _ | .grantHoldoffExpiry => true

end Sys2Proof
end

