-- ==== Sys2Proof/Safety.lean ====
section
/-!
DEFINITION. What a safe run of the block is, in the terms claims use: the canonical form of its addressed memories, runs
that no step stops, and what claims call a served request and a served access.
-/

namespace Sys2Proof.Safety

open Sys2Proof.Machine

/-- The addressed memories, the weft region (R40) and the BAR2 window (R395), are in canonical form. -/
def memOk (s : State) : Bool := Memory.wf s.dev.weft && Memory.wf s.dev.bar2

/-- The commands that wait are well formed. -/
def queueOk (s : State) : Bool := s.pending.all Instr.wf

/-- A step answered a next state. -/
def goesOn : Host.Outcome State Fault Refusal → Prop
  | .next _ => True
  | .fault _ => False
  | .refused _ => False

/-- Every one of the first k steps from s answers a next state. -/
def runs : Nat → State → Prop
  | 0, _ => True
  | k + 1, s => ∃ t, step s = .next t ∧ runs k t

/-- The main logic is out of reset (R436). -/
abbrev Live (s : State) : Prop := s.dev.pwr.held = false

/-- The state with another device and the same queue. -/
def withDev (s : State) (d : Dev) : State := { s with dev := d }

/-- A request that the firmware carries out: the main logic runs, the firmware is ready (R389), the request is no repeat
(R413), no other message stands on its channel (R402, R410), neither the binding (R398), the reserved bits (R410) nor the
role and state of a ply member (R430) refuses it, and it need not wait for the end of a ply active's guard window (R432). -/
abbrev Served (op : Nat) (read : Bool) (r : Req) (s : State) : Prop :=
  s.dev.pwr.held = false ∧ s.dev.host.bootStage = 3 ∧ s.dev.storedReply r = none ∧ s.dev.refusal op read r = none ∧
    s.dev.defers op read = false ∧ s.dev.carries op r = true

/-- The state after a request is served whose reply is p and whose own effect leaves the device d: the reply is given, by
a ply active once the write is sealed (R411, R413, R432), and an active's log takes the write (R219). -/
def taken (op : Nat) (read : Bool) (r : Req) (p : Rep) (d : Dev) (s : State) : State :=
  withDev s ((d.give op read r p).logWrite op read r p)

/-- A register access of a master reaches the register: the main logic runs, the port is awake (R392) and the access table
permits the write (R397). -/
abbrev MayWrite (m : Master) (block : Nat) (s : State) : Prop :=
  s.dev.pwr.held = false ∧ s.dev.asleep m = false ∧ s.dev.mayWrite m block = true

/-- A register read of a master reaches the register (R392, R397). -/
abbrev MayRead (m : Master) (s : State) : Prop := s.dev.pwr.held = false ∧ s.dev.asleep m = false

/-- A write of a mailbox channel's control by the identity that the locked binding gives that side (R398, R399). -/
abbrev BoxSide (m : Master) (ch : Fin 32) (side : Chan → Nat) (s : State) : Prop :=
  s.dev.pwr.held = false ∧ s.dev.asleep m = false ∧ s.dev.host.bindLocked = true ∧ (s.dev.boxOf ch.val).valid = true ∧
    side (s.dev.boxOf ch.val) = masterId m

/-- A long-running command finds a free place and its object under none (R416, R431). -/
abbrev LongFree (op : Nat) (r : Req) (d : Dev) : Prop :=
  d.running.length < 8 ∧ d.underRun op r = false

/-- A long-running command among those that run (R416). -/
def begun (op : Nat) (r : Req) (d : Dev) : Dev :=
  { d with host := { d.host with longs := d.host.longs ++ [{ op := op, req := r, state := .running }] } }

/-- Commands that act while the main logic is held in reset: the supplies, the resets and their end (R436, R451), and the
safety island on its own supply (R258). -/
def runsHeld : Instr → Bool
  | .vaonPowerOn => true
  | .vsafePowerOn => true
  | .islandSelfTest _ => true
  | .supplyOutOfRange _ => true
  | .supplyDomainOn _ => true
  | .supplyDomainOff _ => true
  | .resetN => true
  | .resetRelease _ _ _ => true
  | .collapse _ => true
  | .refLost => true
  | .refValid _ _ => true
  | .islandCycle _ => true
  | .soloExpired => true
  | .testPulse _ _ => true
  | .outputTest _ _ _ => true
  | .pendingDrop => true
  | .armedExpiry _ => true
  | .imageWriteDone _ => true
  | .closeRecordWritten => true
  | .vsafeLoss => true
  | _ => false

/-- The opcode, the direction (true for a read) and the request of an Iapin command (R422 to R429). -/
def requestOf : Instr → Option (Nat × Bool × Req)
  | .nop r => some (0x0000, true, r)
  | .info r => some (0x0001, true, r)
  | .query r => some (0x0002, true, r)
  | .severity r => some (0x0010, false, r)
  | .stopTh r => some (0x0011, false, r)
  | .thermal r => some (0x0012, false, r)
  | .cutMatrix r => some (0x0020, !r.write, r)
  | .cutGroup r => some (0x0021, !r.write, r)
  | .cut r => some (0x0022, false, r)
  | .cutRelease r => some (0x0023, false, r)
  | .port r => some (0x0030, !r.write, r)
  | .deviceReset r => some (0x00FE, false, r)
  | .mapLoad r => some (0x0101, false, r)
  | .mapRead r => some (0x0102, true, r)
  | .sectionStatus r => some (0x0103, !r.write, r)
  | .encoder r => some (0x0104, !r.write, r)
  | .strand r => some (0x0105, !r.write, r)
  | .auxOut r => some (0x0106, false, r)
  | .returnCell r => some (0x0107, false, r)
  | .deepRest r => some (0x0108, false, r)
  | .wake r => some (0x0109, false, r)
  | .endpointCmd r => some (0x010A, false, r)
  | .bulkRing r => some (0x010B, false, r)
  | .recipeLoad r => some (0x0201, false, r)
  | .chanStage r => some (0x0202, false, r)
  | .localOffset r => some (0x0203, false, r)
  | .scale r => some (0x0204, false, r)
  | .dlTimeout r => some (0x0205, false, r)
  | .target r => some (0x0206, true, r)
  | .report r => some (0x0207, true, r)
  | .trim r => some (0x0208, !r.write, r)
  | .trimPair r => some (0x0209, false, r)
  | .trimStage r => some (0x020A, false, r)
  | .trimDriver r => some (0x020B, !r.write, r)
  | .lockoutClear r => some (0x020C, false, r)
  | .coefWrite r => some (0x0301, false, r)
  | .coefRead r => some (0x0302, true, r)
  | .openClose r => some (0x0303, false, r)
  | .hold r => some (0x0304, false, r)
  | .flagClear r => some (0x0305, false, r)
  | .coefStage r => some (0x0306, false, r)
  | .allocStage r => some (0x0307, false, r)
  | .plyStart r => some (0x0401, false, r)
  | .claimStart r => some (0x0402, false, r)
  | .refereeTick r => some (0x0403, false, r)
  | .refereeStart r => some (0x0404, false, r)
  | .meterParam r => some (0x0501, false, r)
  | .pulseIn r => some (0x0502, false, r)
  | .pulseOut r => some (0x0503, false, r)
  | .meterClear r => some (0x0504, false, r)
  | .adc r => some (0x0505, !r.write, r)
  | .adcUrgent r => some (0x0506, false, r)
  | .adcCal r => some (0x0507, false, r)
  | .adcCoef r => some (0x0508, true, r)
  | .safetyLoad r => some (0x0601, false, r)
  | .safetyConfirm r => some (0x0602, false, r)
  | .zoneRequest r => some (0x0603, false, r)
  | .resetArm r => some (0x0604, false, r)
  | .safetyStatus r => some (0x0605, true, r)
  | .arm r => some (0x0701, false, r)
  | .abort r => some (0x0702, false, r)
  | .tickConfig r => some (0x0703, false, r)
  | .warpLoad r => some (0x0704, false, r)
  | .seqStart r => some (0x0705, false, r)
  | .unstage r => some (0x0706, false, r)
  | .tbSet r => some (0x0710, false, r)
  | .tbStep r => some (0x0710, false, r)
  | .tbSlew r => some (0x0710, false, r)
  | .tbRate r => some (0x0710, false, r)
  | .tbState r => some (0x0710, false, r)
  | .tbHoldLimit r => some (0x0710, false, r)
  | .tb2Lane r => some (0x0711, false, r)
  | .ptp r => some (0x0712, false, r)
  | .frameSend r => some (0x0713, false, r)
  | .testMode r => some (0x0801, false, r)
  | .loopback r => some (0x0802, false, r)
  | .inject r => some (0x0803, false, r)
  | .capture r => some (0x0804, false, r)
  | .telemetry r => some (0x0805, false, r)
  | .fwStage r => some (0x0F01, false, r)
  | .fwActivate r => some (0x0F02, false, r)
  | _ => none

/-- The master and the access-table block of a write that only the table guards (R397). -/
def writeOf : Instr → Option (Master × Nat)
  | .cutFire m _ => some (m, 0)
  | .statusClear m _ _ => some (m, 1)
  | .hankAck m _ => some (m, 1)
  | .feValidClear m _ => some (m, 1)
  | .snapReq m _ => some (m, 2)
  | .tbSnapReq m _ => some (m, 4)
  | .lockedForceRelease m _ _ _ => some (m, canBlock)
  | .rxqRelease m _ _ _ => some (m, canBlock)
  | .txPush m _ _ => some (m, canBlock)
  | .txFlush m _ _ => some (m, canBlock)
  | .configSet m _ _ => some (m, canBlock)
  | .configClear m _ _ => some (m, canBlock)
  | .intCauseClear m _ => some (m, 0)
  | _ => none

/-- The access-table block that a word of BAR0 belongs to (R397). -/
def guardBlock (off : Nat) : Option Nat :=
  if off < 0x10000 then some 0
  else if 0x30000 ≤ off ∧ off < 0x40000 then some 1
  else if 0x40000 ≤ off ∧ off < 0x50000 then some 2
  else if 0x50000 ≤ off ∧ off < 0x60000 then some canBlock
  else if 0x100000 ≤ off ∧ off < 0x140000 then some canBlock
  else if 0x200000 ≤ off ∧ off < 0x210000 then some 4
  else none

end Sys2Proof.Safety
end

