-- ==== Sys2Proof/Certificates/Slice0/Obligations.lean ====
section
/-!
DEFINITION. The statements for the provers.
-/

open Sys2Proof Sys2Proof.Machine Sys2Proof.Safety


/-- NOP, INFO and the end of a long-running command (R80, R411, R416, R422, R432). The model's choices: the end of a load in
the guard window of a ply active waits for the next tick (log entries 38 and 96). -/
def Obligations.SystemCommandsAnswer : Prop :=
  (∀ (s : State) (r : Req), Served 0x0000 true r s → exec (.nop r) s =
      .next (taken 0x0000 true r (.ok (fit 14 0 r.args)) s.dev s)) ∧
  (∀ (s : State) (r : Req), Served 0x0001 true r s → exec (.info r) s =
      .next (taken 0x0001 true r (.ok [s.dev.host.fwVersion, pack [(0, roleCode s.dev.ply.role), (4, s.dev.ply.pstate.code)],
      word s.dev.host.bootStage]) s.dev s)) ∧
  (∀ (s : State) (slot : Fin 8) (x : LongRun) (q : Rep × Dev), Live s → s.dev.running[slot.val]? = some x →
      s.dev.endWaits x = false → s.dev.defersEnd x = false → s.dev.finish x.op x.req = some q →
      exec (.longRunningComplete slot) s = .next (withDev s (q.2.completeLong x q.1))) ∧
  (∀ (s : State) (slot : Fin 8) (x : LongRun), Live s → s.dev.running[slot.val]? = some x →
      s.dev.endWaits x = false → s.dev.defersEnd x = true → exec (.longRunningComplete slot) s = .next (withDev s
      { s.dev with ply := { s.dev.ply with deferred := s.dev.ply.deferred ++ [{ op := x.op, req := x.req, ends := true }] } }))

/-- SEVERITY, STOP_TH and THERMAL are taken and wait for the boundary (R16, R242, R285, R411, R422). -/
def Obligations.FaultSettingsLandAtTick : Prop :=
  (∀ (s : State) (r : Req) (dflt lo : Nat), Served 0x0010 false r s →
      sevDefault (bits (arg r 2) 8 0) = some (dflt, lo) → lo ≤ bits (arg r 3) 2 0 → bits (arg r 3) 2 0 ≤ 5 →
      exec (.severity r) s = .next (taken 0x0010 false r (.ok [s.dev.landTickOf (.severity (bits (arg r 2) 8 0) (bits (arg r 3) 2 0))]) 
      (s.dev.landFor r (.severity (bits (arg r 2) 8 0) (bits (arg r 3) 2 0))) s)) ∧
  (∀ (s : State) (r : Req), Served 0x0011 false r s → 1 ≤ bits (arg r 2) 2 0 → bits (arg r 2) 2 0 ≤ 5 →
      exec (.stopTh r) s =
      .next (taken 0x0011 false r (.ok [s.dev.landTickOf (.stopTh (bits (arg r 2) 2 0))]) (s.dev.landFor r (.stopTh (bits (arg r 2) 2 0))) s)) ∧
  (∀ (s : State) (r : Req) (lo hi : Int), Served 0x0012 false r s → thermalRange (bits (arg r 2) 2 0) = some (lo, hi) →
      lo ≤ sval (arg r 3) → sval (arg r 3) ≤ hi → exec (.thermal r) s =
      .next (taken 0x0012 false r (.ok [s.dev.landTickOf (.thermal (bits (arg r 2) 2 0) (sval (arg r 3)))]) 
      (s.dev.landFor r (.thermal (bits (arg r 2) 2 0) (sval (arg r 3)))) s))

/-- STATUS_CLEAR, HANK_ACK, FE_VALID, the hank's entry, the watchdog and the thermal ticks (R241, R243, R245, R248,
R249, R250, R252, R256, R282, R286, R289, R439). -/
def Obligations.FaultAccessesAct : Prop :=
  (∀ (s : State) (m : Master) (w : Fin 16) (v : Word), MayWrite m 1 s → exec (.statusClear m w v) s =
      .next (withDev s (forEach (maskBits 32 v.toNat) (fun b d => d.clearStatus (32 * w.val + b)) s.dev))) ∧
  (∀ (s : State) (m : Master) (v : Word) (left : Nat), MayWrite m 1 s →
      left = (s.dev.flt.lastSeq + 65536 - bits v 31 16) % 65536 → exec (.hankAck m v) s =
      .next (withDev s { s.dev with flt := { s.dev.flt with
      hankAck := bits v 31 16, hankCount := min s.dev.flt.hankCount left } })) ∧
  (∀ (s : State) (m : Master) (v : Word), MayWrite m 1 s → exec (.feValidClear m v) s =
      .next (withDev s (if bit v 31 then { s.dev with flt := { s.dev.flt with fe := none } } else s.dev))) ∧
  (∀ (s : State) (x : HankRec) (rest : List HankRec) (q : Nat), Live s → s.dev.flt.queue = x :: rest →
      q = (s.dev.flt.lastSeq + 1) % 65536 → exec (.hankEntry) s =
      .next (withDev s { s.dev with flt := { s.dev.flt with
      queue := rest, lastSeq := q, slots := tblSet {} s.dev.flt.slots (q % 32) { x with seq := q }
      hankOvf := if 32 ≤ s.dev.flt.hankCount then satInc 16 s.dev.flt.hankOvf else s.dev.flt.hankOvf
      hankCount := min 32 (s.dev.flt.hankCount + 1) } })) ∧
  (∀ (s : State), Live s → exec (.watchdogExpiry) s =
      .next (withDev s ({ s.dev with pwr := { s.dev.pwr with wdogAt := some s.dev.now } }.event 0x0C0 0))) ∧
  (∀ (s : State), Live s → s.dev.isStepTick = true → exec (.thermalStepTick) s =
      .next (withDev s s.dev.stepTick.limitNow)) ∧
  (∀ (s : State) (readings : List Int), Live s → (s.dev.sampleSensors readings).therm.shutdown = false →
      (∀ i < 16, (tblGet {} (s.dev.sampleSensors readings).therm.sensors i).overRun < 2) →
      exec (.sensorSample readings) s = .next (withDev s (s.dev.sampleSensors readings))) ∧
  (∀ (s : State) (readings : List Int) (n : Nat), Live s → (s.dev.sampleSensors readings).therm.shutdown = false →
      (List.range 16).find? (fun i => decide (2 ≤ (tblGet {} (s.dev.sampleSensors readings).therm.sensors i).overRun)) = some n → exec (.sensorSample readings) s = .next (withDev s ((s.dev.sampleSensors readings).shutDown n)))

/-- Every cut source fires the groups of its own matrix row (R188, R189, R190, R194, R195, R201, R458). -/
def Obligations.CutSourcesFireTheirRows : Prop :=
  (∀ (s : State), Live s → s.dev.cut.cutIn = false → exec (.cutIn) s =
      .next (withDev s (({ s.dev with cut := { s.dev.cut with cutIn := true } }).fire 3 0 (s.dev.matrixRow 257)))) ∧
  (∀ (s : State), Live s → exec (.cutInDeassert) s =
      .next (withDev s { s.dev with cut := { s.dev.cut with cutIn := false } })) ∧
  (∀ (s : State), Live s → s.dev.cut.plyCutIn = false → exec (.plyCutIn) s = .next (withDev s 
      (({ s.dev with cut := { s.dev.cut with plyCutIn := true } }).fire 4 0 (s.dev.matrixRow 258)))) ∧
  (∀ (s : State), Live s → exec (.plyCutInDeassert) s =
      .next (withDev s { s.dev with cut := { s.dev.cut with plyCutIn := false } })) ∧
  (∀ (s : State) (k : Fin 256), Live s → k.val < s.dev.strandCount → (s.dev.strandOf k.val).state.hearsCut = true →
      (s.dev.strandOf k.val).cutSrc = false → s.dev.underTest 0 k.val = false → exec (.cutSymbols k) s =
      .next (withDev s ((s.dev.modStrand k.val (fun x => { x with cutSrc := true })).fire 1 k.val
      (s.dev.matrixRow k.val)))) ∧
  (∀ (s : State) (k : Fin 256), Live s → s.dev.underTest 0 k.val = true → exec (.cutSymbols k) s = .next (withDev s s.dev)) ∧
  (∀ (s : State) (k : Fin 256), Live s → exec (.strandSourceEnd k) s =
      .next (withDev s (s.dev.modStrand k.val (fun x => { x with cutSrc := false })))) ∧
  (∀ (s : State) (m : Master) (v : Word), MayWrite m 0 s → exec (.cutFire m v) s =
      .next (withDev s (s.dev.cutFire (bits v 15 0)))) ∧
  (∀ (s : State) (r : Req) (d : Dev), Served 0x0022 false r s → d = s.dev.fire 5 0 (bits (arg r 2) 15 0) →
      exec (.cut r) s = .next (taken 0x0022 false r (.ok [d.nowTick]) d s))

/-- CUT_MATRIX, CUT_GROUP and CUT_RELEASE (R189, R195, R411, R412). The model's choice: a matrix write fires nothing for a
source that is asserted already (log entry 170). -/
def Obligations.CutTablesAndRelease : Prop :=
  (∀ (s : State) (r : Req) (f : RecForm), Served 0x0020 true r s → r.write = false → recForm r 260 1 = some f →
      exec (.cutMatrix r) s = .next (taken 0x0020 true r (f.readReply r [word (s.dev.matrixRow f.index)]) s.dev s)) ∧
  (∀ (s : State) (r : Req) (f : RecForm), Served 0x0020 false r s → r.write = true → recForm r 260 1 = some f →
      (f.index < 256 → f.index < s.dev.strandCount) → s.dev.tk.seqRun = false → exec (.cutMatrix r) s =
      .next (taken 0x0020 false r (.ok [0]) 
      { s.dev with cut := { s.dev.cut with matrix := tblSet 0xFFFF s.dev.cut.matrix f.index (bits (f.wordOr 0 0) 15 0) } } s)) ∧
  (∀ (s : State) (r : Req) (f : RecForm), Served 0x0020 false r s → r.write = true → recForm r 260 1 = some f →
      f.index < 256 → s.dev.strandCount ≤ f.index → exec (.cutMatrix r) s =
      .next (taken 0x0020 false r (.badArg 2) s.dev s)) ∧
  (∀ (s : State) (r : Req) (f : RecForm), Served 0x0020 false r s → r.write = true → recForm r 260 1 = some f →
      (f.index < 256 → f.index < s.dev.strandCount) → s.dev.tk.seqRun = true →
      exec (.cutMatrix r) s = .next (taken 0x0020 false r (.wrongState 1) s.dev s)) ∧
  (∀ (s : State) (r : Req) (f : RecForm), Served 0x0021 false r s → r.write = true → recForm r 16 10 = some f →
      s.dev.tk.seqRun = true → exec (.cutGroup r) s = .next (taken 0x0021 false r (.wrongState 1) s.dev s)) ∧
  (∀ (s : State) (r : Req) (f : RecForm), Served 0x0021 true r s → r.write = false → recForm r 16 10 = some f →
      exec (.cutGroup r) s = .next (taken 0x0021 true r (f.readReply r (s.dev.groupWords f.index)) s.dev s)) ∧
  (∀ (s : State) (r : Req) (f : RecForm) (d : Dev), Served 0x0021 false r s → r.write = true →
      recForm r 16 10 = some f → s.dev.tk.seqRun = false → d = Dev.regroup { s.dev with cut := { s.dev.cut with
      groups := tblSet {} s.dev.cut.groups f.index ((s.dev.groupOf f.index).write f) } } → exec (.cutGroup r) s = .next (taken 0x0021 false r (.ok [d.nowTick]) d s)) ∧
  (∀ (s : State) (r : Req), Served 0x0023 false r s → s.dev.assertedGroups &&& bits (arg r 2) 15 0 = 0 →
      exec (.cutRelease r) s = .next (taken 0x0023 false r 
      (.ok [if s.dev.tk.seqRun then word (s.dev.tk.tick + 1 + s.dev.releaseSkip) else 0]) 
      { s.dev with cut := { s.dev.cut with releases := s.dev.cut.releases ++
        [(bits (arg r 2) 15 0, s.dev.acceptedNow (b1 s.dev.inGuard))] } } s)) ∧
  (∀ (s : State) (r : Req), Served 0x0023 false r s → s.dev.assertedGroups &&& bits (arg r 2) 15 0 ≠ 0 →
      exec (.cutRelease r) s = .next (taken 0x0023 false r (.wrongState 2) s.dev s))

/-- ARM, ABORT, UNSTAGE and the TICK_LO read (R9, R52, R54, R55, R56, R60, R86, R429). -/
def Obligations.ModeCommitCommands : Prop :=
  (∀ (s : State) (r : Req), Served 0x0701 false r s → bits (arg r 5) 31 6 = 0 →
      s.dev.armRefusal (arg r 2).toNat (join48 (arg r 3) (arg r 4)) (arg r 5).toNat (bit (arg r 6) 0) = none →
      exec (.arm r) s = .next (taken 0x0701 false r 
      (s.dev.judgeReply { status := 0, result := 1 }) 
      { s.dev with tk := { s.dev.tk with
        commit := .armed, epoch := arg r 2, target := join48 (arg r 3) (arg r 4), set := (arg r 5).toNat
        campus := bit (arg r 6) 0 }, recipes := { s.dev.recipes with armed := s.dev.recipes.staged } } s)) ∧
  (∀ (s : State) (r : Req) (reason status : Nat), Served 0x0701 false r s → bits (arg r 5) 31 6 = 0 →
      s.dev.armRefusal (arg r 2).toNat (join48 (arg r 3) (arg r 4)) (arg r 5).toNat (bit (arg r 6) 0) = some (reason, status) → exec (.arm r) s = .next (taken 0x0701 false r 
      (s.dev.judgeReply { status := status, reason := reason }) s.dev s)) ∧
  (∀ (s : State) (r : Req), Served 0x0702 false r s → s.dev.tk.commit = .idle → exec (.abort r) s =
      .next (taken 0x0702 false r (s.dev.judgeReply { status := 0, result := 3 }) s.dev s)) ∧
  (∀ (s : State) (r : Req), Served 0x0702 false r s → s.dev.tk.commit = .armed → s.dev.tk.epoch = arg r 2 →
      s.dev.tk.tick + s.dev.tk.commitGuard < s.dev.tk.target → exec (.abort r) s = .next (taken 0x0702 false r 
      (s.dev.judgeReply { status := 0, result := 2 }) 
      { s.dev with tk := { s.dev.tk with commit := .idle, epoch := 0, target := 0, set := 0, campus := false } } s)) ∧
  (∀ (s : State) (r : Req), Served 0x0702 false r s → s.dev.tk.commit = .armed → s.dev.tk.epoch ≠ arg r 2 →
      exec (.abort r) s = .next (taken 0x0702 false r (s.dev.judgeReply { status := 0x0102 }) s.dev s)) ∧
  (∀ (s : State) (r : Req), Served 0x0702 false r s →
      (s.dev.tk.commit = .armed ∧ s.dev.tk.epoch = arg r 2 ∧ s.dev.tk.target ≤ s.dev.tk.tick + s.dev.tk.commitGuard ∨
      s.dev.tk.commit = .committed) → exec (.abort r) s = .next (taken 0x0702 false r 
      (s.dev.judgeReply { status := 0x0103, result := 4 }) s.dev s)) ∧
  (∀ (s : State) (r : Req) (d : Dev), Served 0x0706 false r s → (arg r 2).toNat < 64 →
      (s.dev.tk.commit = .idle ∨ s.dev.tk.set &&& (arg r 2).toNat = 0) → (nbit (arg r 2).toNat 0 = true →
      s.dev.tk.seqRun = true) → d = s.dev.dropStaged (arg r 2).toNat → exec (.unstage r) s =
      .next (taken 0x0706 false r (.ok [d.nowTick]) d s)) ∧
  (∀ (s : State) (m : Master) (b : ReadBytes), MayRead m s → exec (.tickLoRead ⟨m, b⟩) s =
      .next (withDev s (({ s.dev with tk := { s.dev.tk with
      tickHiCap := s.dev.tk.tick / 2 ^ 32 % 65536, appliedTickHiCap := s.dev.tk.appliedTick / 2 ^ 32 % 65536
      targetHiCap := s.dev.tk.target / 2 ^ 32 % 65536 } }).giveBytes b (word s.dev.tk.tick))))

/-- Generator events, masks and event pins of the trim channels (R142, R146, R148, R149, R203). -/
def Obligations.TrimGeneratorEvents : Prop :=
  (∀ (s : State) (n : Fin 32) (d : Dev), Live s → (s.dev.trimOf n.val).en = true →
      d = s.dev.advanceUntil ((s.dev.trimOf n.val).start + (s.dev.trimOf n.val).period) → exec (.trimPeriodEnd n) s =
      .next (withDev s 
      (d.modDrive n.val (fun t => t.startPeriod (d.now - (d.now - t.start) % t.period))))) ∧
  (∀ (s : State) (n : Fin 32), Live s → (s.dev.trimOf n.val).en = true → (s.dev.trimOf n.val).out = true →
      (s.dev.trimOf n.val).duty < 64 * (s.dev.trimOf n.val).period → exec (.trimDutyEnd n) s = .next (withDev s 
      ((s.dev.advanceUntil ((s.dev.trimOf n.val).start + ((s.dev.trimOf n.val).duty + 63) / 64)).modDrive n.val
        (fun t => { t with out := false })))) ∧
  (∀ (s : State) (n : Fin 32), Live s → (s.dev.trimOf n.val).waitsFor 0 s.dev.now = true →
      s.dev.tk.seqRun = true → s.dev.now = s.dev.tk.tickStart → exec (.maskApply ⟨n, false⟩) s = .next (withDev s 
      (s.dev.modDrive n.val (fun t => t.applyMask 0 s.dev.now)))) ∧
  (∀ (s : State) (n : Fin 32) (z : Nat) (d : Dev), Live s → s.dev.now ≠ s.dev.tk.tickStart →
      tblGet 0 s.dev.tk.zcNow (s.dev.trimOf n.val).zcArm = z + 1 → 64 * s.dev.now ≤ z →
      (s.dev.trimOf n.val).waitsFor 1 (z / 64) = true → d = s.dev.advanceUntil (z / 64) →
      exec (.maskApply ⟨n, false⟩) s = .next (withDev s (d.modDrive n.val (fun t => t.applyMask 1 d.now)))) ∧
  (∀ (s : State) (n : Fin 32) (bothOn : Bool), Live s → (s.dev.trimOf n.val).maskPending = false →
      (s.dev.trimOf n.val).pendWas = none → exec (.maskApply ⟨n, bothOn⟩) s = .next (withDev s s.dev)) ∧
  (∀ (s : State) (n : Fin 32) (e : Nat) (d : Dev), Live s → s.dev.maskEvent (s.dev.trimOf n.val) = some (e, d) →
      exec (.maskApply ⟨n, true⟩) s = .next (withDev s 
      ((d.modTrim n.val (fun t => t.applyMask e d.now)).bothRise n.val))) ∧
  (∀ (s : State) (pin : Fin 4) (falling : Bool), Live s → exec (.trimEvt pin falling) s =
      .next (withDev s (forEach (List.range 32) (fun n d =>
      if (d.trimOf n).waitsFor 2 d.now = true ∧ (d.trimOf n).evtPin = pin.val ∧ (d.trimOf n).evtEdge = falling
      then d.modDrive n (fun t => t.applyMask 2 d.now) else d) s.dev))) ∧
  (∀ (s : State) (n : Fin 32) (high : Bool), Live s → exec (.oppositeGateFall n high) s =
      .next (withDev s (s.dev.modDrive n.val (fun t => if high then t.lowFalls s.dev.now else t.highFalls s.dev.now))))

/-- Short trips, stuck gates, bootstrap and pre-charge of the gate drivers (R203, R204, R205, R206, R207, R208, R209, R257).
The model's choices: a dual trip fires its row two core cycles after the trips, which it reads from the example of R257 (log
entry 79), and a bootstrap release tells that the supply is back for that driver (log entry 169). -/
def Obligations.TrimDriverEvents : Prop :=
  (∀ (s : State) (x : Trip), Live s → (s.dev.trimOf x.chan.val).crosses s.dev.now x.didt = false →
      exec (.shortTrip x []) s = .next (withDev s s.dev)) ∧
  (∀ (s : State) (x : Trip) (u : Trim) (d : Dev), Live s → (s.dev.trimOf x.chan.val).crosses s.dev.now x.didt = true →
      d = s.dev.modTrim x.chan.val (fun t => t.trip s.dev.now) → u = d.trimOf x.chan.val →
      ((s.dev.trimOf x.chan.val).retrip < 3 ∨ (s.dev.trimOf x.chan.val).lockout = true) → exec (.shortTrip x []) s = .next (withDev s 
      (d.events [(0x048, pack [(9, b1 u.tripHs), (8, b1 u.tripBlank), (0, x.chan.val)])]))) ∧
  (∀ (s : State) (x : Trip) (u : Trim) (d : Dev), Live s → (s.dev.trimOf x.chan.val).crosses s.dev.now x.didt = true →
      d = s.dev.modTrim x.chan.val (fun t => t.trip s.dev.now) → u = d.trimOf x.chan.val →
      3 ≤ (s.dev.trimOf x.chan.val).retrip → (s.dev.trimOf x.chan.val).lockout = false → exec (.shortTrip x []) s =
      .next (withDev s 
      (d.events [(0x048, pack [(9, b1 u.tripHs), (8, b1 u.tripBlank), (0, x.chan.val)]), (0x04B, word x.chan.val)]))) ∧
  (∀ (s : State) (x y low : Trip) (others ts more : List Trip) (u : Trim) (d e : Dev), Live s →
      ts = (x :: others.filter (fun t => t.chan != x.chan)).filter (fun t => (s.dev.trimOf t.chan.val).crosses s.dev.now t.didt) → ts = y :: more → more ≠ [] → low = lowestTrip y ts → s.dev.lockouts ts = [] → d = ts.foldl (fun d t => d.modTrim t.chan.val (fun u => u.trip d.now)) s.dev → u = d.trimOf low.chan.val → e = d.events [(0x048, pack [(9, b1 u.tripHs), (8, b1 u.tripBlank), (0, low.chan.val)])] → exec (.shortTrip x others) s = .next (withDev s 
      ((({ e with cut := { e.cut with dualTrip := true } }).advance 2).fire 2 low.chan.val (e.matrixRow 256)))) ∧
  (∀ (s : State) (x y low : Trip) (others ts more : List Trip) (n : Nat) (ns : List Nat) (u : Trim) (d e : Dev), Live s →
      ts = (x :: others.filter (fun t => t.chan != x.chan)).filter (fun t => (s.dev.trimOf t.chan.val).crosses s.dev.now t.didt) →
      ts = y :: more → more ≠ [] → low = lowestTrip y ts → s.dev.lockouts ts = n :: ns →
      d = ts.foldl (fun d t => d.modTrim t.chan.val (fun u => u.trip d.now)) s.dev → u = d.trimOf low.chan.val →
      e = d.events [(0x048, pack [(9, b1 u.tripHs), (8, b1 u.tripBlank), (0, low.chan.val)]), (0x04B, word n)] →
      exec (.shortTrip x others) s = .next (withDev s 
      ((({ e with cut := { e.cut with dualTrip := true } }).advance 2).fire 2 low.chan.val (e.matrixRow 256)))) ∧
  (∀ (s : State) (n : Fin 32) (highWaiting : Bool), Live s → (s.dev.trimOf n.val).waits highWaiting = true →
      exec (.stuck n highWaiting) s = .next (withDev s 
      (((s.dev.advanceUntil ((if highWaiting then (s.dev.trimOf n.val).offL else (s.dev.trimOf n.val).offH) + 2499)).modTrim n.val (fun t =>
      { t with stuck := true, latched := true, tripLatch := false, gateH := false, gateL := false })).event 0x04A
      (pack [(8, b1 highWaiting), (0, n.val)])))) ∧
  (∀ (s : State) (n : Fin 32), Live s → (s.dev.trimOf n.val).bstUv = false → exec (.bstUv n) s =
      .next (withDev s ((s.dev.modDrive n.val (fun t =>
      { t with bstUv := true, uvCnt := satInc 16 t.uvCnt })).event 0x04C (word n.val)))) ∧
  (∀ (s : State) (n : Fin 32), Live s → exec (.bstUvRelease n) s =
      .next (withDev s (s.dev.modDrive n.val (fun t => t.bstBack s.dev.cut.trimOwn (s.dev.trimCut n.val) s.dev.now)))) ∧
  (∀ (s : State) (n : Fin 32) (d : Dev), Live s → (s.dev.trimOf n.val).prechg = true →
      (s.dev.trimOf n.val).bstUv = false →
      d = s.dev.advanceUntil ((s.dev.trimOf n.val).preAt + 2 * (s.dev.trimOf n.val).drv.preN * (s.dev.trimOf n.val).preWidth) → exec (.prechargeEnd n) s = .next (withDev s 
      (d.modTrim n.val (fun t => { t.endPre d.now with readyDue := true })))) ∧
  (∀ (s : State) (n : Fin 32) (d : Dev), Live s → (s.dev.trimOf n.val).prechg = true →
      (s.dev.trimOf n.val).bstUv = true →
      d = s.dev.advanceUntil ((s.dev.trimOf n.val).preAt + 2 * (s.dev.trimOf n.val).drv.preN * (s.dev.trimOf n.val).preWidth) → exec (.prechargeEnd n) s = .next (withDev s 
      ((d.modDrive n.val (fun t => { t.endPre d.now with bootFail := true })).event 0x04D (word n.val)))) ∧
  (∀ (s : State), Live s → s.dev.isMember = true → s.dev.ply.pstate = .active → s.dev.cut.trimOwn = false →
      s.dev.cut.ownIn = false → exec (.trimOwnershipTake) s = .next (withDev s s.dev.takeTrims)) ∧
  (∀ (s : State), Live s → s.dev.isMember = true → s.dev.ply.pstate = .active → s.dev.cut.trimOwn = false →
      s.dev.cut.ownIn = true → 16 ≤ s.dev.cut.ownWait → exec (.ownershipWait) s = .next (withDev s 
      (s.dev.event 0x04E (word s.dev.cut.ownWait))))

/-- TRIM, TRIM_PAIR, TRIM_STAGE, TRIM_DRIVER and LOCKOUT_CLEAR (R143, R144, R145, R147, R206, R210, R411, R412, R424). The
model's readings: a TRIM write that touches word 2 answers the LAND_TICK of the next boundary (log entry 51), and a PERIOD out
of range answers OK and sets WR_REJECT (log entry 52). -/
def Obligations.TrimCommandsServed : Prop :=
  (∀ (s : State) (r : Req) (f : RecForm), Served 0x0208 true r s → r.write = false → recForm r 32 4 = some f →
      exec (.trim r) s = .next (taken 0x0208 true r (f.readReply r (s.dev.trimOf f.index).genWords) s.dev s)) ∧
  (∀ (s : State) (r : Req) (f : RecForm) (d : Dev), Served 0x0208 false r s → r.write = true → recForm r 32 4 = some f →
      (f.first = 0 ∨ (f.wordFor 1).isSome = true → s.dev.warpOwns f.index = false) → f.wordFor 2 = none →
      d = (s.dev.modTrim f.index (fun t => match f.wordFor 3 with | some w => t.clearWord3 w | none => t)).modDrive f.index
        (fun t => t.writePair s.dev.now ((f.wordFor 0).map (fun w => bits w 24 0)) ((f.wordFor 1).map (fun w => bits w 30 0))) →
      exec (.trim r) s =
      .next (taken 0x0208 false r (.ok [s.dev.nowTick]) d s)) ∧
  (∀ (s : State) (r : Req) (f : RecForm) (w : Word) (d : Dev), Served 0x0208 false r s → r.write = true →
      recForm r 32 4 = some f → (f.first = 0 ∨ (f.wordFor 1).isSome = true → s.dev.warpOwns f.index = false) →
      f.wordFor 2 = some w → (bit w 7 = true → bits w 6 5 ≠ 3) →
      d = ((s.dev.modTrim f.index (fun t => match f.wordFor 3 with | some v => t.clearWord3 v | none => t)).modDrive f.index
        (fun t => t.writePair s.dev.now ((f.wordFor 0).map (fun w => bits w 24 0)) ((f.wordFor 1).map (fun w => bits w 30 0)))).modTrim
        f.index (fun t => t.writeWord2 w s.dev.now) → exec (.trim r) s =
      .next (taken 0x0208 false r 
      (.ok [d.landTickOf (.trimEnAlign f.index w)]) (d.landFor r (.trimEnAlign f.index w)) s)) ∧
  (∀ (s : State) (r : Req) (n : Nat) (d : Dev), Served 0x0209 false r s → n = bits (arg r 2) 4 0 →
      s.dev.warpOwns n = false →
      d = s.dev.modDrive n (fun t => t.writePair s.dev.now (some (arg r 3).toNat) (some (bits (arg r 4) 30 0))) →
      exec (.trimPair r) s = .next (taken 0x0209 false r 
      (.ok [d.nowTick]) d s)) ∧
  (∀ (s : State) (r : Req), Served 0x020A false r s → exec (.trimStage r) s =
      .next (taken 0x020A false r (.ok [0xFFFFFFFF]) (s.dev.modTrim (bits (arg r 2) 4 0) (fun t => { t with
      staged := some { owner := bit (arg r 3) 0, period := (arg r 4).toNat, duty := bits (arg r 5) 30 0
                       tickAlign := bit (arg r 6) 1, en := bit (arg r 6) 0 } })) s)) ∧
  (∀ (s : State) (r : Req) (f : RecForm), Served 0x020B true r s → r.write = false → recForm r 32 4 = some f →
      exec (.trimDriver r) s = .next (taken 0x020B true r (f.readReply r (s.dev.trimOf f.index).drvWords) s.dev s)) ∧
  (∀ (s : State) (r : Req) (f : RecForm) (set : DrvSet) (d : Dev), Served 0x020B false r s → r.write = true →
      recForm r 32 4 = some f → f.first ≤ 1 →
      set = ((s.dev.trimOf f.index).stagedDrv.getD (s.dev.trimOf f.index).drv).write f → set.bad = none →
      d = s.dev.modTrim f.index (fun t => match f.wordFor 2 with | some w => t.clearDrv w | none => t) →
      exec (.trimDriver r) s = .next (taken 0x020B false r 
      (.ok [0xFFFFFFFF]) (d.modTrim f.index (fun t => { t with stagedDrv := some set })) s)) ∧
  (∀ (s : State) (r : Req) (f : RecForm), Served 0x020B false r s → r.write = true → recForm r 32 4 = some f →
      2 ≤ f.first → exec (.trimDriver r) s = .next (taken 0x020B false r 
      (.ok [s.dev.nowTick]) (s.dev.modTrim f.index (fun t => match f.wordFor 2 with | some w => t.clearDrv w | none => t)) s)) ∧
  (∀ (s : State) (r : Req), Served 0x020C false r s → s.dev.trimCut (bits (arg r 2) 4 0) = false →
      exec (.lockoutClear r) s = .next (taken 0x020C false r 
      (.ok [s.dev.landTickOf (.lockoutClear (bits (arg r 2) 4 0))]) (s.dev.landFor r (.lockoutClear (bits (arg r 2) 4 0))) s))

/-- The five steps of a mailbox channel, each by its own side, and what a step in another state does not do (R257, R399, R400,
R401, R402, R403, R408, R431, R432). The model's choices: the management processor answers a message that no command row
carries in the step of PICK (log entries 37 and 207), gives neither LAND nor DONE_SET while it owes its answer (log entry
207), and a discard spares an answered repeat (log entry 208). -/
def Obligations.MailboxProtocolSteps : Prop :=
  (∀ (s : State) (m : Master) (ch : Fin 32), BoxSide m ch Chan.reqId s → (s.dev.boxOf ch.val).go = false →
      s.dev.discardOpen = false → exec (.goPost m ch) s = .next (withDev s ((s.dev.modBox ch.val (fun c => { c with
      prevRep := c.rep, go := true, goAt := s.dev.now, seq := (c.seq + 1) % 65536, done := false, withdrawn := false, disc := false })).raise
      (s.dev.boxOf ch.val).rspId 2))) ∧
  (∀ (s : State) (m : Master) (ch : Fin 32), BoxSide m ch Chan.reqId s → (s.dev.boxOf ch.val).go = false →
      s.dev.discardOpen = true → exec (.goPost m ch) s = .next (withDev s (((s.dev.modBox ch.val (fun c => { c with
      prevRep := c.rep, go := true, goAt := s.dev.now, seq := (c.seq + 1) % 65536, done := false, withdrawn := false, disc := false })).raise
      (s.dev.boxOf ch.val).rspId 2).discardBox ch.val))) ∧
  (∀ (s : State) (m : Master) (ch : Fin 32), BoxSide m ch Chan.reqId s → (s.dev.boxOf ch.val).go = true →
      (s.dev.boxOf ch.val).picked = false → exec (.goWithdraw m ch) s =
      .next (withDev s (s.dev.modBox ch.val (fun c => { c with go := false, withdrawn := true })))) ∧
  (∀ (s : State) (m : Master) (ch : Fin 32), BoxSide m ch Chan.reqId s → (s.dev.boxOf ch.val).go = true →
      (s.dev.boxOf ch.val).picked = true → exec (.goWithdraw m ch) s =
      .next (withDev s (s.dev.modBox ch.val (fun c => { c with wdLate := true })))) ∧
  (∀ (s : State) (m : Master) (ch : Fin 32), BoxSide m ch Chan.rspId s → (s.dev.boxOf ch.val).go = true →
      (s.dev.boxOf ch.val).picked = false → masterId m ≠ 0x20 → exec (.pick m ch) s =
      .next (withDev s (s.dev.modBox ch.val (fun c => { c with picked := true, again := (c.stored.map (·.1)) == some (wat c.req 1) })))) ∧
  (∀ (s : State) (m : Master) (ch : Fin 32), BoxSide m ch Chan.rspId s → (s.dev.boxOf ch.val).go = true →
      (s.dev.boxOf ch.val).picked = false → masterId m = 0x20 → s.dev.hasTurn ch.val = true → exec (.pick m ch) s =
      .next (withDev s ((s.dev.modBox ch.val (fun c => { c with picked := true, again := (c.stored.map (·.1)) == some (wat c.req 1) })).turnAway ch))) ∧
  (∀ (s : State) (m : Master) (ch : Fin 32), BoxSide m ch Chan.rspId s → masterId m = 0x20 →
      s.dev.hasTurn ch.val = false → exec (.pick m ch) s = .next (withDev s s.dev)) ∧
  (∀ (s : State) (m : Master) (ch : Fin 32), BoxSide m ch Chan.rspId s → (s.dev.boxOf ch.val).go = true →
      (s.dev.boxOf ch.val).picked = true → (s.dev.boxOf ch.val).landed = false → s.dev.owes ch.val = false → exec (.land m ch) s =
      .next (withDev s (s.dev.modBox ch.val (fun c => { c with landed := true })))) ∧
  (∀ (s : State) (m : Master) (ch : Fin 32), BoxSide m ch Chan.rspId s → (s.dev.boxOf ch.val).go = true →
      (s.dev.boxOf ch.val).picked = true → s.dev.owes ch.val = false → exec (.doneSet m ch) s =
      .next (withDev s ((s.dev.modBox ch.val (fun c => { c with
      done := true, go := false, picked := false, landed := false })).raise (s.dev.boxOf ch.val).reqId 1))) ∧
  (∀ (s : State) (m : Master) (ch : Fin 32), BoxSide m ch Chan.reqId s → (s.dev.boxOf ch.val).go = true →
      exec (.goPost m ch) s = .next (withDev s s.dev)) ∧
  (∀ (s : State) (m : Master) (ch : Fin 32), BoxSide m ch Chan.reqId s → (s.dev.boxOf ch.val).go = false →
      exec (.goWithdraw m ch) s = .next (withDev s s.dev)) ∧
  (∀ (s : State) (m : Master) (ch : Fin 32), BoxSide m ch Chan.rspId s →
      ((s.dev.boxOf ch.val).go = false ∨ (s.dev.boxOf ch.val).picked = true) → exec (.pick m ch) s = .next (withDev s s.dev)) ∧
  (∀ (s : State) (m : Master) (ch : Fin 32), BoxSide m ch Chan.rspId s → ((s.dev.boxOf ch.val).go = false ∨
      (s.dev.boxOf ch.val).picked = false ∨ (s.dev.boxOf ch.val).landed = true ∨ s.dev.owes ch.val = true) →
      exec (.land m ch) s = .next (withDev s s.dev)) ∧
  (∀ (s : State) (m : Master) (ch : Fin 32), BoxSide m ch Chan.rspId s → ((s.dev.boxOf ch.val).go = false ∨
      (s.dev.boxOf ch.val).picked = false ∨ s.dev.owes ch.val = true) → exec (.doneSet m ch) s = .next (withDev s s.dev))

/-- The binding lock and the fallback queues (R9, R389, R398, R400, R406, R407, R442, R443). The model's readings: the lock
ends the boot, so that BOOT_STAGE reads 3 in its step (log entry 13), and a word popped in recovery may program the blank fuse
(log entry 184). -/
def Obligations.MailboxQueuesAndLock : Prop :=
  (∀ (s : State) (m : Master) (d : Dev), Live s → s.dev.asleep m = false → masterId m = 0x20 →
      s.dev.host.bindLocked = false → s.dev.host.bootStage ≠ 0xF →
      d = s.dev.edge { s.dev with host := { s.dev.host with bindLocked := true } } 3 → exec (.bindLock m) s = .next (withDev s 
      (if s.dev.host.bootStage = 2 then d.setStage 3 else d))) ∧
  (∀ (s : State) (m : Master), Live s → s.dev.asleep m = false → masterId m = 0x20 → s.dev.host.bootStage = 0xF →
      exec (.bindLock m) s = .next (withDev s s.dev)) ∧
  (∀ (s : State) (m : Master) (ch : Fin 32) (v : Word), Live s → s.dev.asleep m = false →
      (s.dev.requesters ch.val).contains (masterId m) = true → exec (.fwdDataPush m ch v) s =
      .next (withDev s (s.dev.pushFwd ch.val v))) ∧
  (∀ (s : State) (m : Master) (ch : Fin 32) (v : Word), Live s → s.dev.asleep m = false →
      (s.dev.responders ch.val).contains (masterId m) = true → exec (.backDataPush m ch v) s =
      .next (withDev s (s.dev.pushBack ch.val v))) ∧
  (∀ (s : State) (m : Master) (ch : Fin 32) (b : ReadBytes) (w : Word) (rest : List Word), Live s →
      s.dev.asleep m = false → (s.dev.responders ch.val).contains (masterId m) = true →
      (s.dev.boxOf ch.val).fwd = w :: rest → exec (.fwdDataPop ⟨m, b⟩ ch) s =
      .next (withDev s (((s.dev.modBox ch.val (fun c => { c with fwd := rest })).recoveryWord ch.val w).giveBytes b w))) ∧
  (∀ (s : State) (m : Master) (ch : Fin 32) (b : ReadBytes), Live s → s.dev.asleep m = false →
      (s.dev.responders ch.val).contains (masterId m) = true → (s.dev.boxOf ch.val).fwd = [] →
      exec (.fwdDataPop ⟨m, b⟩ ch) s =
      .next (withDev s (((s.dev.modBox ch.val (fun c => { c with fwd := [] })).recoveryWord ch.val 0).giveBytes b 0))) ∧
  (∀ (s : State) (m : Master) (ch : Fin 32) (b : ReadBytes) (w : Word) (rest : List Word), Live s →
      s.dev.asleep m = false → (s.dev.requesters ch.val).contains (masterId m) = true →
      (s.dev.boxOf ch.val).back = w :: rest → exec (.backDataPop ⟨m, b⟩ ch) s =
      .next (withDev s ((s.dev.modBox ch.val (fun c => { c with back := rest })).giveBytes b w))) ∧
  (∀ (s : State) (m : Master) (ch : Fin 32) (b : ReadBytes), Live s → s.dev.asleep m = false →
      (s.dev.requesters ch.val).contains (masterId m) = true → (s.dev.boxOf ch.val).back = [] →
      exec (.backDataPop ⟨m, b⟩ ch) s =
      .next (withDev s ((s.dev.modBox ch.val (fun c => { c with back := [] })).giveBytes b 0)))

/-- Interrupt causes, the QSPI port and the PCIe functions (R390, R392, R393, R394, R408, R409). The model's choice: the lanes
and the rate to which the link trains after a loss are free (log entry 183). -/
def Obligations.HostPortEvents : Prop :=
  (∀ (s : State) (m : Master) (v : Word), MayWrite m 0 s → exec (.intCauseClear m v) s =
      .next (withDev s (s.dev.clearCauses (masterId m) v))) ∧
  (∀ (s : State), Live s → exec (.qspiStatus) s =
      .next (withDev s (({ s.dev with host := { s.dev.host with qspiErr := false } }).giveRead
      (pack [(0, b1 s.dev.host.qspiErr), (1, b1 s.dev.qspiIrq)])))) ∧
  (∀ (s : State), Live s → exec (.qspiProtocolError) s =
      .next (withDev s (({ s.dev with host := { s.dev.host with qspiErr := true } }).event 0x0A1 0))) ∧
  (∀ (s : State), Live s → exec (.perstN) s =
      .next (withDev s ((((s.dev.modInt 1 (fun i => { i with cause := 0, en := 0 })).modFn 0 (fun _ => {})).modInt 2
      (fun i => { i with cause := 0, en := 0 })).modFn 1 (fun _ => {})))) ∧
  (∀ (s : State) (f : Fin 2), Live s → exec (.functionLevelReset f) s =
      .next (withDev s ((s.dev.modInt (f.val + 1) (fun i => { i with cause := 0, en := 0 })).modFn f.val (fun _ => {})))) ∧
  (∀ (s : State), Live s → exec (.pcieLinkDown) s = .next (withDev s
      (({ s.dev with
          host := { s.dev.host with
            linkLanes := 1 + Config.freeNat s.dev.fresh % 2, linkRate := Config.freeNat (s.dev.fresh + 1) % 3 }
          fresh := s.dev.fresh + 2 } : Dev).event 0x0A0 0))) ∧
  (∀ (s : State) (f : Fin 2), Live s → exec (.powerStateChange f true) s =
      .next (withDev s (s.dev.modFn f.val (fun x => { x with d3hot := true })))) ∧
  (∀ (s : State) (f : Fin 2), Live s → (s.dev.fnOf f.val).d3hot = false → exec (.powerStateChange f false) s =
      .next (withDev s (s.dev.modFn f.val (fun x => { x with d3hot := false })))) ∧
  (∀ (s : State) (f : Fin 2) (d : Dev), Live s → (s.dev.fnOf f.val).d3hot = true →
      d = s.dev.modFn f.val (fun x => { x with d3hot := false }) → exec (.powerStateChange f false) s =
      .next (withDev s 
      ((maskBits 11 (d.causeWord (f.val + 1)).toNat).foldl (fun d b => d.message (f.val + 1) b) d)))

/-- WARP_LOAD with the images it refuses, TICK_CONFIG and SEQ_START (R32, R33, R36, R50, R52, R53, R411, R416, R418, R421).
The model's reading: a WARP_LOAD that ends well answers 0xFFFFFFFF in word 2, as a staged write does (log entry 45). -/
def Obligations.WarpLoadAndSequencerStart : Prop :=
  (∀ (s : State) (r : Req) (b : Nat), Served 0x0704 false r s → imgArgs r none = none → b = (arg r 2).toNat → b ≤ 1 →
      s.dev.bankTaken b = false → LongFree 0x0704 r s.dev → exec (.warpLoad r) s = .next (taken 0x0704 false r 
      (.accepted r) 
      (if checkOnly r then begun 0x0704 r s.dev else (begun 0x0704 r s.dev).modBank b (fun k => { k with valid := false })) s)) ∧
  (∀ (d : Dev) (r : Req) (ws : List Word), ws = d.image r → crc32 (wordsBytes ws) = arg r 5 →
      warpHeaderBad ws = none →
      (arg r 4).toNat = 16 + 16 * (wat ws 0).toNat + (wat ws 1).toNat → (d.warpBank ws).2 = none →
      finishWarpLoad r d =
        (.ok [0xFFFFFFFF], if checkOnly r then d else d.placeBank (bits (arg r 2) 0 0) (d.warpBank ws).1)) ∧
  (∀ (d : Dev) (r : Req) (ws : List Word), ws = d.image r →
      (arg r 4).toNat ≠ 16 + 16 * (wat ws 0).toNat + (wat ws 1).toNat → finishWarpLoad r d = (.badArg 4, d)) ∧
  (∀ (d : Dev) (r : Req) (ws : List Word), ws = d.image r →
      (arg r 4).toNat = 16 + 16 * (wat ws 0).toNat + (wat ws 1).toNat → crc32 (wordsBytes ws) ≠ arg r 5 →
      finishWarpLoad r d = (.badArg 5, d)) ∧
  (∀ (d : Dev) (r : Req) (ws : List Word) (i : Nat), ws = d.image r → crc32 (wordsBytes ws) = arg r 5 →
      (arg r 4).toNat = 16 + 16 * (wat ws 0).toNat + (wat ws 1).toNat → warpHeaderBad ws = some i →
      finishWarpLoad r d = (⟨0x0102, [0, 0xFFFFFFFF, word i]⟩, d)) ∧
  (∀ (d : Dev) (r : Req) (ws : List Word) (x : Nat × Nat), ws = d.image r → crc32 (wordsBytes ws) = arg r 5 →
      (arg r 4).toNat = 16 + 16 * (wat ws 0).toNat + (wat ws 1).toNat → warpHeaderBad ws = none →
      (d.warpBank ws).2 = some x →
      finishWarpLoad r d = (⟨0x0102, [word (d.warpBank ws).1.span, word x.1, word x.2]⟩, d)) ∧
  (∀ (s : State) (r : Req) (b : Nat), Served 0x0704 false r s → imgArgs r none = none → b = (arg r 2).toNat → b ≤ 1 →
      s.dev.bankTaken b = true → exec (.warpLoad r) s = .next (taken 0x0704 false r .wrongState s.dev s)) ∧
  (∀ (s : State) (r : Req) (d : Dev), Served 0x0703 false r s → tickConfigBad r = none → s.dev.tk.seqRun = false →
      s.dev.tk.starting = none → d = (({ s.dev with tk := { s.dev.tk with
        tickSteps := (arg r 2).toNat, guardLen := (arg r 3).toNat, alignSrc := bits (arg r 4) 1 0
        alignOrigin := join48 (arg r 5) (arg r 6), syncDelay := (arg r 7).toNat
        commitGuard := (arg r 8).toNat, startTick := join48 (arg r 9) (arg r 10) } }).recheck 0).recheck 1 → exec (.tickConfig r) s = .next (taken 0x0703 false r 
      (.ok [d.nowTick, pack [(1, b1 d.tk.bank1.valid), (0, b1 d.tk.bank0.valid)]]) d s)) ∧
  (∀ (s : State) (r : Req), Served 0x0705 false r s → s.dev.tk.seqRun = false → s.dev.tk.starting = none →
      s.dev.bankValid (bits (arg r 2) 0 0) = true → s.dev.alignReady = true → exec (.seqStart r) s =
      .next (taken 0x0705 false r (.ok [0]) 
      { s.dev with tk := { s.dev.tk with starting := some (bits (arg r 2) 0 0), startAt := s.dev.now, firstPulse := none } } s))

/-- The boundaries, the counted period and the guard window (R28, R34, R35, R36, R38, R39, R53, R335, R342, R364, R432, R486).
The model's choices: the end of a period before the first boundary also starts what waits in the converters (log entry 176)
and samples the ports as log entry 181 has it, moves N of a PLL in RETURN (log entry 206), and the coordination frames of a
tick are judged at its end (log entry 104). -/
def Obligations.TickBoundariesRun : Prop :=
  (∀ (s : State) (b : BoundaryIn) (d : Dev), Live s → s.dev.tk.seqRun = true →
      d = (s.dev.advanceTo s.dev.tickCycles).judgeWaiting → exec (.tickBoundary b) s = .next (withDev s 
      (((d.openTick (d.tk.tick + 1) d.now).atBoundary b).takeDeferred))) ∧
  (∀ (s : State) (b : BoundaryIn) (k : Nat), Live s → s.dev.tk.starting = some k → s.dev.tk.alignSrc = 0 →
      exec (.firstBoundary b) s = .next (withDev s (s.dev.beginTicks k s.dev.firstTick s.dev.now b))) ∧
  (∀ (s : State) (b : BoundaryIn) (k : Nat) (q : Nat × Dev), Live s → s.dev.tk.starting = some k →
      (s.dev.tk.alignSrc = 1 ∨ s.dev.tk.alignSrc = 2) → q = s.dev.toFirst → exec (.firstBoundary b) s =
      .next (withDev s (q.2.beginTicks k q.1 q.2.now b))) ∧
  (∀ (s : State) (b : BoundaryIn) (k : Nat) (p : Nat × Nat), Live s → s.dev.tk.starting = some k →
      s.dev.tk.alignSrc = 3 → s.dev.tk.firstPulse = some p → exec (.firstBoundary b) s =
      .next (withDev s (s.dev.beginTicks k p.2 p.1 b))) ∧
  (∀ (s : State) (a e : Dev) (q : List Landing × Dev), Live s → s.dev.tk.seqRun = false →
      a = s.dev.advanceTo s.dev.tickCycles → e = ({ a with tk := { a.tk with tickStart := a.now } } : Dev) →
      q = (e.flushReplies.openAdcWindows).takeDue → exec (.tickPeriodEnd) s = .next (withDev s 
      (q.2.oneCycle ((landPlace q.1 5 (landPlace q.1 4 (landPlace q.1 3 (landPlace q.1 2 (((q.2.landBases q.1).markBases q.2).slewPlls.notePlls))))).landReleases.adcBoundary.portsBoundary)))) ∧
  (∀ (s : State) (g : GuardIn) (a e x : Dev), Live s → s.dev.tk.seqRun = true → s.dev.tk.guardDone = false →
      a = s.dev.advanceTo (s.dev.tickCycles - s.dev.tk.guardLen) →
      e = (({ a with tk := { a.tk with guardDone := true } } : Dev).calibrate g.calOk) →
      x = (((((e.probe false g.railA.val g.abortA).probe true g.railB.val g.abortB).landWaiting).sealStep).sendTransfer).scrub
        g.eccFixed g.eccBad → exec (.guardWindow g) s = .next (withDev s { x with tk := x.tk.latch }))

/-- The timers of the start sequence note their trip reason (R446, R447). -/
def Obligations.StartSequenceTimers : Prop :=
  (∀ (s : State) (d : Dev), Live s → s.dev.pwr.start = .precharge → s.dev.preInTime = false →
      s.dev.timeUp (s.dev.pwr.preCmdTime + msCycles s.dev.cfg.fbTime) = some d → exec (.fbTimeExpiry) s =
      .next (withDev s (d.tripReason 1))) ∧
  (∀ (s : State), Live s → s.dev.pwr.start = .precharge → s.dev.preInTime = false →
      s.dev.timeUp (s.dev.pwr.preCmdTime + msCycles s.dev.cfg.fbTime) = none → exec (.fbTimeExpiry) s =
      .next (withDev s s.dev)) ∧
  (∀ (s : State), Live s → s.dev.pwr.start = .precharge → s.dev.preInTime = true → exec (.fbTimeExpiry) s =
      .next (withDev s s.dev)) ∧
  (∀ (s : State) (d : Dev), Live s → s.dev.pwr.start = .closing → s.dev.pwr.preCmd = true → s.dev.pwr.mainFb = false →
      s.dev.timeUp (s.dev.pwr.mainCmdTime + msCycles s.dev.cfg.fbTime) = some d → exec (.fbTimeExpiry) s =
      .next (withDev s (d.tripReason 2))) ∧
  (∀ (s : State) (d : Dev), Live s → s.dev.pwr.start = .closing → s.dev.pwr.preCmd = false → s.dev.pwr.preFb = true →
      s.dev.timeUp (s.dev.pwr.preCmdTime + msCycles s.dev.cfg.fbTime) = some d → exec (.fbTimeExpiry) s =
      .next (withDev s (d.tripReason 2))) ∧
  (∀ (s : State) (d : Dev), Live s → s.dev.pwr.start = .precharge →
      s.dev.timeUp (s.dev.stateEnd s.dev.cfg.preTimeout) = some d → exec (.preTimeout) s =
      .next (withDev s (d.tripReason 3))) ∧
  (∀ (s : State) (d : Dev), Live s → s.dev.pwr.start = .sync →
      s.dev.timeUp (s.dev.stateEnd s.dev.cfg.syncTimeout) = some d → exec (.syncTimeout) s =
      .next (withDev s (d.tripReason 4))) ∧
  (∀ (s : State) (t : Nat) (d : Dev), Live s → s.dev.pwr.start.live = true →
      s.dev.disagreeEnd s.dev.pwr.preCmdTime s.dev.pwr.preDiff = some t →
      s.dev.disagreeEnd s.dev.pwr.mainCmdTime s.dev.pwr.mainDiff = none → s.dev.timeUp t = some d →
      exec (.feedbackDisagree) s = .next (withDev s (d.tripReason 7))) ∧
  (∀ (s : State) (t : Nat) (d : Dev), Live s → s.dev.pwr.start.live = true →
      s.dev.disagreeEnd s.dev.pwr.preCmdTime s.dev.pwr.preDiff = none →
      s.dev.disagreeEnd s.dev.pwr.mainCmdTime s.dev.pwr.mainDiff = some t → s.dev.timeUp t = some d →
      exec (.feedbackDisagree) s = .next (withDev s (d.tripReason 7))) ∧
  (∀ (s : State), Live s → s.dev.pwr.preDiff = none → s.dev.pwr.mainDiff = none → exec (.feedbackDisagree) s =
      .next (withDev s s.dev))

/-- INTAKE, SPIN and ALLOC entries do the work of their class (R42, R45, R69, R85, R111, R120, R122). -/
def Obligations.IntakeSpinAndAllocRun : Prop :=
  (∀ (s : State) (i : Fin 4096) (e : Entry) (t0 : Nat) (a d : Dev) (ks : List Nat) (x y : Dev), Live s →
      s.dev.entryAt clsIntake i.val = some (e, t0) → a = s.dev.advance (t0 - s.dev.cyc) →
      d = ({ a with tk := { a.tk with nextEntry := i.val + 1, entryEnd := t0 + e.budget } } : Dev) →
      ks = (List.range e.count).map (16 * e.unit + ·) → x = d.intake e →
      y = forEach ks (fun k x => (x.digest k).seeFloor k)
        { x with isl := { x.isl with updated := x.isl.updated || ks.any (fun k => (x.strandOf k).fresh) } } →
      exec (.intakeEntry i) s = .next (withDev s 
      (y.allocEntries.foldl Dev.allocService y))) ∧
  (∀ (s : State) (i : Fin 4096) (e : Entry) (t0 : Nat) (a d : Dev) (fault : Option (Fin 2048 × Fin 32)), Live s →
      s.dev.entryAt clsSpin i.val = some (e, t0) → a = s.dev.advance (t0 - s.dev.cyc) →
      d = ({ a with tk := { a.tk with nextEntry := i.val + 1, entryEnd := t0 + e.budget } } : Dev) → exec (.spinEntry i fault) s =
      .next (withDev s ((d.runSpin d.running? e (fault.map (fun f => (f.1.val, f.2.val)))).shareStage i.val))) ∧
  (∀ (s : State) (i : Fin 4096) (e : Entry) (t0 : Nat) (a d : Dev), Live s →
      s.dev.entryAt clsAlloc i.val = some (e, t0) → a = s.dev.advance (t0 - s.dev.cyc) →
      d = ({ a with tk := { a.tk with nextEntry := i.val + 1, entryEnd := t0 + e.budget } } : Dev) → exec (.allocEntry i) s =
      .next (withDev s (d.runAlloc e)))

/-- METER and DELIVER entries do the work of their class, and an overrun is counted (R42, R46, R47, R51, R148). -/
def Obligations.MeterDeliverAndOverrunRun : Prop :=
  (∀ (s : State) (i : Fin 4096) (e : Entry) (t0 : Nat) (a d : Dev), Live s →
      s.dev.entryAt clsMeter i.val = some (e, t0) → a = s.dev.advance (t0 - s.dev.cyc) →
      d = ({ a with tk := { a.tk with nextEntry := i.val + 1, entryEnd := t0 + e.budget } } : Dev) → exec (.meterEntry i) s =
      .next (withDev s (d.meterRun e))) ∧
  (∀ (s : State) (i : Fin 4096) (e : Entry) (t0 : Nat) (a d : Dev), Live s →
      s.dev.entryAt clsDeliver i.val = some (e, t0) → a = s.dev.advance (t0 - s.dev.cyc) →
      d = ({ a with tk := { a.tk with nextEntry := i.val + 1, entryEnd := t0 + e.budget } } : Dev) → exec (.deliverEntry i) s =
      .next (withDev s ((d.deliver e t0).placeCrossings))) ∧
  (∀ (s : State) (i : Fin 4096), Live s → s.dev.tk.seqRun = true → s.dev.tk.noBank = false → s.dev.tk.abandoned = none →
      i.val < s.dev.running?.entries.length → exec (.tickOverrun i) s =
      .next (withDev s (({ s.dev with tk := { s.dev.tk with
      overrun := true, overrunCnt := satInc 16 s.dev.tk.overrunCnt, abandoned := some i.val } }).event 0x000 (word i.val))))

/-- COPY, XDIE, CAPTURE and MIRROR entries move exactly their 64-byte blocks (R41, R44, R48, R219, R222). The model's reading:
COPY moves block after block, so that overlapping blocks see the earlier ones (log entry 117). -/
def Obligations.BlockEntriesMoveBytes : Prop :=
  (∀ (s : State) (i : Fin 4096) (e : Entry) (t0 : Nat) (a d : Dev), Live s →
      s.dev.entryAt clsCopy i.val = some (e, t0) → a = s.dev.advance (t0 - s.dev.cyc) →
      d = ({ a with tk := { a.tk with nextEntry := i.val + 1, entryEnd := t0 + e.budget } } : Dev) → exec (.copyEntry i) s = .next (withDev s 
      (forEach (List.range e.count) (fun j x => { x with weft := memPutBytes x.weft (e.dst + 64 * j) (x.block e j) }) d))) ∧
  (∀ (s : State) (i : Fin 4096) (e : Entry) (t0 : Nat) (a d : Dev), Live s →
      s.dev.entryAt clsXdie i.val = some (e, t0) → a = s.dev.advance (t0 - s.dev.cyc) →
      d = ({ a with tk := { a.tk with nextEntry := i.val + 1, entryEnd := t0 + e.budget } } : Dev) → exec (.xdieEntry i) s = .next (withDev s 
      (((List.range e.count).map (fun j => bytesWords (d.block e j))).foldl Dev.xdieBlock
        { d with weft := memPutWords d.weft e.dst d.converterBlock }))) ∧
  (∀ (s : State) (i : Fin 4096) (e : Entry) (t0 : Nat) (a d : Dev), Live s →
      s.dev.entryAt clsCapture i.val = some (e, t0) → a = s.dev.advance (t0 - s.dev.cyc) →
      d = ({ a with tk := { a.tk with nextEntry := i.val + 1, entryEnd := t0 + e.budget } } : Dev) → d.capturing = true →
      exec (.captureEntry i) s = .next (withDev s (((List.range e.count).flatMap (d.block e)).foldl Dev.poolPut d))) ∧
  (∀ (s : State) (i : Fin 4096) (e : Entry) (t0 : Nat) (a d : Dev), Live s →
      s.dev.entryAt clsCapture i.val = some (e, t0) → a = s.dev.advance (t0 - s.dev.cyc) →
      d = ({ a with tk := { a.tk with nextEntry := i.val + 1, entryEnd := t0 + e.budget } } : Dev) → d.capturing = false →
      exec (.captureEntry i) s = .next (withDev s d)) ∧
  (∀ (s : State) (i : Fin 4096) (e : Entry) (t0 : Nat) (a d : Dev) (us : List PlyUnit), Live s →
      s.dev.entryAt clsMirror i.val = some (e, t0) → a = s.dev.advance (t0 - s.dev.cyc) →
      d = ({ a with tk := { a.tk with nextEntry := i.val + 1, entryEnd := t0 + e.budget } } : Dev) → d.isMember = true → d.ply.pstate = .active →
      us = (List.range e.count).map (fun j => PlyUnit.table (BitVec.ofNat 23 (e.src + 64 * j)) (d.block e j)
        (BitVec.ofNat 16 (tableUcrc (e.src + 64 * j) d.tk.tick (d.block e j)))) → exec (.mirrorEntry i) s =
      .next (withDev s (d.modPly (fun p => { p with
      txUnits := p.txUnits ++ us, linkBusy := max p.linkBusy (t0 + 12) + 18 * e.count })))) ∧
  (∀ (s : State) (i : Fin 4096) (e : Entry) (t0 : Nat) (a d : Dev), Live s →
      s.dev.entryAt clsMirror i.val = some (e, t0) → a = s.dev.advance (t0 - s.dev.cyc) →
      d = ({ a with tk := { a.tk with nextEntry := i.val + 1, entryEnd := t0 + e.budget } } : Dev) →
      (d.isMember = false ∨ d.ply.pstate ≠ .active) → exec (.mirrorEntry i) s = .next (withDev s d))

/-- The states of the PLLs and their reports (R243, R328, R333, R334, R335, R442). The model's choices: how N moves in RETURN
within the limits of R335, and when the slew is done (log entry 206). -/
def Obligations.PllStatesMove : Prop :=
  (∀ (s : State) (p : PllId), Live s → (s.dev.pll p).state = .acquire → (p = .b ∨ s.dev.host.bootStage ≠ 0) →
      exec (.pllLocked p) s = .next (withDev s ((s.dev.firstLock p).modPll p Pll.toLocked))) ∧
  (∀ (s : State) (d : Dev), Live s → s.dev.clk.pllA.state = .acquire → s.dev.host.bootStage = 0 →
      d = (s.dev.firstLock .a).modPll .a Pll.toLocked → exec (.pllLocked .a) s =
      .next (withDev s (d.setStage 1))) ∧
  (∀ (s : State) (p : PllId), Live s → (s.dev.pll p).state = .locked → (s.dev.pll p).refOk = true →
      exec (.lockClear p) s = .next (withDev s ((s.dev.modPll p (fun x => { x with
      state := .acquire, lock := false, unlockCnt := satInc 16 x.unlockCnt })).unlockEvent p))) ∧
  (∀ (s : State) (p : PllId), Live s → (s.dev.pll p).state = .acquire → (s.dev.pll p).everLocked = true →
      exec (.acquireTimeout p) s = .next (withDev s (s.dev.unlockEvent p))) ∧
  (∀ (s : State) (p : PllId), Live s → ((s.dev.pll p).state = .acquire ∨ (s.dev.pll p).state = .ret) → exec (.lockClear p) s =
      .next (withDev s (s.dev.modPll p (fun x => { x with lock := false })))) ∧
  (∀ (s : State) (d : Dev),
      d = { s.dev with clk := { s.dev.clk with pllA := s.dev.clk.pllA.toHoldover s.dev.now s.dev.cfg.refHz s.dev.fresh, pllB := s.dev.clk.pllB.toHoldover s.dev.now s.dev.cfg.refHz (s.dev.fresh + 1) }, fresh := s.dev.fresh + 2 } → exec (.refLost) s = .next (withDev s 
      (if s.dev.clk.pllA.state.canHold then d.event 0x062 0 else if s.dev.clk.pllB.state.canHold then d.event 0x062 1 else d))) ∧
  (∀ (s : State) (errA errB : Int) (hz : Nat) (c : Dev), Live s → hz = s.dev.cfg.refHz →
      c = ({ s.dev with clk := { s.dev.clk with
        pllA := s.dev.clk.pllA.refBack hz errA, pllB := s.dev.clk.pllB.refBack hz errB } } : Dev) → s.dev.clk.pllA.buildsOut hz errA = false → s.dev.clk.pllB.buildsOut hz errB = false → exec (.refValid errA errB) s = .next (withDev s ((c.startPll .a).startPll .b))) ∧
  (∀ (s : State) (errA errB : Int) (hz : Nat) (c : Dev), Live s → hz = s.dev.cfg.refHz →
      c = ({ s.dev with clk := { s.dev.clk with
        pllA := s.dev.clk.pllA.refBack hz errA, pllB := s.dev.clk.pllB.refBack hz errB } } : Dev) → s.dev.clk.pllA.buildsOut hz errA = true → s.dev.clk.pllB.buildsOut hz errB = false → exec (.refValid errA errB) s = .next (withDev s 
      ((((c.lockPll .a).startPll .a).startPll .b).event 0x063 (sword (satI 32 errA))))) ∧
  (∀ (s : State) (errA errB : Int) (hz : Nat) (c : Dev), Live s → hz = s.dev.cfg.refHz →
      c = ({ s.dev with clk := { s.dev.clk with
        pllA := s.dev.clk.pllA.refBack hz errA, pllB := s.dev.clk.pllB.refBack hz errB } } : Dev) → s.dev.clk.pllA.buildsOut hz errA = false → s.dev.clk.pllB.buildsOut hz errB = true → exec (.refValid errA errB) s = .next (withDev s 
      ((((c.lockPll .b).startPll .a).startPll .b).event 0x063 (sword (satI 32 errB))))) ∧
  (∀ (s : State) (p : PllId), Live s → (s.dev.pll p).state = .ret → (s.dev.pll p).slewN = 0 →
      (s.dev.pll p).slewErr.natAbs < s.dev.slewUnit → exec (.returnSlewEnd p) s = .next (withDev s (s.dev.lockPll p))) ∧
  (∀ (s : State) (p : PllId), Live s → ((s.dev.pll p).slewN ≠ 0 ∨ s.dev.slewUnit ≤ (s.dev.pll p).slewErr.natAbs) →
      exec (.returnSlewEnd p) s = .next (withDev s s.dev))

/-- TICK_SYNC pulses, the hold limit and the reads of the time bases (R9, R36, R150, R151, R339, R340, R345, R346). -/
def Obligations.TickSyncAndTimeBases : Prop :=
  (∀ (s : State) (fine : Fin 64) (x : Int), Live s → s.dev.tk.alignSrc = 3 → s.dev.tk.seqRun = true →
      x = centred ((64 * s.dev.cyc + fine.val : Nat) - (64 * s.dev.tk.syncDelay : Nat)) (64 * s.dev.tickCycles) →
      (s.dev.tk.alignEver = false ∨ x.natAbs ≤ 80000) → exec (.tickSyncIn fine) s = .next (withDev s 
      { s.dev with tk := { s.dev.tk with syncNew := true, syncSeen := true, syncMiss := 0, syncOffset := -x } })) ∧
  (∀ (s : State) (fine : Fin 64), Live s → s.dev.tk.alignSrc = 3 → s.dev.tk.seqRun = true → s.dev.tk.alignEver = true →
      80000 < (centred ((64 * s.dev.cyc + fine.val : Nat) - (64 * s.dev.tk.syncDelay : Nat)) (64 * s.dev.tickCycles)).natAbs → exec (.tickSyncIn fine) s = .next (withDev s 
      { s.dev with tk := { s.dev.tk with syncStray := true, strayCount := satInc 16 s.dev.tk.strayCount } })) ∧
  (∀ (s : State) (fine : Fin 64), Live s → s.dev.tk.alignSrc = 3 → s.dev.tk.seqRun = false →
      s.dev.tk.starting.isSome = true → s.dev.tk.firstPulse = none → s.dev.tk.startAt + startWait ≤ s.dev.now →
      exec (.tickSyncIn fine) s = .next (withDev s 
      { s.dev with tk := { s.dev.tk with firstPulse := some (s.dev.now, s.dev.firstTick) } })) ∧
  (∀ (s : State) (n : Fin 2), Live s → (s.dev.baseOf n.val).state = .holdover → (s.dev.baseOf n.val).holdLimit ≠ 0 →
      (s.dev.baseOf n.val).holdLimit < (s.dev.baseOf n.val).holdCount / 1250000000 → exec (.holdLimitExpiry n) s =
      .next (withDev s (forEach (List.range s.dev.portCount) (fun p d => d.settlePort p) ((s.dev.invalidate n.val).markBases s.dev)))) ∧
  (∀ (s : State) (m : Master) (n : Fin 4) (b : ReadBytes), MayRead m s → exec (.tbRecordRead ⟨m, b⟩ n) s =
      .next (withDev s ((s.dev.captureTb n.val).giveBytes b (wat (s.dev.tbWords n.val) 0)))) ∧
  (∀ (s : State) (m : Master) (v : Word), MayWrite m 4 s → exec (.tbSnapReq m v) s =
      .next (withDev s (if bit v 0 then s.dev.snapTb else s.dev)))

/-- The TB_CORRECT forms, with what R341 refuses of the alignment base, and TB2_LANE (R84, R339, R340, R341, R429). -/
def Obligations.TimeBaseCorrectionsLand : Prop :=
  (∀ (s : State) (r : Req) (n : Nat), Served 0x0710 false r s → tbTarget r = some n → (arg r 5).toNat < 1000000000 →
      s.dev.aligned n = false → exec (.tbSet r) s = .next (taken 0x0710 false r (.ok [s.dev.landTickOf (.tbSet n (join48 (arg r 3) (arg r 4)) (arg r 5).toNat)]) 
      (s.dev.landFor r (.tbSet n (join48 (arg r 3) (arg r 4)) (arg r 5).toNat)) s)) ∧
  (∀ (s : State) (r : Req) (n : Nat), Served 0x0710 false r s → tbTarget r = some n →
      (stepOffset r).natAbs ≤ tbCount (2 ^ 31) 0 → (arg r 5).toNat < 1000000000 → s.dev.aligned n = false →
      exec (.tbStep r) s = .next (taken 0x0710 false r (.ok [s.dev.landTickOf (.tbStep n (stepOffset r))]) 
      (s.dev.landFor r (.tbStep n (stepOffset r))) s)) ∧
  (∀ (s : State) (r : Req) (n : Nat), Served 0x0710 false r s → tbTarget r = some n → (arg r 5).toNat < 1000000000 →
      s.dev.aligned n = true → exec (.tbSet r) s = .next (taken 0x0710 false r .wrongState s.dev s)) ∧
  (∀ (s : State) (r : Req) (n : Nat), Served 0x0710 false r s → tbTarget r = some n →
      (stepOffset r).natAbs ≤ tbCount (2 ^ 31) 0 → (arg r 5).toNat < 1000000000 → s.dev.aligned n = true →
      exec (.tbStep r) s = .next (taken 0x0710 false r .wrongState s.dev s)) ∧
  (∀ (s : State) (r : Req) (n : Nat), Served 0x0710 false r s → tbTarget r = some n → s.dev.aligned n = true →
      10240000 < (sval (arg r 3)).natAbs → exec (.tbRate r) s = .next (taken 0x0710 false r (.badArg 3) s.dev s)) ∧
  (∀ (s : State) (r : Req) (n : Nat), Served 0x0710 false r s → tbTarget r = some n →
      ((s.dev.baseOf n).slewLeft + s.dev.slewWaiting n + sval (arg r 3)).natAbs ≤ 8388000 * 256 → exec (.tbSlew r) s =
      .next (taken 0x0710 false r 
      (.ok [s.dev.landTickOf (.tbSlew n (sval (arg r 3)))]) (s.dev.landFor r (.tbSlew n (sval (arg r 3)))) s)) ∧
  (∀ (s : State) (r : Req) (n : Nat), Served 0x0710 false r s → tbTarget r = some n →
      (sval (arg r 3)).natAbs ≤ (if s.dev.aligned n then 10240000 else 256000000) → exec (.tbRate r) s =
      .next (taken 0x0710 false r 
      (.ok [s.dev.landTickOf (.tbRate n (sval (arg r 3)))]) (s.dev.landFor r (.tbRate n (sval (arg r 3)))) s)) ∧
  (∀ (s : State) (r : Req) (n : Nat), Served 0x0710 false r s → tbTarget r = some n → bits (arg r 3) 1 0 ≠ 3 →
      (bits (arg r 3) 1 0 = 0 ∨ (s.dev.baseOf n).valid = true) → exec (.tbState r) s = .next (taken 0x0710 false r 
      (.ok [s.dev.landTickOf (.tbState n (bits (arg r 3) 1 0))]) (s.dev.landFor r (.tbState n (bits (arg r 3) 1 0))) s)) ∧
  (∀ (s : State) (r : Req) (n : Nat), Served 0x0710 false r s → tbTarget r = some n → (arg r 3).toNat ≤ 86400 →
      exec (.tbHoldLimit r) s = .next (taken 0x0710 false r (.ok [s.dev.landTickOf (.tbHoldLimit n (arg r 3).toNat)]) 
      (s.dev.landFor r (.tbHoldLimit n (arg r 3).toNat)) s)) ∧
  (∀ (s : State) (r : Req), Served 0x0711 false r s → exec (.tb2Lane r) s =
      .next (taken 0x0711 false r (.ok [s.dev.landTickOf (.tb2Lane (bits (arg r 2) 10 0) (bits (arg r 3) 4 0))]) 
      (s.dev.landFor r (.tb2Lane (bits (arg r 2) 10 0) (bits (arg r 3) 4 0))) s))

/-- SAFETY_LOAD, SAFETY_CONFIRM, the zone commands and SAFETY_STATUS (R263, R271, R275, R278, R418, R428). -/
def Obligations.SafetySetCommands : Prop :=
  (∀ (s : State) (r : Req) (p : List Word), Served 0x0601 false r s → arg r 2 = 0 → imgArgs r (some (4 * setWords)) = none →
      s.dev.isl.outputs = 0 → crc32 (wordsBytes (s.dev.image r)) = arg r 5 →
      (∀ i < setWords, setWordBad (s.dev.image r) i = false) → p = s.dev.image r → exec (.safetyLoad r) s =
      .next (taken 0x0601 false r 
      (.ok [setCrc p]) 
      (if checkOnly r then s.dev
       else { s.dev with isl := { s.dev.isl with pending := some p, pendingCrc := setCrc p, pendingCyc := 0 } }) s)) ∧
  (∀ (s : State) (r : Req) (p : List Word), Served 0x0602 false r s → s.dev.isl.pending = some p →
      arg r 2 = s.dev.isl.pendingCrc → exec (.safetyConfirm r) s = .next (taken 0x0602 false r (.ok [s.dev.nowTick]) 
      { s.dev with isl := { s.dev.isl with accepted := some p, pending := none } } s)) ∧
  (∀ (s : State) (r : Req) (d : Dev), Served 0x0603 false r s →
      d = s.dev.modZone (bits (arg r 2) 2 0) (fun z => { z with reqNext := some (bit (arg r 3) 0) }) →
      exec (.zoneRequest r) s = .next (taken 0x0603 false r (.ok [d.nowTick]) d s)) ∧
  (∀ (s : State) (r : Req) (z : Nat) (d : Dev), Served 0x0604 false r s → z = bits (arg r 2) 2 0 →
      s.dev.isl.mayReset z = true → ((s.dev.isl.zone z).locked = true ∨ (s.dev.isl.zone z).uvHold = true) →
      resetEn s.dev.isl.params z = true → d = s.dev.modZone z (fun x => { x with armed := true, armedCyc := 0 }) →
      exec (.resetArm r) s = .next (taken 0x0604 false r (.ok [d.nowTick]) d s)) ∧
  (∀ (s : State) (r : Req) (f : RecForm), Served 0x0605 true r s → bits (arg r 2) 31 16 = 8 → recForm r 9 1 = some f →
      exec (.safetyStatus r) s = .next (taken 0x0605 true r (f.readReply r [s.dev.isl.word]) s.dev s)) ∧
  (∀ (s : State) (r : Req) (f : RecForm), Served 0x0605 true r s → bits (arg r 2) 31 16 ≠ 8 → recForm r 8 2 = some f →
      exec (.safetyStatus r) s = .next (taken 0x0605 true r (f.readReply r (s.dev.isl.zoneWords f.index)) s.dev s)) ∧
  (∀ (s : State), 120000 ≤ s.dev.isl.pendingCyc →
      exec .pendingDrop s = .next (withDev s { s.dev with isl := { s.dev.isl with pending := none } })) ∧
  (∀ (s : State) (z : Fin 8), 10000 ≤ (s.dev.isl.zone z.val).armedCyc →
      exec (.armedExpiry z) s =
      .next (withDev s (s.dev.modZone z.val (fun x => if 10000 ≤ x.armedCyc then { x with armed := false } else x))))

/-- The safety island's own events, which a held main logic does not stop (R258, R259, R262, R263, R269, R270, R272,
R274, R439, R453). -/
def Obligations.IslandCyclesAndTests : Prop :=
  (∀ (s : State) (i : IslandIn), (s.dev.isl.state = .run ∨ s.dev.isl.state = .noParams ∧ s.dev.isl.accepted.isSome = true) →
      cycleStops i = false →
      exec (.islandCycle i) s = .next (withDev s (s.dev.runCycle i))) ∧
  (∀ (s : State) (i : IslandIn), (s.dev.isl.state = .run ∨ s.dev.isl.state = .noParams) →
      cycleStops i = true →
      exec (.islandCycle i) s = .next (withDev s s.dev.safeStop)) ∧
  (∀ (s : State) (i : IslandIn), (s.dev.isl.state = .safeStop ∨ s.dev.isl.state = .noParams ∧ s.dev.isl.accepted = none ∧ cycleStops i = false) →
      exec (.islandCycle i) s = .next (withDev s (s.dev.restCycle i))) ∧
  (∀ (s : State) (q : Dev × List (Nat × Word)), s.dev.isl.state = .run → s.dev.isl.solo = true →
      soloMax s.dev.isl.params ≤ s.dev.isl.soloCyc →
      q = s.dev.lockZones (fun _ => [0xA]) →
      exec .soloExpired s = .next (withDev s ((q.1.driveOutputs).islandEvents q.2))) ∧
  (∀ (s : State) (tp : Fin 4) (a b : List PulseSeen) (bad : Nat) (t : Tbl PairSt) (q : Dev × List (Nat × Word)), s.dev.isl.state = .run →
      bad = maskOf 8 (fun i => s.dev.isl.pulseFails tp.val i a b) →
      t = (List.range 8).foldl (fun t i =>
        if nbit bad i then tblMod {} t i (fun x => { x with tpLeft := 10 })
        else if nbit (fedBy s.dev.isl.params tp.val) i then tblMod {} t i (fun x => { x with tpLeft := x.tpLeft - 1 })
        else t) s.dev.isl.pairs →
      q = ({ s.dev with isl := { s.dev.isl with pairs := t } } : Dev).lockZones
        (fun z => if zonePairs s.dev.isl.params z &&& bad ≠ 0 then [6] else []) →
      exec (.testPulse tp ⟨a, b⟩) s = .next (withDev s ((q.1.driveOutputs).islandEvents q.2))) ∧
  (∀ (s : State) (n : Fin 8) (low : Bool) (q : Dev × List (Nat × Word)), nbit s.dev.isl.outputs n.val = true →
      q = s.dev.lockZones (fun z => if nbit (zoneOuts s.dev.isl.params z) n.val then [7] else []) →
      exec (.outputTest n low false) s =
        .next (withDev s ((q.1.driveOutputs).islandEvents ((0x082, word n.val) :: q.2)))) ∧
  (∀ (s : State), exec .vsafePowerOn s =
      .next (withDev s { s.dev with isl := { sev5Seen := s.dev.flt.sev5Pulses } })) ∧
  (∀ (s : State), s.dev.isl.state = .boot →
      exec (.islandSelfTest true) s = .next (withDev s { s.dev with isl := { s.dev.isl with state := .noParams } })) ∧
  (∀ (s : State), s.dev.isl.state = .boot → exec (.islandSelfTest false) s = .next (withDev s s.dev.safeStop)) ∧
  (∀ (s : State), exec .vsafeLoss s = .next (withDev s s.dev.vsafeLost))

/-- METER_PARAM, PULSE_IN, PULSE_OUT, METER_CLEAR and the snapshot request (R298, R300, R301, R304, R309, R311, R411,
R427). -/
def Obligations.MeterCommandsServed : Prop :=
  (∀ (s : State) (r : Req), Served 0x0501 false r s →
      meterParamBad (bits (arg r 2) 15 8) (bits (arg r 2) 7 0) (arg r 3) = none → exec (.meterParam r) s =
      .next (taken 0x0501 false r (.ok [s.dev.landTickOf (.meterParam (bits (arg r 2) 15 8) (bits (arg r 2) 7 0) (arg r 3))]) 
      (s.dev.landFor r (.meterParam (bits (arg r 2) 15 8) (bits (arg r 2) 7 0) (arg r 3))) s)) ∧
  (∀ (s : State) (r : Req), Served 0x0502 false r s → 1 ≤ bits (arg r 3) 6 0 → bits (arg r 3) 6 0 ≤ 100 →
      1 ≤ (arg r 4).toNat → (arg r 4).toNat ≤ 3600 → 1 ≤ (arg r 5).toNat → (arg r 5).toNat ≤ 1000 →
      exec (.pulseIn r) s = .next (taken 0x0502 false r 
      (.ok [s.dev.landTickOf (.pulseIn (bits (arg r 2) 3 0) (arg r 3) (arg r 4) (arg r 5))]) (s.dev.landFor r (.pulseIn (bits (arg r 2) 3 0) (arg r 3) (arg r 4) (arg r 5))) s)) ∧
  (∀ (s : State) (r : Req), Served 0x0503 false r s → bits (arg r 3) 23 16 ≤ 135 → bits (arg r 3) 7 0 ≠ 0 →
      arg r 4 ≠ 0 → exec (.pulseOut r) s = .next (taken 0x0503 false r (.ok [s.dev.landTickOf (.pulseOut (bits (arg r 2) 2 0) (arg r 3) (arg r 4))]) 
      (s.dev.landFor r (.pulseOut (bits (arg r 2) 2 0) (arg r 3) (arg r 4))) s)) ∧
  (∀ (s : State) (r : Req), Served 0x0504 false r s → exec (.meterClear r) s =
      .next (taken 0x0504 false r (.ok [s.dev.nowTick]) 
      { s.dev with meter := { s.dev.meter with unattr := [], gapS := 0, uncertWh := 0, uncertMol := 0 } } s)) ∧
  (∀ (s : State) (m : Master) (v : Word), MayWrite m 2 s → exec (.snapReq m v) s =
      .next (withDev s (s.dev.writeMeter0 v)))

/-- Pulse inputs and outputs, and the images of the accumulators (R302, R303, R304, R305, R307). The model's readings: a
window that did not begin at the multiple before is not judged (log entry 150), and PULSE_OUTPUT_END ends pulse and pause by
the output's state (log entry 90). -/
def Obligations.PulsesAndMeterImages : Prop :=
  (∀ (s : State) (i : Fin 16) (a d : Dev), Live s → (s.dev.inOf i.val).en = true → (s.dev.inOf i.val).level = false →
      a = s.dev.modIn i.val (fun p => { p with level := true, activeAt := s.dev.now }) → (s.dev.inOf i.val).stuckRaw = false →
      d = a.modIn i.val (fun p => { p with window := p.window + 1 }) → exec (.pulseInputChange i true) s =
      .next (withDev s 
      ((d.gain (104 + i.val) (d.corrected (104 + i.val) 1 false)).useFresh))) ∧
  (∀ (s : State) (i : Fin 16), Live s → (s.dev.inOf i.val).level = false →
      ((s.dev.inOf i.val).stuckRaw = true ∨ (s.dev.inOf i.val).en = false) → exec (.pulseInputChange i true) s =
      .next (withDev s 
      (s.dev.modIn i.val (fun p => { p with level := true, activeAt := s.dev.now })))) ∧
  (∀ (s : State) (i : Fin 16), Live s → (s.dev.inOf i.val).level = true → exec (.pulseInputChange i false) s =
      .next (withDev s 
      ((s.dev.modIn i.val (fun p => { p with level := false, stuckRaw := false })).rawStuck))) ∧
  (∀ (s : State) (i : Fin 16) (d : Dev), Live s → (s.dev.inOf i.val).en = true → (s.dev.inOf i.val).level = true →
      (s.dev.inOf i.val).stuckRaw = false →
      s.dev.timeUp ((s.dev.inOf i.val).activeAt + 1250000000 * (s.dev.inOf i.val).stuckLim) = some d →
      exec (.pulseInputStuck i) s = .next (withDev s
      ((d.modIn i.val (fun p => { p with stuck := true, stuckRaw := true })).level 0x091 (word i.val)))) ∧
  (∀ (s : State) (i : Fin 16), Live s →
      s.dev.timeUp ((s.dev.inOf i.val).activeAt + 1250000000 * (s.dev.inOf i.val).stuckLim) = none →
      exec (.pulseInputStuck i) s = .next (withDev s s.dev)) ∧
  (∀ (s : State) (fast : List Nat) (d e g : Dev) (w : Nat), Live s →
      fast = (List.range 16).filter (fun i => decide ((s.dev.inOf i).maxRate < (s.dev.inOf i).window)) →
      d = forEach fast (fun i x => (x.modIn i (fun p => { p with overRate := true })).gain (120 + i)
        (s.dev.corrected (120 + i) (s.dev.inOf i).window false)) s.dev →
      e = forEach (d.meter.pulseIn.map (·.1)) (fun i x =>
        x.modIn i (fun p => { p with rateLast := min 65535 p.window, window := 0 })) d →
      g = ({ e with fresh := e.fresh + 140 } : Dev) → s.dev.tk.seqRun = true → s.dev.meter.windowTick = some w →
      w + s.dev.windowTicks = s.dev.tk.tick → s.dev.tk.tick % s.dev.windowTicks = 0 → 0 < s.dev.windowTicks →
      exec (.overRateWindow) s = .next (withDev s 
      ((match fast with | i :: _ => g.event 0x092 (word i) | [] => g).openWindows))) ∧
  (∀ (s : State), Live s → s.dev.tk.seqRun = true → s.dev.meter.windowTick = none →
      s.dev.tk.tick % s.dev.windowTicks = 0 → exec (.overRateWindow) s = .next (withDev s s.dev.openWindows)) ∧
  (∀ (s : State), Live s → s.dev.tk.seqRun = true → s.dev.tk.tick % s.dev.windowTicks ≠ 0 → exec (.overRateWindow) s =
      .next (withDev s s.dev)) ∧
  (∀ (s : State) (j : Fin 8), Live s → s.dev.drivesPulses = true → (s.dev.outOf j.val).en = true →
      (s.dev.outOf j.val).phase = 0 → (s.dev.outOf j.val).backlog ≠ 0 → exec (.pulseOutputStart j) s =
      .next (withDev s 
      (s.dev.modOut j.val (fun o => { o with phase := 1, phaseAt := s.dev.now, backlog := o.backlog - 1, owing := o.owing && decide (o.backlog ≠ 1) })))) ∧
  (∀ (s : State) (j : Fin 8) (d : Dev), Live s → (s.dev.outOf j.val).phase ≠ 0 →
      s.dev.timeUp ((s.dev.outOf j.val).phaseAt + 1250000 * (s.dev.outOf j.val).width) = some d →
      exec (.pulseOutputEnd j) s =
      .next (withDev s (d.modOut j.val (fun o => { o with phase := if o.phase = 1 then 2 else 0, phaseAt := d.now })))) ∧
  (∀ (s : State) (j : Fin 8), Live s → (s.dev.outOf j.val).phase ≠ 0 →
      s.dev.timeUp ((s.dev.outOf j.val).phaseAt + 1250000 * (s.dev.outOf j.val).width) = none →
      exec (.pulseOutputEnd j) s = .next (withDev s s.dev)) ∧
  (∀ (s : State), Live s → s.dev.tk.seqRun = true → s.dev.tk.tick % s.dev.saveTicks = 0 →
      s.dev.meter.imageTick ≠ some s.dev.tk.tick → exec (.meterImageLatch) s = .next (withDev s 
      { s.dev.latchImage with meter := { s.dev.latchImage.meter with imageTick := some s.dev.tk.tick } })) ∧
  (∀ (s : State) (i : MeterImage), Live s → s.dev.meter.latched = some i → s.dev.meter.writing = true →
      exec (.imageWriteDone true) s =
      .next (withDev s { s.dev with fram := s.dev.fram.put i, meter := { s.dev.meter with saveSeq := i.seq, saveTick := i.tick, writing := false } })) ∧
  (∀ (s : State) (i : MeterImage), Live s → s.dev.meter.latched = some i → s.dev.meter.writing = true →
      exec (.imageWriteDone false) s =
      .next (withDev s { s.dev with fram := s.dev.fram.put { i with good := false }, meter := { s.dev.meter with
      saveFail := true, retried := true, writing := !s.dev.meter.retried } }))

/-- The converters: records, urgent conversions, calibration and conversion ends (R316, R318, R319, R320, R321, R323, R324,
R325, R416, R427). The model's reading: ADC_CAL, which names no converter, goes to the one that has the input (log entry 25).
-/
def Obligations.ConverterCommands : Prop :=
  (∀ (s : State) (r : Req) (f : RecForm), Served 0x0505 true r s → r.write = false → bits (arg r 2) 31 16 = 8 →
      recForm r 9 1 = some f → exec (.adc r) s =
      .next (taken 0x0505 true r (f.readReply r [word (b1 s.dev.adcs.mainsNom)]) s.dev s)) ∧
  (∀ (s : State) (r : Req) (f : RecForm), Served 0x0505 true r s → r.write = false → bits (arg r 2) 31 16 ≠ 8 →
      recForm r 8 8 = some f → exec (.adc r) s =
      .next (taken 0x0505 true r (f.readReply r (s.dev.adcWords f.index)) s.dev s)) ∧
  (∀ (s : State) (r : Req) (f : RecForm), Served 0x0505 false r s → r.write = true → bits (arg r 2) 31 16 = 8 →
      recForm r 9 1 = some f → exec (.adc r) s = .next (taken 0x0505 false r (.ok [s.dev.landTickOf (.adc 8 0 [f.wordOr 0 0])]) 
      (s.dev.landFor r (.adc 8 0 [f.wordOr 0 0])) s)) ∧
  (∀ (s : State) (r : Req) (f : RecForm) (d : Dev), Served 0x0505 false r s → r.write = true →
      bits (arg r 2) 31 16 ≠ 8 → recForm r 8 8 = some f → s.dev.adcBad f.index f = none →
      d = s.dev.modAdc f.index (fun x => { x with
      refFail := x.refFail && !bit (f.wordOr 4 0) 12, ovrSeen := x.ovrSeen && !bit (f.wordOr 4 0) 11 }) → exec (.adc r) s = .next (taken 0x0505 false r 
      (.ok [d.landTickOf (.adc f.index f.first (f.data.take f.count))]) (d.landFor r (.adc f.index f.first (f.data.take f.count))) s)) ∧
  (∀ (s : State) (r : Req), Served 0x0506 false r s → s.dev.interleaved (bits (arg r 2) 2 0) = false →
      LongFree 0x0506 r s.dev → exec (.adcUrgent r) s = .next (taken 0x0506 false r (.accepted r) 
      ((begun 0x0506 r s.dev).modAdc (bits (arg r 2) 2 0) (fun x =>
        { x with urgent := some { input := bits (arg r 3) 4 0, range := bits (arg r 3) 9 8, stage := 0 } })) s)) ∧
  (∀ (s : State) (r : Req), Served 0x0506 false r s → s.dev.interleaved (bits (arg r 2) 2 0) = true →
      exec (.adcUrgent r) s = .next (taken 0x0506 false r .wrongState s.dev s)) ∧
  (∀ (s : State) (r : Req) (full : Bool) (fs c : Nat), Served 0x0507 false r s → full = bit (arg r 2) 31 →
      fs = rangeMicrovolts (bits (arg r 2) 9 8) → (full = true →
      50 * fs ≤ 100 * (sval (arg r 3)).natAbs ∧ 100 * (sval (arg r 3)).natAbs ≤ 95 * fs) → LongFree 0x0507 r s.dev →
      c = s.dev.calConverter (bits (arg r 2) 4 0) → (s.dev.adcOf c).cal = none → exec (.adcCal r) s =
      .next (taken 0x0507 false r (.accepted r) 
      (((begun 0x0507 r s.dev).modAdc c (fun x => { x with cal := some {
        full := full, input := bits (arg r 2) 4 0, range := bits (arg r 2) 9 8, vApp := sval (arg r 3) } })).useFresh) s)) ∧
  (∀ (s : State) (r : Req) (full : Bool) (fs c : Nat), Served 0x0507 false r s → full = bit (arg r 2) 31 →
      fs = rangeMicrovolts (bits (arg r 2) 9 8) → (full = true →
      50 * fs ≤ 100 * (sval (arg r 3)).natAbs ∧ 100 * (sval (arg r 3)).natAbs ≤ 95 * fs) → LongFree 0x0507 r s.dev →
      c = s.dev.calConverter (bits (arg r 2) 4 0) → (s.dev.adcOf c).cal ≠ none → exec (.adcCal r) s =
      .next (taken 0x0507 false r .busy s.dev s)) ∧
  (∀ (s : State) (r : Req) (f : RecForm), Served 0x0508 true r s → recForm r 128 4 = some f → exec (.adcCoef r) s =
      .next (taken 0x0508 true r 
      (f.readReply r (tblGet ({} : AdcCoef) s.dev.adcs.coefs f.index).words) s.dev s)) ∧
  (∀ (s : State) (c : Fin 8) (raw : Int) (o d : Dev), Live s → (s.dev.adcOf c.val).busy = true →
      o = s.dev.openWindow c.val → o.timeUp ((o.adcOf c.val).conv.startAt + (o.adcOf c.val).conv.len) = some d →
      exec (.conversionEnd c raw) s = .next (withDev s (d.conversionEnd c.val raw))) ∧
  (∀ (s : State) (c : Fin 8) (raw : Int) (o : Dev), Live s → o = s.dev.openWindow c.val →
      o.timeUp ((o.adcOf c.val).conv.startAt + (o.adcOf c.val).conv.len) = none →
      exec (.conversionEnd c raw) s = .next (withDev s s.dev)) ∧
  (∀ (s : State) (pair : Fin 4) (e : Nat) (o d : Dev) (v : AdcConv), Live s → e = 2 * pair.val → s.dev.interleaved e = true →
      (s.dev.adcOf e).busy = true → (s.dev.adcOf (e + 1)).busy = false → (s.dev.adcOf e).conv.pair = true →
      o = s.dev.openWindow e → v = (o.adcOf e).conv → o.timeUp (v.startAt + v.len / 2) = some d →
      exec (.oddConversionStart pair) s = .next (withDev s
      (d.startWith (e + 1) v.kind v.input v.range 0 v.tmode v.ncyc v.tfix)))

/-- MAP_LOAD, RECIPE_LOAD and COEF_STAGE, and what the end of each load stages (R71, R76, R86, R87, R125, R411, R416,
R418, R419, R420). -/
def Obligations.ImageLoadsStage : Prop :=
  (∀ (s : State) (r : Req), Served 0x0101 false r s → imgArgs r (some 2448) = none → arg r 2 = 0 →
      (s.dev.tk.commit = .idle ∨ nbit s.dev.tk.set 1 = false) → LongFree 0x0101 r s.dev → exec (.mapLoad r) s =
      .next (taken 0x0101 false r (.accepted r) (begun 0x0101 r s.dev) s)) ∧
  (∀ (d : Dev) (r : Req) (ws : List Word), ws = d.image r → crc32 (wordsBytes ws) = arg r 5 →
      d.mapBad ws = none →
      finishMapLoad r d = (.ok [0xFFFFFFFF], if checkOnly r then d else { d with mapStaged := some ws })) ∧
  (∀ (s : State) (r : Req), Served 0x0201 false r s → imgArgs r none = none → (arg r 2).toNat ≤ 15 →
      s.dev.slotTaken (arg r 2).toNat = false → LongFree 0x0201 r s.dev → exec (.recipeLoad r) s =
      .next (taken 0x0201 false r (.accepted r) (begun 0x0201 r s.dev) s)) ∧
  (∀ (d : Dev) (r : Req) (ws : List Word) (n : Nat), ws = d.image r → crc32 (wordsBytes ws) = arg r 5 →
      (arg r 4).toNat = 784 + 8 * wayArea ws → recipeBad ws = none → d.slotTaken (arg r 2).toNat = false →
      n = (arg r 2).toNat →
      finishRecipeLoad r d = (.ok [0xFFFFFFFF], if checkOnly r then d else 
        { d with recipes := { d.recipes with slots := tblSet {} d.recipes.slots n { valid := true, words := ws }, staged := some n } })) ∧
  (∀ (s : State) (r : Req), Served 0x0306 false r s → imgArgs r none = none → arg r 2 = 0 → LongFree 0x0306 r s.dev →
      exec (.coefStage r) s = .next (taken 0x0306 false r (.accepted r) (begun 0x0306 r s.dev) s)) ∧
  (∀ (d : Dev) (r : Req) (ws : List Word), ws = d.image r → crc32 (wordsBytes ws) = arg r 5 →
      (arg r 4).toNat = 4 + 64 * (wat ws 0).toNat → coefImageBad ws = none →
      finishCoefStage r d = (.ok [0xFFFFFFFF], if checkOnly r then d else { d with spin := { d.spin with stagedCoef := some (coefEntries ws) } }))

/-- The recipe group: channel calibration, offsets, scales, time-out, targets and reports (R89, R90, R91, R92, R93, R94,
R96, R100, R118, R411, R424). -/
def Obligations.RecipeCommandsServed : Prop :=
  (∀ (s : State) (r : Req), Served 0x0202 false r s → exec (.chanStage r) s =
      .next (taken 0x0202 false r (.ok [0xFFFFFFFF]) 
      (s.dev.modChan (bits (arg r 2) 4 0) (fun c => { c with staged := some {
        eta := (arg r 3).toNat, v0 := (arg r 4).toNat, rd := (arg r 5).toNat, iMax := (arg r 6).toNat
        maxSlew := sval (arg r 7), priority := bits (arg r 8) 3 0, iRated := (arg r 9).toNat, pRated := (arg r 10).toNat } })) s)) ∧
  (∀ (s : State) (r : Req), Served 0x0203 false r s → -86400 ≤ sval (arg r 2) → sval (arg r 2) ≤ 86400 →
      exec (.localOffset r) s = .next (taken 0x0203 false r 
      (.ok [if s.dev.tk.seqRun then word s.dev.stepLandTick else 0]) 
      { s.dev with recipes := { s.dev.recipes with stepWrites := s.dev.recipes.stepWrites ++
        [{ write := .localOffset (sval (arg r 2)), since := s.dev.stepSince, asker := some (askerOf r) }] } } s)) ∧
  (∀ (s : State) (r : Req), Served 0x0204 false r s → (bits (arg r 3) 17 16 = 1 ∨ bits (arg r 3) 17 16 = 2) →
      bits (arg r 3) 15 0 ≤ 0x8000 → exec (.scale r) s = .next (taken 0x0204 false r 
      (.ok [if s.dev.tk.seqRun then word s.dev.stepLandTick else 0]) 
      { s.dev with recipes := { s.dev.recipes with stepWrites := s.dev.recipes.stepWrites ++
        [{ write := .scale (arg r 2).toNat (bits (arg r 3) 17 16) (bits (arg r 3) 15 0) (join48 (arg r 4) (arg r 5)), since := s.dev.stepSince, asker := some (askerOf r) }] } } s)) ∧
  (∀ (s : State) (r : Req), Served 0x0205 false r s → (arg r 2).toNat ≤ 3600 → exec (.dlTimeout r) s =
      .next (taken 0x0205 false r 
      (.ok [if s.dev.tk.seqRun then word s.dev.stepLandTick else 0]) 
      { s.dev with recipes := { s.dev.recipes with stepWrites := s.dev.recipes.stepWrites ++
        [{ write := .dlTimeout (arg r 2).toNat, since := s.dev.stepSince, asker := some (askerOf r) }] } } s)) ∧
  (∀ (s : State) (r : Req) (f : RecForm), Served 0x0206 true r s → recForm r 32 4 = some f → exec (.target r) s =
      .next (taken 0x0206 true r (f.readReply r (s.dev.targetWords f.index)) s.dev s)) ∧
  (∀ (s : State) (r : Req) (f : RecForm), Served 0x0207 true r s → recForm r 32 8 = some f → exec (.report r) s =
      .next (taken 0x0207 true r (f.readReply r (s.dev.chanOf f.index).reportWords) s.dev s)) ∧
  (∀ (s : State), Live s → s.dev.tk.seqRun = true → s.dev.tk.tick % s.dev.stepTicks = 0 → exec (.recipeStep true) s =
      .next (withDev s s.dev.recipeStep)) ∧
  (∀ (s : State), Live s → s.dev.tk.seqRun = true → s.dev.tk.tick % s.dev.stepTicks = 0 → exec (.recipeStep false) s =
      .next (withDev s s.dev.recipeMissed))

/-- The spindle group: coefficients, open and close, hold, flags and allocator staging (R71, R72, R75, R76, R77, R81,
R116, R411, R412, R425). -/
def Obligations.SpindleCommandsServed : Prop :=
  (∀ (s : State) (r : Req) (f : RecForm) (d : Dev), Served 0x0301 false r s → recForm r 2048 14 = some f →
      s.dev.openPending f.index = false → (s.dev.instOf f.index).isOpen = true →
      d = s.dev.modInst f.index (fun i => { i with coef := (List.range 14).map (fun k => coefMask k (f.wordOr k (wat (s.dev.instOf f.index).coef k))) }) → exec (.coefWrite r) s = .next (taken 0x0301 false r 
      (.ok [d.nowTick]) d s)) ∧
  (∀ (s : State) (r : Req) (f : RecForm), Served 0x0302 true r s → recForm r 2048 16 = some f → exec (.coefRead r) s =
      .next (taken 0x0302 true r (f.readReply r (s.dev.coefWords f.index)) s.dev s)) ∧
  (∀ (s : State) (r : Req) (n : Nat) (d : Dev), Served 0x0303 false r s → n = bits (arg r 2) 10 0 →
      (s.dev.instOf n).pendingOc = false → d = s.dev.modInst n (fun i => { i with pendingOc := true }) →
      exec (.openClose r) s = .next (taken 0x0303 false r (.ok [d.landTickOf (.openClose n (bit (arg r 2) 31))]) 
      (d.landFor r (.openClose n (bit (arg r 2) 31))) s)) ∧
  (∀ (s : State) (r : Req), Served 0x0304 false r s → exec (.hold r) s =
      .next (taken 0x0304 false r (.ok [s.dev.landTickOf (.hold (bits (arg r 2) 10 0) (bit (arg r 2) 16) (arg r 3))]) 
      (s.dev.landFor r (.hold (bits (arg r 2) 10 0) (bit (arg r 2) 16) (arg r 3))) s)) ∧
  (∀ (s : State) (r : Req) (d : Dev), Served 0x0305 false r s →
      d = s.dev.modInst (bits (arg r 2) 10 0) (fun i => { i with
      bump := i.bump && !bit (arg r 3) 22, inverted := i.inverted && !bit (arg r 3) 21
      intClamp := i.intClamp && !bit (arg r 3) 20, outSat := i.outSat && !bit (arg r 3) 19
      accSat := i.accSat && !bit (arg r 3) 18 }) → exec (.flagClear r) s = .next (taken 0x0305 false r (.ok [d.nowTick]) d s)) ∧
  (∀ (s : State) (r : Req) (sec first count : Nat) (t : Tbl (Option Word)), Served 0x0307 false r s →
      sec = bits (arg r 2) 3 0 → first = bits (arg r 2) 11 8 → count = bits (arg r 2) 15 12 → sec ≤ 5 → 1 ≤ count →
      first + count ≤ 6 → (first + count = 6 → sval (arg r (8 - first)) ≤ 0x2CCCCCCD) →
      t = (List.range count).foldl (fun t i => tblSet none t (8 * sec + first + i) (some (arg r (3 + i)))) s.dev.spin.stagedAlloc → exec (.allocStage r) s = .next (taken 0x0307 false r 
      (.ok [0xFFFFFFFF]) 
      { s.dev with spin := { s.dev.spin with stagedAlloc := t } } s))

/-- MAP_READ, SECTION_STATUS, ENCODER and STRAND (R119, R124, R139, R186, R412, R423). -/
def Obligations.MapAndStrandRecords : Prop :=
  (∀ (s : State) (r : Req), Served 0x0102 true r s → bits (arg r 2) 15 0 < 612 → exec (.mapRead r) s =
      .next (taken 0x0102 true r 
      (.ok (arg r 2 :: (List.range 13).map (fun i =>
        wat ((if bit (arg r 2) 16 then s.dev.mapStaged else s.dev.mapForce).getD []) (bits (arg r 2) 15 0 + i)))) s.dev s)) ∧
  (∀ (s : State) (r : Req) (f : RecForm), Served 0x0103 true r s → r.write = false → recForm r 6 4 = some f →
      exec (.sectionStatus r) s =
      .next (taken 0x0103 true r (f.readReply r (s.dev.secOf f.index).statusWords) s.dev s)) ∧
  (∀ (s : State) (r : Req) (f : RecForm) (d : Dev), Served 0x0103 false r s → r.write = true → recForm r 6 4 = some f →
      d = s.dev.modSec f.index (fun x => { x with shareShort := x.shareShort && !bit (f.wordOr 3 0) 4 }) →
      exec (.sectionStatus r) s = .next (taken 0x0103 false r 
      (.ok [d.nowTick]) d s)) ∧
  (∀ (s : State) (r : Req) (f : RecForm), Served 0x0104 true r s → r.write = false →
      recForm r s.dev.strandCount 4 = some f → exec (.encoder r) s =
      .next (taken 0x0104 true r (f.readReply r (s.dev.cellOf f.index).words) s.dev s)) ∧
  (∀ (s : State) (r : Req) (f : RecForm) (d : Dev), Served 0x0104 false r s → r.write = true →
      recForm r s.dev.strandCount 4 = some f →
      d = s.dev.modCell f.index (fun x => { x with phiClamp := x.phiClamp && !bit (f.wordOr 3 0) 2 }) →
      exec (.encoder r) s = .next (taken 0x0104 false r 
      (.ok [d.nowTick]) d s)) ∧
  (∀ (s : State) (r : Req) (f : RecForm), Served 0x0105 true r s → r.write = false →
      recForm r s.dev.strandCount 8 = some f → exec (.strand r) s =
      .next (taken 0x0105 true r (f.readReply r (s.dev.strandOf f.index).words) s.dev s)) ∧
  (∀ (s : State) (r : Req) (f : RecForm) (w : Word) (d : Dev), Served 0x0105 false r s → r.write = true →
      recForm r s.dev.strandCount 8 = some f → f.wordFor 0 = some w →
      d = s.dev.modStrand f.index (fun x => { x with late := x.late && !bit w 10 }) → exec (.strand r) s =
      .next (taken 0x0105 false r 
      (.ok [d.landTickOf (.strandFields f.index w)]) (d.landFor r (.strandFields f.index w)) s)) ∧
  (∀ (s : State) (r : Req) (f : RecForm), Served 0x0105 false r s → r.write = true →
      recForm r s.dev.strandCount 8 = some f → f.wordFor 0 = none → exec (.strand r) s =
      .next (taken 0x0105 false r (.ok [s.dev.nowTick]) s.dev s))

/-- AUX_OUT, RETURN, DEEP_REST, WAKE, ENDPOINT_CMD and BULK_RING (R157, R171, R175, R178, R180, R411, R416, R423). -/
def Obligations.StrandCommandsServed : Prop :=
  (∀ (s : State) (r : Req), Served 0x0106 false r s → bits (arg r 2) 3 0 < s.dev.skeinCount → exec (.auxOut r) s =
      .next (taken 0x0106 false r (.ok [s.dev.landTickOf (.auxOut (bits (arg r 2) 3 0) (bits (arg r 2) 31 16))]) 
      (s.dev.landFor r (.auxOut (bits (arg r 2) 3 0) (bits (arg r 2) 31 16))) s)) ∧
  (∀ (s : State) (r : Req) (x : Strand) (u : Uplink), Served 0x0107 false r s → s.dev.badStrand (arg r 2) = false →
      x = s.dev.strandOf (bits (arg r 2) 7 0) → x.state = .active → 16 ≤ x.freshRun → x.last = some u →
      wat u.control 23 = 0 → exec (.returnCell r) s = .next (taken 0x0107 false r 
      (.ok [s.dev.landTickOf (.returnCell (bits (arg r 2) 7 0))]) (s.dev.landFor r (.returnCell (bits (arg r 2) 7 0))) s)) ∧
  (∀ (s : State) (r : Req), Served 0x0108 false r s → s.dev.badStrand (arg r 2) = false →
      (s.dev.mapped (bits (arg r 2) 7 0) = false ∨ s.dev.parked (bits (arg r 2) 7 0) = true) → exec (.deepRest r) s =
      .next (taken 0x0108 false r 
      (.ok [s.dev.landTickOf (.deepRest (bits (arg r 2) 7 0))]) (s.dev.landFor r (.deepRest (bits (arg r 2) 7 0))) s)) ∧
  (∀ (s : State) (r : Req), Served 0x0109 false r s → s.dev.badStrand (arg r 2) = false →
      (s.dev.strandOf (bits (arg r 2) 7 0)).state = .deep → exec (.wake r) s =
      .next (taken 0x0109 false r (.ok [s.dev.landTickOf (.wake (bits (arg r 2) 7 0))]) 
      (s.dev.landFor r (.wake (bits (arg r 2) 7 0))) s)) ∧
  (∀ (s : State) (r : Req) (c : Nat), Served 0x010A false r s → s.dev.badStrand (arg r 2) = false →
      c = bits (arg r 3) 7 0 → c ≠ 4 → c ≠ 5 → LongFree 0x010A r s.dev → exec (.endpointCmd r) s =
      .next (taken 0x010A false r (.accepted r) 
      ((begun 0x010A r s.dev).modStrand (bits (arg r 2) 7 0) (fun x => x.queueCmd
        { cmd := c, arg0 := bits (arg r 4) 15 0, args := [arg r 5, arg r 6, arg r 7], host := true })) s)) ∧
  (∀ (s : State) (r : Req), Served 0x010B false r s → s.dev.badStrand (arg r 2) = false → areaLo ≤ (arg r 3).toNat →
      (arg r 3).toNat + (arg r 4).toNat ≤ areaEnd → exec (.bulkRing r) s = .next (taken 0x010B false r 
      (.ok [s.dev.landTickOf (.bulkRing (bits (arg r 2) 7 0) (bit (arg r 2) 8) (arg r 3).toNat (arg r 4).toNat)]) 
      (s.dev.landFor r (.bulkRing (bits (arg r 2) 7 0) (bit (arg r 2) 8) (arg r 3).toNat (arg r 4).toNat)) s))

/-- The states of a strand from DETECT to ACTIVE, DEEP and FAILED (R161, R162, R163, R164, R168, R180, R187). -/
def Obligations.StrandStatesMove : Prop :=
  (∀ (s : State) (k : Fin 256), Live s → (s.dev.strandOf k.val).state = .detect →
      (s.dev.skeinOf (k.val / 16)).pllLocked = true → exec (.receiverDetection k true) s =
      .next (withDev s (s.dev.enter k.val .train 0))) ∧
  (∀ (s : State) (k : Fin 256), Live s → (s.dev.strandOf k.val).state = .detect →
      (s.dev.skeinOf (k.val / 16)).pllLocked = true → 10 ≤ (s.dev.strandOf k.val).detectTries + 1 →
      exec (.receiverDetection k false) s = .next (withDev s 
      ((s.dev.enter k.val .failed 1).reportDown [k.val]))) ∧
  (∀ (s : State) (k : Fin 256), Live s → (s.dev.strandOf k.val).state = .detect →
      (s.dev.skeinOf (k.val / 16)).pllLocked = true → (s.dev.strandOf k.val).detectTries + 1 < 10 →
      exec (.receiverDetection k false) s = .next (withDev s 
      (s.dev.modStrand k.val (fun x => { x with detectTries := x.detectTries + 1 })))) ∧
  (∀ (s : State) (k : Fin 256), Live s → (s.dev.strandOf k.val).state = .train → exec (.bitLock k) s =
      .next (withDev s (s.dev.enter k.val .lock 0))) ∧
  (∀ (s : State) (k : Fin 256), Live s → (s.dev.strandOf k.val).state = .train → exec (.trainTimeout k) s =
      .next (withDev s (s.dev.retryStrand k.val 2))) ∧
  (∀ (s : State) (k : Fin 256), Live s → (s.dev.strandOf k.val).state = .lock → exec (.symbolLock k) s =
      .next (withDev s (s.dev.modStrand k.val (fun x => { x with locked := true })))) ∧
  (∀ (s : State) (k : Fin 256), Live s → (s.dev.strandOf k.val).state = .lock → (s.dev.strandOf k.val).locked = false →
      exec (.lockTimeout k) s = .next (withDev s (s.dev.retryStrand k.val 3))) ∧
  (∀ (s : State) (k : Fin 256), Live s → (s.dev.strandOf k.val).state = .caps → exec (.capsTimeout k) s =
      .next (withDev s (s.dev.retryStrand k.val 4))) ∧
  (∀ (s : State) (k : Fin 256), Live s → exec (.symbolLockLost k) s = .next (withDev s (s.dev.linkLost [k.val]))) ∧
  (∀ (s : State) (k : Fin 256), Live s → (s.dev.strandOf k.val).state = .active → exec (.deepSymbols k) s =
      .next (withDev s 
      (((s.dev.enter k.val .deep 0).modStrand k.val (fun x => { x with capsKept := true })).reportDown [k.val]))) ∧
  (∀ (s : State) (k : Fin 256) (f : CapsFrame) (rtt : BitVec 24), Live s → capsGood f = true →
      (s.dev.strandOf k.val).state = .caps → (s.dev.strandOf k.val).capsDone = false → capsBad f.w0 f.w1 = false →
      exec (.capabilityFrame k f.w0 f.w1 f.w2 f.w3 ⟨f.crc, rtt⟩) s = .next (withDev s 
      (s.dev.capsExchange k.val f.w0 f.w1 f.w2 f.w3 rtt.toNat))) ∧
  (∀ (s : State) (k : Fin 256) (f : CapsFrame) (rtt : BitVec 24), Live s → capsGood f = true →
      (s.dev.strandOf k.val).state = .caps → (s.dev.strandOf k.val).capsDone = false → capsBad f.w0 f.w1 = true →
      exec (.capabilityFrame k f.w0 f.w1 f.w2 f.w3 ⟨f.crc, rtt⟩) s = .next (withDev s 
      ((s.dev.enter k.val .failed 5).reportDown [k.val]))) ∧
  (∀ (s : State) (k : Fin 256) (f : CapsFrame) (rtt : BitVec 24), Live s → capsGood f = true →
      (s.dev.strandOf k.val).state = .lock → exec (.capabilityFrame k f.w0 f.w1 f.w2 f.w3 ⟨f.crc, rtt⟩) s =
      .next (withDev s (s.dev.modStrand k.val (fun x => { x with capsKept := false })))) ∧
  (∀ (s : State) (k : Fin 256) (f : CapsFrame) (rtt : BitVec 24), Live s → capsGood f = true →
      (s.dev.strandOf k.val).state = .active → (s.dev.strandOf k.val).capsKept = true →
      exec (.capabilityFrame k f.w0 f.w1 f.w2 f.w3 ⟨f.crc, rtt⟩) s = .next (withDev s 
      (((s.dev.modStrand k.val (fun x => { x with capsKept := false })).enter k.val .caps 0).reportDown [k.val]))) ∧
  (∀ (s : State) (k : Fin 256) (f : CapsFrame) (rtt : BitVec 24), Live s → capsGood f = true →
      (s.dev.strandOf k.val).state = .active → (s.dev.strandOf k.val).capsKept = false →
      exec (.capabilityFrame k f.w0 f.w1 f.w2 f.w3 ⟨f.crc, rtt⟩) s = .next (withDev s (s.dev.linkLost [k.val]))) ∧
  (∀ (s : State) (k : Fin 256) (f : CapsFrame) (rtt : BitVec 24), Live s → capsGood f = false →
      exec (.capabilityFrame k f.w0 f.w1 f.w2 f.w3 ⟨f.crc, rtt⟩) s = .next (withDev s s.dev))

/-- Uplink frames, rest, cluster PLLs and strand supplies (R155, R156, R164, R167, R168, R175, R179, R444, R453). -/
def Obligations.StrandTrafficAndSupplies : Prop :=
  (∀ (s : State) (k : Fin 256) (f : UplinkLine) (e : Dev), Live s → (s.dev.strandOf k.val).state = .active →
      s.dev.injectUnit (injKey 0 k.val 1) = (none, e) → f.bulk = none → exec (.uplinkFrame k f) s = .next (withDev s 
      ((e.modStrand k.val (fun x => x.timed f.rtt)).modStrand k.val (fun x => { x with rx := some (received f) })))) ∧
  (∀ (s : State) (k : Fin 256) (f : UplinkLine) (e : Dev) (h : Word) (w : List Word) (c : Word), Live s →
      (s.dev.strandOf k.val).state = .active → s.dev.injectUnit (injKey 0 k.val 1) = (none, e) →
      f.bulk = some (h, w, c) → exec (.uplinkFrame k f) s = .next (withDev s 
      (((e.modStrand k.val (fun x => x.timed f.rtt)).modStrand k.val (fun x => { x with rx := some (received f) })).takeBulk k.val h w c))) ∧
  (∀ (s : State) (k : Fin 256) (f : UplinkLine) (e : Dev) (i : Injection), Live s →
      (s.dev.strandOf k.val).state = .active → s.dev.injectUnit (injKey 0 k.val 1) = (some i, e) → i.action = 1 →
      exec (.uplinkFrame k f) s = .next (withDev s (e.modStrand k.val (fun x => x.timed f.rtt)))) ∧
  (∀ (s : State) (k : Fin 256) (f : UplinkLine) (e d : Dev) (i : Injection), Live s →
      (s.dev.strandOf k.val).state = .active → s.dev.injectUnit (injKey 0 k.val 1) = (some i, e) → i.action ≠ 1 →
      d = (e.modStrand k.val (fun x => x.timed f.rtt)).modStrand k.val
      (fun x => { x with rx := some { received f with crcOk := false } }) → exec (.uplinkFrame k f) s =
      .next (withDev s 
      (if i.action = 2 ∧ 4 ≤ i.n then d.linkLost [k.val] else d))) ∧
  (∀ (s : State) (k : Fin 256), Live s → (s.dev.strandOf k.val).state = .active → (s.dev.strandOf k.val).restDn = true →
      bit (s.dev.strandOf k.val).caps0 19 = true → s.dev.strandCut k.val = false → s.dev.markWithin k.val 1250 = false →
      s.dev.frameWithin k.val 1250 = false → s.dev.bulkPending k.val = false → exec (.restEntry k) s =
      .next (withDev s 
      (s.dev.useFresh.modStrand k.val (fun x => { x with txRest := true, txLine := [.rest, .rest], txAt := x.gridFrom s.dev.tk.tickStart (64 * s.dev.now) })))) ∧
  (∀ (s : State) (k : Fin 256), Live s → (s.dev.strandOf k.val).state = .active → (s.dev.strandOf k.val).txRest = true →
      exec (.restExit k) s = .next (withDev s 
      (s.dev.modStrand k.val (fun x => { x with txRest := false, txLine := List.replicate 32 .comma, txAt := x.gridFrom s.dev.tk.tickStart (64 * (s.dev.now + 250) - 255) })))) ∧
  (∀ (s : State) (x : Fin 16), Live s → (s.dev.skeinOf x.val).acquiring = true → exec (.clusterPllLock x) s =
      .next (withDev s 
      ((s.dev.modSkein x.val (fun y => { y with acquiring := false, pllLocked := true })).kickPll))) ∧
  (∀ (s : State) (x : Fin 16) (d e : Dev) (act : List Nat), Live s → (s.dev.skeinOf x.val).pllLocked = true →
      d = s.dev.modSkein x.val (fun y => { y with pllLocked := false }) → act = d.activeOf (skeinStrands x.val) →
      e = (d.dropLinks act).kickPll → exec (.clusterPllUnlock x) s = .next (withDev s 
      (e.events (e.downOcc act ++ [(0x021, word x.val)])))) ∧
  (∀ (s : State) (dom : StrandSupply), Live s → exec (.supplyDomainOn dom) s =
      .next (withDev s (s.dev.domainUp dom))) ∧
  (∀ (s : State) (dom : StrandSupply), Live s → exec (.supplyDomainOff dom) s =
      .next (withDev s (s.dev.domainOff dom))) ∧
  (∀ (s : State) (dom : StrandSupply), s.dev.pwr.held = true →
      exec (.supplyDomainOn dom) s = .next (withDev s (s.dev.setDomain dom true))) ∧
  (∀ (s : State) (dom : StrandSupply), s.dev.pwr.held = true →
      exec (.supplyDomainOff dom) s = .next (withDev s (s.dev.setDomain dom false)))

/-- The ply link from DOWN to UP, the HELLO and its loss (R214, R216, R217, R218, R226, R463, R465). What an injection strikes
is the model's choice (log entry 201). -/
def Obligations.PlyLinkStates : Prop :=
  (∀ (s : State), Live s → s.dev.isMember = true → s.dev.ply.link = .down → s.dev.plyUnderTest = false →
      exec (.plyLinkLock) s = .next (withDev s (s.dev.modPly (fun p => { p with link := .lock })))) ∧
  (∀ (s : State), Live s → s.dev.isMember = true → s.dev.ply.link = .lock → exec (.plyLinkAlign) s =
      .next (withDev s (s.dev.modPly (fun p => { p with link := .align })))) ∧
  (∀ (s : State), Live s → s.dev.isMember = true → s.dev.ply.link ≠ .down → exec (.plyLinkError) s =
      .next (withDev s s.dev.plyLinkDown)) ∧
  (∀ (s : State), Live s → s.dev.isMember = true → (s.dev.ply.link = .lock ∨ s.dev.ply.link = .align) →
      exec (.plyLinkRestart) s = .next (withDev s (s.dev.modPly (fun p => { p with link := .down })))) ∧
  (∀ (s : State) (h : Hello), Live s → s.dev.isMember = true → s.dev.struckUnit = none → h.ucrcOk = true → s.dev.ply.link = .align →
      s.dev.sameDevice h = true → exec (.hello h) s =
      .next (withDev s ((s.dev.modPly (fun p => { p with link := .up })).takeHello h))) ∧
  (∀ (s : State) (h : Hello), Live s → s.dev.isMember = true → s.dev.struckUnit = none → h.ucrcOk = true →
      s.dev.ply.link = .align → s.dev.sameDevice h = false → exec (.hello h) s =
      .next (withDev s (((s.dev.modPly (fun p => { p with link := .incompat })).keepHello h).event 0x051 0))) ∧
  (∀ (s : State) (h : Hello), Live s → s.dev.isMember = true → s.dev.struckUnit = none → h.ucrcOk = true →
      s.dev.ply.link = .up → exec (.hello h) s = .next (withDev s (s.dev.takeHello h))) ∧
  (∀ (s : State) (h : Hello), Live s → s.dev.isMember = true → s.dev.struckUnit = none → h.ucrcOk = true →
      s.dev.ply.link = .incompat → exec (.hello h) s = .next (withDev s (s.dev.keepHello h))) ∧
  (∀ (s : State) (h : Hello) (e : Dev), Live s → s.dev.isMember = true → s.dev.ply.link ≠ .down →
      s.dev.struckUnit = some e → exec (.hello h) s = .next (withDev s e)) ∧
  (∀ (s : State), Live s → s.dev.isMember = true → s.dev.tk.seqRun = false →
      (s.dev.ply.link = .align ∨ s.dev.ply.link = .up ∨ s.dev.ply.link = .incompat) → exec (.helloTimer) s = .next (withDev s 
      (s.dev.modPly (fun p => { p with helloSent := p.helloSent + 1, helloTx := some s.dev.helloSend })))) ∧
  (∀ (s : State) (h : Hello), Live s → s.dev.isMember = true → s.dev.struckUnit = none → h.ucrcOk = false → s.dev.ply.link ≠ .down →
      exec (.hello h) s = .next (withDev s (s.dev.modPly (fun p => { p with ucrcErr := p.ucrcErr + 1 })))) ∧
  (∀ (s : State), Live s → s.dev.ply.pstate ≠ .xfer → exec (.helloAbsent) s =
      .next (withDev s (s.dev.modPly (fun p => { p with hello := none })))) ∧
  (∀ (s : State), Live s → s.dev.ply.pstate = .xfer → exec (.helloAbsent) s =
      .next (withDev s (s.dev.modPly (fun p => Ply.toCandidate { p with hello := none }))))

/-- Grant, resync, claim, yield, join and transfer of a ply member (R209, R224, R226, R227, R230, R232, R234, R235, R237,
R253, R463). What an injection strikes is the model's choice (log entry 201). -/
def Obligations.PlyMemberSteps : Prop :=
  (∀ (s : State), Live s → s.dev.isMember = true →
      (s.dev.ply.pstate = .candidate ∧ s.dev.ply.tickClash = false ∨ s.dev.ply.pstate = .standby) → s.dev.fits = true →
      exec (.grant) s =
      .next (withDev s (s.dev.modPly (fun p => { p with grantSeen := true, claimDue := some s.dev.now })))) ∧
  (∀ (s : State), Live s → s.dev.isMember = true →
      (s.dev.fits = false ∨ s.dev.ply.pstate = .candidate ∧ s.dev.ply.tickClash = true ∨
        s.dev.ply.pstate ≠ .candidate ∧ s.dev.ply.pstate ≠ .standby) → exec (.grant) s =
      .next (withDev s (s.dev.modPly (fun p => { p with grantSeen := true, grantIgnored := true })))) ∧
  (∀ (s : State), Live s → s.dev.isMember = true → (s.dev.ply.pstate = .shadow ∨ s.dev.ply.pstate = .standby) →
      exec (.resync) s = .next (withDev s (s.dev.modPly (fun p => Ply.resync { p with resyncSeen := true })))) ∧
  (∀ (s : State), Live s → s.dev.isMember = true → s.dev.ply.pstate ≠ .shadow → s.dev.ply.pstate ≠ .standby →
      exec (.resync) s =
      .next (withDev s (s.dev.modPly (fun p => { p with resyncSeen := true, grantIgnored := true })))) ∧
  (∀ (s : State) (t : Nat), Live s → s.dev.ply.claimDue = some t → t + 1250 ≤ s.dev.now →
      (s.dev.ply.pstate = .candidate ∨ s.dev.ply.pstate = .standby) → s.dev.becomeActive.ply.pstate = .active →
      exec (.claim) s = .next (withDev s s.dev.becomeActive.limitNow)) ∧
  (∀ (s : State) (t : Nat), Live s → s.dev.ply.claimDue = some t → t + 1250 ≤ s.dev.now →
      (s.dev.ply.pstate = .candidate ∨ s.dev.ply.pstate = .standby) → s.dev.becomeActive.ply.pstate ≠ .active →
      exec (.claim) s = .next (withDev s s.dev.becomeActive)) ∧
  (∀ (s : State), Live s → s.dev.ply.yieldDue = true → s.dev.ply.pstate = .active → exec (.yieldClaim) s =
      .next (withDev s 
      ((((s.dev.modPly (fun p =>
           { p with pstate := .yielded, yieldDue := false, held := none, log := [], logPart := 0, answers := [], deferred := []
                    xferJob := none, xferAgain := false })).dropTrims).discardHere).owedFromTick))) ∧
  (∀ (s : State) (h : Hello), Live s → s.dev.isMember = true → s.dev.ply.pstate = .candidate → s.dev.ply.link = .up →
      s.dev.ply.partnerActive = true → s.dev.ply.hello = some h → s.dev.ply.tickClash = false → s.dev.tk.seqRun = true →
      s.dev.sameTick h = true → exec (.plyJoin) s = .next (withDev s 
      (s.dev.modPly (fun p => { p with xferDue := true, xferReq := true })))) ∧
  (∀ (s : State) (h : Hello) (d : Dev), Live s → s.dev.isMember = true → s.dev.ply.pstate = .candidate →
      s.dev.ply.link = .up → s.dev.ply.partnerActive = true → s.dev.ply.hello = some h → s.dev.ply.tickClash = false →
      s.dev.tk.seqRun = false → s.dev.tk.starting = none → d = s.dev.adoptTick h → d.alignReady = true →
      exec (.plyJoin) s = .next (withDev s 
      (({ d with tk := { d.tk with starting := some 0, noBank := true, startAt := d.now, firstPulse := none } }).modPly
        (fun p => { p with joined := true, xferDue := true, xferReq := true })))) ∧
  (∀ (s : State) (h : Hello), Live s → s.dev.isMember = true → s.dev.ply.pstate = .candidate → s.dev.ply.link = .up →
      s.dev.ply.partnerActive = true → s.dev.ply.hello = some h → s.dev.ply.tickClash = false → s.dev.tk.seqRun = true →
      s.dev.sameTick h = false → exec (.plyJoin) s = .next (withDev s 
      ((s.dev.modPly (fun p => { p with tickClash := true })).event 0x051 1))) ∧
  (∀ (s : State) (left : Nat) (u : XferMsg) (e : Dev), Live s → s.dev.isMember = true → s.dev.ply.link = .up →
      s.dev.struckUnit = some e → exec (.xferUnit left u) s = .next (withDev s e)) ∧
  (∀ (s : State) (x : XferClose) (e : Dev), Live s → s.dev.isMember = true → s.dev.ply.link = .up →
      s.dev.struckUnit = some e → exec (.xferEnd x) s = .next (withDev s e)) ∧
  (∀ (s : State) (left : Nat) (u : XferUnit), Live s → s.dev.isMember = true → s.dev.ply.link = .up → s.dev.struckUnit = none →
      exec (.xferUnit left ⟨false, u⟩) s =
      .next (withDev s (s.dev.modPly (fun p => { p with ucrcErr := p.ucrcErr + 1 })))) ∧
  (∀ (s : State) (left : Nat) (u : XferUnit), Live s → s.dev.isMember = true → s.dev.ply.link = .up → s.dev.struckUnit = none →
      s.dev.ply.pstate = .xfer → exec (.xferUnit left ⟨true, u⟩) s =
      .next (withDev s ((s.dev.landXfer u).modPly (fun p => { p with xferLeft := left, xferAsk := false })))) ∧
  (∀ (s : State) (c : Bool), Live s → s.dev.isMember = true → s.dev.ply.link = .up → s.dev.struckUnit = none →
      exec (.xferEnd ⟨false, c⟩) s =
      .next (withDev s (s.dev.modPly (fun p => { p with ucrcErr := p.ucrcErr + 1 })))) ∧
  (∀ (s : State), Live s → s.dev.isMember = true → s.dev.ply.link = .up → s.dev.struckUnit = none → s.dev.ply.pstate = .xfer →
      exec (.xferEnd ⟨true, true⟩) s =
      .next (withDev s (s.dev.modPly (fun p => { p with shadowDue := true })))) ∧
  (∀ (s : State), Live s → s.dev.isMember = true → s.dev.ply.link = .up → s.dev.struckUnit = none → s.dev.ply.pstate = .xfer →
      exec (.xferEnd ⟨true, false⟩) s =
      .next (withDev s (s.dev.modPly (fun p => { p with xferAsk := true })))) ∧
  (∀ (s : State), Live s → s.dev.ply.pstate = .xfer → exec (.xferTimeout) s =
      .next (withDev s (s.dev.modPly Ply.toCandidate))) ∧
  (∀ (s : State), Live s → s.dev.ply.pstate = .shadow → 1000 ≤ s.dev.ply.cleanRun → exec (.comparedTicksDone) s =
      .next (withDev s (s.dev.modPly (fun p => { p with pstate := .standby, sync := true }))))

/-- Ply units, the image deadline, the lockstep cores and the start commands of a ply (R217, R219, R221, R223, R225, R226,
R235, R236, R243, R426, R463). What an injection strikes is the model's choice (log entry 201). -/
def Obligations.PlyUnitsAndStarts : Prop :=
  (∀ (s : State) (u : PlyRx) (e : Dev), Live s → s.dev.isMember = true → s.dev.ply.link = .up → s.dev.struckUnit = some e →
      exec (.plyUnit u) s = .next (withDev s e)) ∧
  (∀ (s : State) (u : PlyRx), Live s → s.dev.isMember = true → s.dev.ply.link = .up → s.dev.struckUnit = none → goodUnit u = false →
      exec (.plyUnit u) s = .next (withDev s (s.dev.modPly (fun p => { p with ucrcErr := p.ucrcErr + 1 })))) ∧
  (∀ (s : State) (u : PlyRx), Live s → s.dev.isMember = true → s.dev.ply.link = .up → s.dev.struckUnit = none → goodUnit u = true →
      s.dev.ply.receives = true → s.dev.tk.seqRun = true → exec (.plyUnit u) s =
      .next (withDev s (s.dev.plyUnit u))) ∧
  (∀ (s : State), Live s → s.dev.isMember = true → s.dev.ply.receives = true → s.dev.tk.seqRun = true →
      s.dev.ply.judged = false → exec (.imageDeadline) s = .next (withDev s s.dev.imageDeadline)) ∧
  (∀ (s : State) (pc : Word), Live s → exec (.lockstepMismatch pc) s =
      .next (withDev s ((s.dev.modPly (fun p => { p with lockstepOk := false })).event 0x072 pc))) ∧
  (∀ (s : State) (r : Req) (d : Dev), Served 0x0401 false r s → s.dev.isMember = true → s.dev.ply.pstate = .init →
      d = s.dev.modPly (fun p => { p with pstate := .candidate }) → exec (.plyStart r) s =
      .next (taken 0x0401 false r (.ok [d.nowTick]) d s)) ∧
  (∀ (s : State) (r : Req), Served 0x0402 false r s → s.dev.ply.role = .single → s.dev.ply.held = none →
      s.dev.ply.claimStart = false → exec (.claimStart r) s = .next (taken 0x0402 false r (.ok [s.dev.landTick]) 
      (s.dev.modPly (fun p => { p with claimStart := true })) s))

/-- The referee: its commands and what it sees of each member (R228, R229, R231, R232, R233, R426). -/
def Obligations.RefereeSteps : Prop :=
  (∀ (s : State) (r : Req) (d : Dev), Served 0x0403 false r s → s.dev.ply.role = .referee → s.dev.ref.run = false →
      781 ≤ (arg r 2).toNat → (arg r 2).toNat ≤ 6249 →
      d = s.dev.modRef (fun x => { x with tickSteps := (arg r 2).toNat }) → exec (.refereeTick r) s =
      .next (taken 0x0403 false r (.ok [d.nowTick]) d s)) ∧
  (∀ (s : State) (r : Req) (d : Dev), Served 0x0404 false r s → s.dev.ply.role = .referee →
      d = s.dev.modRef (fun x => { x with run := true }) → exec (.refereeStart r) s =
      .next (taken 0x0404 false r (.ok [d.nowTick]) d s)) ∧
  (∀ (s : State) (mem : Member), Live s → exec (.aliveEdge mem) s =
      .next (withDev s (s.dev.refereeActs (fun x => x.modView mem (fun v => { v with aliveOk := true }))))) ∧
  (∀ (s : State) (mem : Member), Live s → exec (.aliveOkLost mem) s =
      .next (withDev s (s.dev.refereeActs (fun x => x.modView mem (fun v => { v with aliveOk := false }))))) ∧
  (∀ (s : State) (mem : Member), Live s → exec (.reportOkLost mem) s = .next (withDev s (s.dev.refereeActs (fun x =>
      x.modView mem (fun v => { v with reportOk := false, candidateRun := 0 }))))) ∧
  (∀ (s : State) (mem : Member) (w0 w1 w2 w3 : Word), Live s → bits w3 31 16 = healthCrc w0 w1 w2 w3 →
      exec (.healthReportReceived mem w0 w1 w2 w3) s =
      .next (withDev s (s.dev.refereeActs (fun x => x.modView mem (fun v => { v with
      reportOk := true, report := some [w0, w1, w2, w3]
      candidateRun := if bits w2 29 27 = 1 then v.candidateRun + 1 else 0 }))))) ∧
  (∀ (s : State) (mem : Member) (w0 w1 w2 w3 : Word), Live s → bits w3 31 16 ≠ healthCrc w0 w1 w2 w3 →
      exec (.healthReportReceived mem w0 w1 w2 w3) s = .next (withDev s s.dev)) ∧
  (∀ (s : State), Live s → exec (.grantHoldoffExpiry) s =
      .next (withDev s (s.dev.modRef (fun x => { x with holdoff := false }))))

/-- TEST_MODE, LOOPBACK, INJECT, CAPTURE and TELEMETRY, and the checkers of a lane under test (R367, R411, R429, R454, R455,
R457, R458, R460, R461, R462, R463). The model's choices: a lost checker lock adds 64 to ERR_CNT (log entry 99), and what of
the telemetry block and its frame the spec does not lay out is free (log entry 27). -/
def Obligations.TestCommandsServed : Prop :=
  (∀ (s : State) (r : Req), Served 0x0801 false r s → (bit (arg r 2) 0 = true → s.dev.outputsOn = false) →
      exec (.testMode r) s = .next (taken 0x0801 false r (.ok [s.dev.landTickOf (.testMode (bit (arg r 2) 0))]) 
      (s.dev.landFor r (.testMode (bit (arg r 2) 0))) s)) ∧
  (∀ (s : State) (r : Req) (w : Word) (k : Nat) (d : Dev), Served 0x0802 false r s → w = arg r 2 → bits w 31 19 = 0 →
      bits w 7 2 = 0 → bits w 15 8 < s.dev.laneCount (bits w 1 0) → (bits w 1 0 = 3 →
      bits w 17 16 ≠ 1 ∧ bits w 17 16 ≠ 2) → s.dev.test.commissioning = true → s.dev.outputsOn = false →
      bit w 18 = true → k = laneKey (bits w 1 0) (bits w 15 8) → d = s.dev.countErrors k → exec (.loopback r) s =
      .next (taken 0x0802 false r 
      (.ok (w :: d.laneWords k)) (d.modLane k (fun x => { x with lockLost := false })) s)) ∧
  (∀ (s : State) (r : Req) (w : Word), Served 0x0802 false r s → w = arg r 2 → bits w 31 19 = 0 → bits w 7 2 = 0 →
      bits w 15 8 < s.dev.laneCount (bits w 1 0) → (bits w 1 0 = 3 → bits w 17 16 ≠ 1 ∧ bits w 17 16 ≠ 2) →
      s.dev.test.commissioning = true → s.dev.outputsOn = false → bit w 18 = false →
      s.dev.loopbackReason r.chan.val (bits w 1 0) (bits w 15 8) = none → (bits w 17 16 ≠ 0 → bits w 1 0 ≠ 3 →
      s.dev.injected (bits w 1 0) (bits w 15 8) = false) → exec (.loopback r) s = .next (taken 0x0802 false r 
      (.ok [s.dev.landTickOf (.loopback (laneKey (bits w 1 0) (bits w 15 8)) (bits w 17 16))]) (s.dev.landFor r (.loopback (laneKey (bits w 1 0) (bits w 15 8)) (bits w 17 16))) s)) ∧
  (∀ (s : State) (cls : LaneClass) (lane : Fin 256) (k : Nat), Live s → k = classKey cls lane.val →
      ((s.dev.laneTest k).mode = 1 ∨ (s.dev.laneTest k).mode = 3) → (s.dev.laneTest k).prbsLock = false →
      exec (.prbsCheckerLock cls lane) s = .next (withDev s 
      (s.dev.modLane k (fun x => { x with prbsLock := true, since := s.dev.now })))) ∧
  (∀ (s : State) (cls : LaneClass) (lane : Fin 256) (k : Nat) (d : Dev), Live s → k = classKey cls lane.val →
      (s.dev.laneTest k).prbsLock = true → d = s.dev.countErrors k → exec (.prbsCheckerLockLost cls lane) s =
      .next (withDev s 
      (d.modLane k (fun x => { x with
        prbsLock := false, lockLost := true, errCnt := satAdd 32 x.errCnt 64, lockedFor := x.lockedFor + (d.now - x.since) })))) ∧
  (∀ (s : State) (r : Req) (cls lane dir act n : Nat), Served 0x0803 false r s → cls = bits (arg r 2) 1 0 →
      lane = bits (arg r 2) 15 8 → dir = bits (arg r 2) 16 16 → act = bits (arg r 3) 2 0 → n = bits (arg r 3) 15 8 →
      s.dev.injectBad cls lane dir act n (arg r 4).toNat = none → act ≠ 0 → s.dev.test.commissioning = true →
      s.dev.outputsOn = false → s.dev.injectReady cls lane = true → exec (.inject r) s = .next (taken 0x0803 false r 
      (.ok [s.dev.landTickOf (.inject (injKey cls lane dir) act n (arg r 4).toNat)]) (s.dev.landFor r (.inject (injKey cls lane dir) act n (arg r 4).toNat)) s)) ∧
  (∀ (s : State) (r : Req) (cls lane dir key : Nat) (t : Word) (e : Dev), Served 0x0803 false r s →
      cls = bits (arg r 2) 1 0 → lane = bits (arg r 2) 15 8 → dir = bits (arg r 2) 16 16 → bits (arg r 3) 2 0 = 0 →
      s.dev.injectBad cls lane dir 0 (bits (arg r 3) 15 8) (arg r 4).toNat = none → key = injKey cls lane dir →
      t = s.dev.landTickOf (.inject key 0 0 0) →
      e = ({ s.dev with test := { s.dev.test with stops := s.dev.test.stops ++ [{ req := r, key := key, tick := t }] } } : Dev) →
      exec (.inject r) s =
      .next (withDev s ((e.landFor r (.inject key 0 0 0)).logWrite 0x0803 false r (.ok [t])))) ∧
  (∀ (d : Dev) (key : Nat) (x : StopWait) (e : Dev), d.test.stops.find? (fun y => y.key == key) = some x →
      e = ({ d with test := { d.test with injections := tblSet {} d.test.injections key {}, stops := d.test.stops.erase x } } : Dev) →
      landInject key 0 0 0 d = e.answer 0x0803 x.req (.ok [x.tick, word (d.injectCount key)])) ∧
  (∀ (s : State) (r : Req), Served 0x0804 false r s → exec (.capture r) s =
      .next (taken 0x0804 false r (.ok [s.dev.landTickOf (.capture (arg r 2).toNat (bits (arg r 3) 15 0))]) 
      (s.dev.landFor r (.capture (arg r 2).toNat (bits (arg r 3) 15 0))) s)) ∧
  (∀ (s : State) (r : Req), Served 0x0805 false r s → 1 ≤ (arg r 3).toNat → (arg r 3).toNat ≤ 3600 →
      exec (.telemetry r) s = .next (taken 0x0805 false r (.ok [s.dev.landTickOf (.telemetry (arg r 2) (arg r 3).toNat)]) 
      (s.dev.landFor r (.telemetry (arg r 2) (arg r 3).toNat)) s)) ∧
  (∀ (s : State) (d : Dev), Live s → s.dev.eth.telePeriod ≠ 0 → s.dev.eth.teleMask ≠ 0 → s.dev.eth.teleDue ≤ s.dev.now →
      d = { s.dev with eth := { s.dev.eth with teleDue := s.dev.eth.teleDue + 1250000000 * s.dev.eth.telePeriod } } →
      exec (.telemetrySend) s = .next (withDev s 
      (({ d with fresh := d.fresh + 32 }).sendCoord 0x84
      (s.dev.eth.teleMask :: (maskBits 32 s.dev.eth.teleMask.toNat).map (fun k => Config.freeWord (s.dev.fresh + k)))
      s.dev.eth.lastSrc (s.dev.eth.lastMac.getD (BitVec.allOnes 48)) s.dev.eth.lastPort)))

/-- PORT, the links of the ports and low-power idle (R348, R350, R361, R411, R412, R459). -/
def Obligations.PortRecordAndLinks : Prop :=
  (∀ (s : State) (r : Req) (f : RecForm), Served 0x0030 true r s → r.write = false →
      recForm r s.dev.portCount 6 = some f → exec (.port r) s =
      .next (taken 0x0030 true r (f.readReply r (s.dev.portWords f.index)) s.dev s)) ∧
  (∀ (s : State) (r : Req) (f : RecForm), Served 0x0030 false r s → r.write = true →
      recForm r s.dev.portCount 6 = some f → (∀ w, f.wordFor 0 = some w → s.dev.portWord0Bad w = false) →
      exec (.port r) s = .next (taken 0x0030 false r (.ok [s.dev.landTickOf (.port f.index f.first (f.data.take f.count))]) 
      (s.dev.landFor r (.port f.index f.first (f.data.take f.count))) s)) ∧
  (∀ (s : State) (p : Fin 2), Live s → p.val < s.dev.portCount → (s.dev.portOf p.val).mode ≠ 0 →
      s.dev.underTest 2 p.val = false → exec (.ethLinkUp p) s = .next (withDev s 
      ((s.dev.modPort p.val (fun e =>
        { e with linkUp := true, idleAt := s.dev.now, anDone := decide (e.mode = 3) || (decide (e.mode = 2) && e.anEn) })).settlePort p.val))) ∧
  (∀ (s : State) (p : Fin 2), Live s →
      (s.dev.portCount ≤ p.val ∨ (s.dev.portOf p.val).mode = 0 ∨ s.dev.underTest 2 p.val = true) →
      exec (.ethLinkUp p) s = .next (withDev s s.dev)) ∧
  (∀ (s : State) (p : Fin 2), Live s → exec (.ethLinkDown p) s = .next (withDev s (s.dev.ethDown p.val))) ∧
  (∀ (s : State) (p : Fin 2) (e : Dev), Live s →
      s.dev.timeUp ((s.dev.portOf p.val).idleAt + 1250 * (s.dev.portOf p.val).lpiIdle) = some e →
      (e.portOf p.val).eeeEn = true → (e.portOf p.val).linkUp = true → (e.portOf p.val).second = [] →
      (∀ f ∈ (e.portOf p.val).queue, f.base ≠ 0) → e.launchSoon p.val = false → exec (.lpiEntry p) s =
      .next (withDev s (e.modPort p.val (fun x => { x with lpiTx := true })))) ∧
  (∀ (s : State) (p : Fin 2), Live s →
      s.dev.timeUp ((s.dev.portOf p.val).idleAt + 1250 * (s.dev.portOf p.val).lpiIdle) = none →
      exec (.lpiEntry p) s = .next (withDev s s.dev)) ∧
  (∀ (s : State) (p : Fin 2) (e : Dev), Live s →
      s.dev.timeUp ((s.dev.portOf p.val).idleAt + 1250 * (s.dev.portOf p.val).lpiIdle) = some e →
      ((e.portOf p.val).eeeEn = false ∨ (e.portOf p.val).linkUp = false ∨ (e.portOf p.val).second ≠ [] ∨ e.launchSoon p.val = true) →
      exec (.lpiEntry p) s = .next (withDev s s.dev))

/-- LAUNCH: the head of a launch queue at its launch time (R352, R357, R358). -/
def Obligations.LaunchSendsOrMisses : Prop :=
  (∀ (s : State) (p : Fin 2) (d e : Dev) (f : LaunchFrame) (rest : List LaunchFrame), Live s → d = s.dev.atWake p.val →
      (d.portOf p.val).queue = f :: rest → f.base ≠ 0 → d.launchLost f = false → d.atLaunch f = some e →
      (e.portOf p.val).linkUp = true → exec (.launch p) s = .next (withDev s
      (((e.modPort p.val (fun x => { x with queue := x.queue.drop 1 })).sendOwn p.val f).settlePort p.val))) ∧
  (∀ (s : State) (p : Fin 2) (d : Dev) (f : LaunchFrame) (rest : List LaunchFrame), Live s → d = s.dev.atWake p.val →
      (d.portOf p.val).queue = f :: rest → f.base ≠ 0 → d.launchLost f = true → exec (.launch p) s = .next (withDev s
      (((d.modPort p.val (fun e => { e with queue := e.queue.drop 1, launchMiss := satInc 16 e.launchMiss })).event 0x0AA (word p.val)).settlePort p.val))) ∧
  (∀ (s : State) (p : Fin 2) (d e : Dev) (f : LaunchFrame) (rest : List LaunchFrame), Live s → d = s.dev.atWake p.val →
      (d.portOf p.val).queue = f :: rest → f.base ≠ 0 → d.launchLost f = false → d.atLaunch f = some e →
      (e.portOf p.val).linkUp = false → exec (.launch p) s = .next (withDev s ((e.missHead p.val).settlePort p.val))) ∧
  (∀ (s : State) (p : Fin 2) (d : Dev) (f : LaunchFrame) (rest : List LaunchFrame), Live s → d = s.dev.atWake p.val →
      (d.portOf p.val).queue = f :: rest → f.base ≠ 0 → d.launchLost f = false → d.atLaunch f = none → exec (.launch p) s =
      .next (withDev s (d.settlePort p.val))) ∧
  (∀ (s : State) (p : Fin 2) (d : Dev), Live s → d = s.dev.atWake p.val → (d.portOf p.val).queue = [] → exec (.launch p) s =
      .next (withDev s (d.settlePort p.val)))

/-- FRAME_SEND, received and coordination frames, reports, PTP and the timestamp entries (R349, R354, R355, R356, R357,
R358, R362, R363, R364, R366, R429, R463). -/
def Obligations.FramesAndPtp : Prop :=
  (∀ (s : State) (r : Req) (p b sec : Nat) (raw sent : List Byte) (d : Dev), Served 0x0713 false r s →
      p = bits (arg r 2) 0 0 → b = bits (arg r 2) 2 1 → p < s.dev.portCount → b ≠ 3 → (b ≠ 0 →
      (arg r 5).toNat < 1000000000 ∧ (s.dev.baseOf (b - 1)).valid = true) → areaLo ≤ (arg r 6).toNat →
      (arg r 6).toNat + (arg r 7).toNat ≤ areaEnd → 1 ≤ (arg r 7).toNat → (arg r 7).toNat ≤ 1518 →
      (s.dev.portOf p).queue.length < 32 → sec = join48 (arg r 3) (arg r 4) →
      raw = memBytes s.dev.bar2 (arg r 6).toNat (arg r 7).toNat → (sent = match ptpOf raw with
        | some m => if s.dev.chained && (m.typ == 1 || m.typ == 2) && decide (b ≠ 0) then setOrigin raw m sec (arg r 5).toNat else raw
        | none => raw) →
      d = s.dev.enqueue p { base := b, time := (sec * 1000000000 + (arg r 5).toNat) * 2 ^ 16, bytes := sent } →
      exec (.frameSend r) s = .next (taken 0x0713 false r (.ok [d.nowTick]) d s)) ∧
  (∀ (s : State) (p : Fin 2) (f : EthFrame) (e : Dev) (i : Injection), Live s → p.val < s.dev.portCount →
      (s.dev.portOf p.val).linkUp = true → s.dev.injectUnit (injKey 2 p.val 1) = (some i, e) →
      exec (.frameReceive p f) s = .next (withDev s 
      (if i.action = 4 then e.modPort p.val (fun x => { x with heldRx := some (.inl f) })
      else if i.action = 2 then e.badBlocks p.val (min i.n ((f.body.length + 19) / 8)) else e))) ∧
  (∀ (s : State) (p : Fin 2) (f : EthFrame) (e : Dev), Live s → p.val < s.dev.portCount →
      (s.dev.portOf p.val).linkUp = true → s.dev.injectUnit (injKey 2 p.val 1) = (none, e) →
      (e.portOf p.val).heldRx = none → exec (.frameReceive p f) s = .next (withDev s 
      ((e.modPort p.val (fun x => { x with heldRx := none })).rxFrame p.val f))) ∧
  (∀ (s : State) (p : Fin 2) (f : EthFrame) (g : EthFrame ⊕ CoordFrame) (e : Dev), Live s → p.val < s.dev.portCount →
      (s.dev.portOf p.val).linkUp = true → s.dev.injectUnit (injKey 2 p.val 1) = (none, e) →
      (e.portOf p.val).heldRx = some g → exec (.frameReceive p f) s = .next (withDev s 
      (((e.modPort p.val (fun x => { x with heldRx := none })).rxFrame p.val f).rxAny p.val g))) ∧
  (∀ (s : State) (p : Fin 2) (f : CoordFrame) (e : Dev), Live s → p.val < s.dev.portCount →
      (s.dev.portOf p.val).linkUp = true → s.dev.injectUnit (injKey 2 p.val 1) = (none, e) →
      (e.portOf p.val).heldRx = none → exec (.coordinationFrame p f) s = .next (withDev s 
      ((e.modPort p.val (fun x => { x with heldRx := none })).rxCoord p.val f))) ∧
  (∀ (d : Dev) (p : Nat) (f : CoordFrame), d.coordBad f.words = true →
      d.takeCoord p f = { d with eth := { d.eth with coordDrop := d.eth.coordDrop + 1 } }) ∧
  (∀ (d : Dev) (p src : Nat) (f : CoordFrame), d.coordBad f.words = false → src = bits (wat f.words 2) 31 16 →
      (d.ply.role = .single ∨ d.isMember = true ∧ d.ply.pstate = .active) →
      d.takeCoord p f = ({ d with eth := { d.eth with
        lastSeqOf := tblSet none d.eth.lastSeqOf src (some (wat f.words 3).toNat), lastMac := some f.srcMac, lastPort := p, lastSrc := src } }).coordAct p f.words f.srcMac) ∧
  (∀ (s : State) (cause : ReportCause) (p : ReportCause × Option Nat) (d : Dev), Live s →
      (cause = .apply ∨ cause = .discard) → s.dev.owedNow cause = some p →
      d = { s.dev with eth := { s.dev.eth with owed := s.dev.eth.owed.erase p } } →
      exec (.epochReport cause) s = .next (withDev s 
      (d.sendReport (reportCode cause)))) ∧
  (∀ (s : State) (d : Dev), Live s → s.dev.periodicDue = true →
      d = { s.dev with eth := { s.dev.eth with periodic := some s.dev.tk.tick } } → exec (.epochReport .periodic) s =
      .next (withDev s 
      (d.sendReport 3))) ∧
  (∀ (s : State), Live s → exec (.epochReport .query) s = .next (withDev s s.dev.flushReplies)) ∧
  (∀ (s : State) (cause : ReportCause), Live s → (cause = .apply ∨ cause = .discard) → s.dev.owedNow cause = none →
      exec (.epochReport cause) s = .next (withDev s s.dev)) ∧
  (∀ (s : State) (r : Req), Served 0x0712 false r s → bits (arg r 2) 7 0 ≠ bits (arg r 2) 15 8 → exec (.ptp r) s =
      .next (taken 0x0712 false r (.ok [s.dev.landTickOf (.ptp (arg r 2))]) (s.dev.landFor r (.ptp (arg r 2))) s)) ∧
  (∀ (s : State) (n : Fin 2), Live s → s.dev.hostServo n.val = false → (s.dev.baseOf n.val).state = .locked →
      exec (.ptpServoHoldover n) s = .next (withDev s 
      (({ s.dev with eth := { s.dev.eth with goodSyncs := tblSet 0 s.dev.eth.goodSyncs n.val 0 } }).land (.tbState n.val 2)))) ∧
  (∀ (s : State) (m : Master) (p : Fin 2) (b : ReadBytes) (x : TsEntry) (rest : List TsEntry), MayRead m s →
      s.dev.tsHidden m = false → (s.dev.portOf p.val).ts = x :: rest → exec (.entry0Read ⟨m, b⟩ p) s = .next (withDev s 
      ((s.dev.modPort p.val (fun e => { e with tsLock := true })).giveBytes b (s.dev.tsWord m p.val 0)))) ∧
  (∀ (s : State) (m : Master) (p : Fin 2) (b : ReadBytes), MayRead m s → s.dev.tsHidden m = false →
      (s.dev.portOf p.val).tsLock = true → exec (.entry3Read ⟨m, b⟩ p) s = .next (withDev s 
      ((s.dev.modPort p.val (fun e => { e with ts := e.ts.drop 1, tsLock := false })).giveBytes b (s.dev.tsWord m p.val 3))))

/-- The hosts' accesses of a CAN controller (R9, R372, R377, R379, R380, R382, R387, R388). -/
def Obligations.CanHostAccesses : Prop :=
  (∀ (s : State) (m : Master) (c : Fin 4) (b : Fin 64) (y : ReadBytes), MayRead m s →
      ((s.dev.canOf c.val).buf b.val).holder = none → exec (.bufferLockRead ⟨m, y⟩ c b) s =
      .next (withDev s ((s.dev.modCan c.val (fun k => k.modBuf b.val (fun x =>
      if x.holder.isNone then { x with holder := some (masterId m) } else x))).giveBytes y ((s.dev.canOf c.val).buf b.val).elem.id))) ∧
  (∀ (s : State) (m : Master) (c : Fin 4) (b : Fin 64) (i : Fin 19) (y : ReadBytes) (x : CanBuf), MayRead m s →
      x = (s.dev.canOf c.val).buf b.val → x.holder = some (masterId m) → i.val = x.elem.lastWord →
      exec (.bufferReleaseRead ⟨m, y⟩ c b i) s = .next (withDev s 
      ((s.dev.modCan c.val (fun k => k.modBuf b.val (fun k => k.unlock true))).giveBytes y (wat x.elem.words i.val)))) ∧
  (∀ (s : State) (m : Master) (c : Fin 4) (b : Fin 64) (i : Fin 19) (y : ReadBytes) (x : CanBuf), MayRead m s →
      x = (s.dev.canOf c.val).buf b.val → (x.holder ≠ some (masterId m) ∨ i.val ≠ x.elem.lastWord) →
      exec (.bufferReleaseRead ⟨m, y⟩ c b i) s = .next (withDev s 
      (s.dev.giveBytes y (wat x.elem.words i.val)))) ∧
  (∀ (s : State) (m : Master) (c : Fin 4) (half : Fin 2) (v : Word), MayWrite m canBlock s →
      exec (.lockedForceRelease m c half v) s = .next (withDev s (forEach (maskBits 32 v.toNat) (fun i d =>
      d.modCan c.val (fun k => k.modBuf (32 * half.val + i) (fun x => if x.holder.isSome then x.unlock false else x))) s.dev))) ∧
  (∀ (s : State) (m : Master) (c : Fin 4) (f : Fin 2) (v : Word), MayWrite m canBlock s → exec (.rxqRelease m c f v) s =
      .next (withDev s 
      (s.dev.modCan c.val (fun k => k.setFifo f.val ((k.fifo f.val).release (bits v 6 0)))))) ∧
  (∀ (s : State) (m : Master) (c : Fin 4) (v : Word) (p d : Dev), MayWrite m canBlock s →
      p = s.dev.modCan c.val Can.push → d = p.modCan c.val Can.dropTx → exec (.txPush m c v) s = .next (withDev s
      (if bit v 0 = false then s.dev
       else if s.dev.discardOpen then (if (p.canOf c.val).txFill ≠ 0 ∧ (d.canOf c.val).txFill = 0 then d.canEvent c.val 0x200 else d)
       else p.kickCan c.val))) ∧
  (∀ (s : State) (m : Master) (c : Fin 4) (v : Word) (d : Dev), MayWrite m canBlock s →
      d = s.dev.modCan c.val Can.dropTx → exec (.txFlush m c v) s = .next (withDev s 
      (if bit v 0 = false then s.dev
       else if (s.dev.canOf c.val).txFill ≠ 0 ∧ (d.canOf c.val).txFill = 0 then d.canEvent c.val 0x200 else d))) ∧
  (∀ (s : State) (m : Master) (c : Fin 4) (v : Word), MayWrite m canBlock s → exec (.configSet m c v) s =
      .next (withDev s (s.dev.modCan c.val (fun x => x.writeModeCtrl s.dev.now (v ||| 0x80000000))))) ∧
  (∀ (s : State) (m : Master) (c : Fin 4) (v : Word), MayWrite m canBlock s → exec (.configClear m c v) s =
      .next (withDev s (s.dev.modCan c.val (fun x => x.writeModeCtrl s.dev.now (v &&& 0x7FFFFFFF)))))

/-- What the bus does to a CAN controller (R369, R370, R376, R378, R380, R383, R384, R386, R387, R463). The model's choices:
the counts of TEC and REC are those of ISO 11898-1, which R384 names and the spec does not give (log entry 182), and a
corrupted frame ends as a bit error 4 or 5 (log entry 107). -/
def Obligations.CanBusEvents : Prop :=
  (∀ (s : State) (c : Fin 4) (age : Nat), Live s → (s.dev.canOf c.val).onBus = true → (s.dev.canOf c.val).corrupt = false →
      exec (.attemptEnd c (.success age)) s = .next (withDev s (s.dev.sentHead c.val age))) ∧
  (∀ (s : State) (c : Fin 4) (age : Nat), Live s → (s.dev.canOf c.val).onBus = true → (s.dev.canOf c.val).corrupt = true →
      exec (.attemptEnd c (.success age)) s = .next (withDev s
      (s.dev.useFresh.failedHead c.val (4 + Config.freeNat s.dev.fresh % 2) false (.flagged 0)))) ∧
  (∀ (s : State) (c : Fin 4), Live s → (s.dev.canOf c.val).onBus = true → exec (.attemptEnd c .lostArb) s =
      .next (withDev s ((s.dev.attemptFailed c.val).modCan c.val (fun x => { x with act := 2 })))) ∧
  (∀ (s : State) (c : Fin 4) (e : CanErr) (dataPhase : Bool) (w : TecCase), Live s → (s.dev.canOf c.val).onBus = true →
      exec (.attemptEnd c (.error e dataPhase w)) s = .next (withDev s 
      (s.dev.failedHead c.val (canErrCode e) dataPhase w))) ∧
  (∀ (s : State) (c : Fin 4), Live s → (s.dev.canOf c.val).boff = true →
      128 ≤ (s.dev.canOf c.val).recov → exec (.busOffRecovery c) s =
      .next (withDev s (((s.dev.modCan c.val (fun x => { x with
      boff := false, tec := 0, rec_ := 0, recov := 0 })).errorLevels c.val).busIdle c.val))) ∧
  (∀ (s : State) (c : Fin 4) (f : CanFrame) (e : Dev), Live s → (s.dev.canOf c.val).joined s.dev.now f.age = true →
      (s.dev.canOf c.val).exception f = false → s.dev.injectUnit (injKey 3 c.val 1) = (none, e) →
      exec (.canFrameReceived c f) s = .next (withDev s (e.takeFrame c.val f))) ∧
  (∀ (s : State) (c : Fin 4) (f : CanFrame), Live s → (s.dev.canOf c.val).joined s.dev.now f.age = true →
      f.fd = true → (f.res = true ∨ (s.dev.canOf c.val).fdEn = false) → exec (.canFrameReceived c f) s =
      .next (withDev s (s.dev.modCan c.val (fun x =>
      { x with act := if (s.dev.canOf c.val).onBus then x.act else 0, stopAt := none })))) ∧
  (∀ (s : State) (c : Fin 4) (f : CanFrame) (e : Dev) (i : Injection), Live s →
      (s.dev.canOf c.val).joined s.dev.now f.age = true → (s.dev.canOf c.val).exception f = false → s.dev.injectUnit (injKey 3 c.val 1) = (some i, e) →
      exec (.canFrameReceived c f) s = .next (withDev s 
      (e.receiveError c.val 6 f.fast 1))) ∧
  (∀ (s : State) (c : Fin 4) (e : CanRxErr) (dataPhase : Bool), Live s → (s.dev.canOf c.val).joined s.dev.now e.age = true →
      exec (.canReceiveError c e dataPhase) s =
      .next (withDev s (s.dev.receiveError c.val (canErrCode e.kind) dataPhase (recUp e)))) ∧
  (∀ (s : State) (c : Fin 4), Live s → (s.dev.canOf c.val).config = false → (s.dev.canOf c.val).boff = false →
      (s.dev.canOf c.val).act = 0 → exec (.busIntegration c) s = .next (withDev s (s.dev.busIdle c.val))) ∧
  (∀ (s : State) (c : Fin 4), Live s → (s.dev.canOf c.val).boff = false → (s.dev.canOf c.val).config = true →
      exec (.busIntegration c) s = .next (withDev s (s.dev.modCan c.val (fun x => { x with stopAt := none })))) ∧
  (∀ (s : State) (c : Fin 4), Live s → (s.dev.canOf c.val).boff = true → exec (.busIntegration c) s =
      .next (withDev s (s.dev.modCan c.val (fun x => { x with recov := min 128 (x.recov + 1) }))))

/-- The resets, the collapse, the close record and the release (R289, R308, R422, R435, R436, R437, R439, R440, R442, R450,
R453). The model's choices: the CAUSE byte of a required domain other than VCORE is free (log entry 110), VHOST, VNET and VDRV
take with them what log entry 111 says, RESET_RELEASE carries what the board has shown (log entry 186), and DEVICE_RESET
answers and resets in one step (log entry 66). -/
def Obligations.ResetsAndReleases : Prop :=
  (∀ s : State, exec .vaonPowerOn s = .next (withDev s s.dev.vaonReset)) ∧
  (∀ s : State, exec .resetN s = .next (withDev s (s.dev.mainReset .resetPin))) ∧
  (∀ s : State, exec (.supplyOutOfRange .vaon) s = .next (withDev s (s.dev.vaonReset.outOfRange .vaon)) ∧
      exec (.supplyOutOfRange .vsafe) s = .next (withDev s s.dev.vsafeLost) ∧
      exec (.supplyOutOfRange .vcore) s = .next (withDev s (s.dev.supplyLost .vcore 2))) ∧
  (∀ (s : State) (dom : Domain), dom = .vspin ∨ dom = .vmem ∨ dom = .vpll ∨ dom = .vana ∨ dom = .vio18 ∨ dom = .vio33 →
      exec (.supplyOutOfRange dom) s =
        .next (withDev s (s.dev.supplyLost dom (Config.freeNat s.dev.fresh % 256)).useFresh)) ∧
  (∀ (s : State), Live s → exec (.supplyOutOfRange .vsda) s = .next (withDev s (s.dev.domainOff .vsda))) ∧
  (∀ (s : State), Live s → exec (.supplyOutOfRange .vsdb) s = .next (withDev s (s.dev.domainOff .vsdb))) ∧
  (∀ (s : State), Live s → exec (.supplyOutOfRange .vnet) s =
      .next (withDev s (forEach (List.range s.dev.portCount) (fun p d => d.ethDown p) s.dev.plyLinkDown))) ∧
  (∀ (s : State), Live s → exec (.supplyOutOfRange .vhost) s = .next (withDev s (s.dev.event 0x0A0 0))) ∧
  (∀ (s : State) (n : Nat) (l : List Nat), Live s → (List.range 32).filter (fun n => !(s.dev.trimOf n).bstUv) = n :: l →
      exec (.supplyOutOfRange .vdrv) s = .next (withDev s 
      ((forEach (List.range 32) (fun n d => d.vdrvLow n) s.dev).event 0x04C (word n)))) ∧
  (∀ (s : State), Live s → (List.range 32).filter (fun n => !(s.dev.trimOf n).bstUv) = [] →
      exec (.supplyOutOfRange .vdrv) s = .next (withDev s (forEach (List.range 32) (fun n d => d.vdrvLow n) s.dev))) ∧
  (∀ s : State, s.dev.pwr.held = true → exec (.supplyOutOfRange .vsda) s =
      .next (withDev s (s.dev.setDomain .vsda false)) ∧
      exec (.supplyOutOfRange .vsdb) s = .next (withDev s (s.dev.setDomain .vsdb false)) ∧
      exec (.supplyOutOfRange .vnet) s = .next s ∧ exec (.supplyOutOfRange .vhost) s = .next s ∧
      exec (.supplyOutOfRange .vdrv) s = .next s) ∧
  (∀ (s : State) (c : CollapseCause), (c = .thermal → s.dev.therm.shutdown = true) →
      exec (.collapse c) s = .next (withDev s (s.dev.collapse c s.dev.therm.hotSensor))) ∧
  (∀ (s : State), s.dev.therm.shutdown = false → exec (.collapse .thermal) s = .next (withDev s s.dev)) ∧
  (∀ (s : State) (c : CloseRec) (d : Dev), s.dev.pwr.closeWriting = some c →
      d = s.dev.mainReset .collapse →
      exec (.closeRecordWritten) s = .next (withDev s { d with
        fram := d.fram.putClose (d.closeWritten c d.closeFails) (min 3 (d.closeFails + 1)), fresh := d.fresh + 1
        pwr := { d.pwr with closeWriting := none, collapseHold := true } })) ∧
  (∀ (s : State) (t : Nat) (d : Dev), Live s → s.dev.cfg.wdogReset = true → s.dev.pwr.wdogAt = some t →
      s.dev.timeUp (1250000000 + t) = some d → exec (.firmwareWatchdogReset) s =
      .next (withDev s (d.mainReset .wdog))) ∧
  (∀ (s : State), Live s → (s.dev.cfg.wdogReset = false ∨ s.dev.pwr.wdogAt = none) → exec (.firmwareWatchdogReset) s =
      .next (withDev s s.dev)) ∧
  (∀ (s : State) (x : ReleaseIn) (low held : Bool), s.dev.pwr.held = true →
      (∀ dom ∈ s.dev.pwr.out, dom ∈ x.back) → x.resetHigh = true → x.pfailHigh = true → s.dev.therm.shutdown = false →
      s.dev.pwr.closeWriting = none →
      exec (.resetRelease x low held) s = .next (withDev s (s.dev.release x.role low held))) ∧
  (∀ (s : State) (x : ReleaseIn) (low held : Bool) (dom : Domain), dom ∈ s.dev.pwr.out → dom ∉ x.back →
      exec (.resetRelease x low held) s = .next (withDev s s.dev)) ∧
  (∀ (s : State) (x : ReleaseIn) (low held : Bool), (s.dev.pwr.held = false ∨ x.resetHigh = false ∨ x.pfailHigh = false ∨
      s.dev.therm.shutdown = true ∨ s.dev.pwr.closeWriting ≠ none) →
      exec (.resetRelease x low held) s = .next (withDev s s.dev)) ∧
  (∀ (s : State) (r : Req), Served 0x00FE false r s → arg r 2 = 0x00009256 →
      exec (.deviceReset r) s =
        .next (withDev s ((taken 0x00FE false r (.ok [s.dev.nowTick]) s.dev s).dev.mainReset .swReset)))

/-- FW_STAGE, FW_ACTIVATE, the firmware's start and the writes of the register spaces (R391, R392, R393, R395, R397, R411,
R416, R418, R429, R441, R442). The model's choices: FW_STAGE and FW_ACTIVATE answer the present tick as LAND_TICK (log entry
113), Unsupported Requests are counted in an image of the model's own (log entry 160), and what the header of a firmware image
states is free (log entry 26). -/
def Obligations.FirmwareImagesAndStart : Prop :=
  (∀ (s : State) (r : Req), Served 0x0F01 false r s → arg r 2 = 0 → imgArgs r none = none → LongFree 0x0F01 r s.dev →
      exec (.fwStage r) s = .next (taken 0x0F01 false r (.accepted r) (begun 0x0F01 r s.dev) s)) ∧
  (∀ (d : Dev) (r : Req) (img : List Byte), img = wordsBytes (d.image r) → crc32 img = arg r 5 →
      finishFwStage r d =
        if Config.firmwareLength img ≠ (arg r 4).toNat then (.badArg 4, d)
        else if Config.signatureOk img = false then (.badImage (Config.firmwareBadField img), d)
        else (.ok [d.nowTick], if checkOnly r then d else { d with flash := d.flash.stage (Config.firmwareVersion img) })) ∧
  (∀ (s : State) (r : Req), Served 0x0F02 false r s → s.dev.flash.staged = true → exec (.fwActivate r) s =
      .next (taken 0x0F02 false r (.ok [s.dev.nowTick]) 
      { s.dev with flash := { s.dev.flash with activeSlot := 1 - s.dev.flash.activeSlot, staged := false } } s)) ∧
  (∀ (s : State), Live s → s.dev.host.bootStage = 1 → s.dev.flash.bootSlot = none → exec (.firmwareStart) s =
      .next (withDev s (s.dev.setStage 0xF))) ∧
  (∀ (s : State) (n : Nat) (h : HostIf) (p : Power), Live s → s.dev.host.bootStage = 1 → s.dev.flash.bootSlot = some n →
      h = ({ s.dev.host with authOk := true, fwVersion := (s.dev.flash.slot n).version } : HostIf) →
      p = ({ s.dev.pwr with fwSlot := n, slotFallback := decide (n ≠ s.dev.flash.activeSlot) } : Power) →
      exec (.firmwareStart) s = .next (withDev s 
      (((({ s.dev with host := h, pwr := p }).setStage 2).writeTables).meterRestore))) ∧
  (∀ (s : State) (m : Master) (space : Space) (off : BitVec 28) (data : List Byte) (b : Byte) (l : List Byte), data = b :: l → Live s → s.dev.asleep m = true →
      exec (.registerWrite m space off b l) s = .next (withDev s (s.dev.unsupported m))) ∧
  (∀ (s : State) (m : Master) (space : Space) (off : BitVec 28) (data : List Byte) (b : Byte) (l : List Byte), data = b :: l → Live s → s.dev.asleep m = false →
      masterId m = 0x10 → exec (.registerWrite m space off b l) s =
      .next (withDev s (s.dev.qspiWrite space off.toNat data))) ∧
  (∀ (s : State) (m : Master) (off : BitVec 28) (data : List Byte) (b : Byte) (l : List Byte), data = b :: l → Live s → s.dev.asleep m = false →
      masterId m ≠ 0x10 → ((fnOfId (masterId m)).isSome = true → bar0Served off.toNat data.length = true) →
      exec (.registerWrite m .bar0 off b l) s = .next (withDev s 
      (s.dev.writeRun m off.toNat data))) ∧
  (∀ (s : State) (m : Master) (off : BitVec 28) (data : List Byte) (b : Byte) (l : List Byte), data = b :: l → Live s → s.dev.asleep m = false →
      masterId m ≠ 0x10 → (fnOfId (masterId m)).isSome = true → bar0Served off.toNat data.length = false → data.length ≤ 256 →
      exec (.registerWrite m .bar0 off b l) s = .next (withDev s 
      (s.dev.unsupported m))) ∧
  (∀ (s : State) (m : Master) (space : Space) (off : BitVec 28) (data : List Byte) (b : Byte) (l : List Byte), data = b :: l → Live s →
      s.dev.asleep m = false → (fnOfId (masterId m)).isSome = true → 256 < data.length →
      exec (.registerWrite m space off b l) s = .next (withDev s (s.dev.malformed m))) ∧
  (∀ (s : State) (m : Master) (off : BitVec 28) (data : List Byte) (b : Byte) (l : List Byte), data = b :: l → Live s → s.dev.asleep m = false →
      masterId m ≠ 0x10 → ((fnOfId (masterId m)).isSome = true → data.length ≤ 256) → exec (.registerWrite m .bar2 off b l) s =
      .next (withDev s (s.dev.writeBar2 m off.toNat data)))

/-- A QUERY reply holds the state of the command that its TAG names (R417). -/
def Obligations.QueryReply : Prop :=
  (∀ (s : State) (r : Req), Served 0x0002 true r s → s.dev.named r = none → exec (.query r) s =
      .next (taken 0x0002 true r (.ok [0]) s.dev s)) ∧
  (∀ (s : State) (r : Req) (x : LongRun), Served 0x0002 true r s → s.dev.named r = some x → x.state = .running →
      exec (.query r) s = .next (taken 0x0002 true r (.ok [1]) s.dev s)) ∧
  (∀ (s : State) (r : Req) (x : LongRun) (st : Nat) (ws : List Word), Served 0x0002 true r s → s.dev.named r = some x →
      x.state = .complete st ws → exec (.query r) s = .next (taken 0x0002 true r 
      (.ok (2 :: pack [(16, st % 65536), (0, x.op)] :: fit 12 0 ws)) 
      { s.dev with host := { s.dev.host with longs := s.dev.host.longs.erase x } } s))

/-- A step runs the command at the front of the queue; that a core cycle passes on an empty one is the model's choice,
log entry 1 (R405, R12). -/
def Obligations.StepRunsFrontCommand : Prop :=
  (∀ (s : State) (c : Instr) (rest : List Instr), s.pending = c :: rest →
      step s = exec c { s with pending := rest }) ∧
  (∀ s : State, s.pending = [] → step s = .next (withDev s s.dev.idleCycle))

/-- The memories are canonical at reset and no command waits (R14, R395). -/
def Obligations.MemoriesCanonicalAtReset : Prop :=
  memOk State.reset = true ∧ State.reset.pending = [] ∧ State.reset.dev.landing = [] ∧ State.reset.dev.tk.seqRun = false

/-- Every step keeps the weft region and the BAR2 window in canonical form (R41, R395). -/
def Obligations.MemoriesStayCanonical : Prop :=
  ∀ s t : State, memOk s = true → step s = .next t → memOk t = true

/-- No command changes the queue of the commands that wait (R405). -/
def Obligations.CommandsLeaveTheQueue : Prop :=
  ∀ (c : Instr) (s t : State), exec c s = .next t → t.pending = s.pending

/-- While the main logic is held in reset, only the supplies, the resets, the reference monitor, the end of an FRAM write
under way, the close record and the island act (R436, R451): Safety.runsHeld lists them. -/
def Obligations.HeldMainLogicIsInert : Prop :=
  ∀ (c : Instr) (s : State), s.dev.pwr.held = true → runsHeld c = false → exec c s = .next s

/-- A repeated request is answered with the stored reply and not executed again (R413). -/
def Obligations.RepeatedRequestIsNotExecutedAgain : Prop :=
  (∀ (d : Dev) (op : Nat) (r : Req) (p : Rep), p.status ≠ 0x0201 → p.status ≠ 0x0001 →
      ((d.answer op r p).boxOf r.chan.val).stored = some (r.w1, p.block op r)) ∧
  (∀ (d : Dev) (op : Nat) (r : Req) (p : Rep) (x : Word × List Word), p.status = 0x0201 ∨ p.status = 0x0001 →
      (d.boxOf r.chan.val).stored = some x → ((d.answer op r p).boxOf r.chan.val).stored = some x) ∧
  (∀ (c : Instr) (s : State) (op : Nat) (read : Bool) (r : Req) (b : List Word), requestOf c = some (op, read, r) →
      Live s →
      s.dev.host.bootStage = 3 → s.dev.carries op r = true → (s.dev.boxOf r.chan.val).stored = some (r.w1, b) →
      exec c s = .next (withDev s (s.dev.repeatReply r b)))

/-- An opcode names one command, and what names none is answered with BAD_OPCODE when the firmware picks it up (R410, R414,
R422 to R429); that the answer comes in the step of PICK, and that a command row carries out only the message that it spells,
are the model's choices (log entries 37 and 207). -/
def Obligations.OpcodeNamesItsCommand : Prop :=
  (∀ (c : Instr) (op : Nat) (read : Bool) (r : Req), requestOf c = some (op, read, r) → op ≠ 0x0710 → commandOf op r = some c) ∧
  (∀ (c : Instr) (op : Nat) (r : Req), commandOf op r = some c → ∃ read, requestOf c = some (op, read, r)) ∧
  (∀ (s : State) (m : Master) (ch : Fin 32) (r : Req) (op : Nat), BoxSide m ch Chan.rspId s → masterId m = 0x20 →
      s.dev.host.bootStage = 3 → (s.dev.boxOf ch.val).go = true → (s.dev.boxOf ch.val).picked = false →
      s.dev.hasTurn ch.val = true → r = Req.ofBlock ch true (s.dev.boxOf ch.val).req → op = opcodeOf (s.dev.boxOf ch.val).req →
      commandOf op r = none → s.dev.storedReply r = none →
      (0x1000 ≤ op ∨ nbit (s.dev.boxOf ch.val).groups (op / 256) = true) →
      exec (.pick m ch) s = .next (withDev s
        ((s.dev.modBox ch.val (fun c => { c with picked := true, again := (c.stored.map (·.1)) == some (wat c.req 1) })).answer op r .badOpcode))) ∧
  (∀ (c : Instr) (s : State) (op : Nat) (read : Bool) (r : Req), requestOf c = some (op, read, r) → Live s →
      (s.dev.boxOf r.chan.val).go = true → (s.dev.boxOf r.chan.val).rspId = 0x20 →
      ((s.dev.boxOf r.chan.val).picked = false ∨ opcodeOf (s.dev.boxOf r.chan.val).req ≠ op ∨
        wat (s.dev.boxOf r.chan.val).req 1 ≠ r.w1) → exec c s = .next s)

/-- A request that its binding, its reserved bits or its role refuses is answered and changes nothing (R398, R410, R430,
R389). -/
def Obligations.RefusedRequestsOnlyAnswer : Prop :=
  (∀ (c : Instr) (s : State) (op : Nat) (read : Bool) (r : Req) (p : Rep), requestOf c = some (op, read, r) → Live s →
      s.dev.host.bootStage = 3 → s.dev.carries op r = true → s.dev.storedReply r = none → s.dev.refusal op read r = some p →
      exec c s = .next (withDev s (s.dev.useFresh.answer op r p))) ∧
  (∀ (c : Instr) (s : State) (op : Nat) (read : Bool) (r : Req), requestOf c = some (op, read, r) → Live s →
      s.dev.host.bootStage ≠ 3 → exec c s = .next s)

/-- A write that the access table does not permit only counts (R391, R392, R393, R397), a REGISTER_WRITE too. The count of
Unsupported Requests of a sleeping function is the model's own image (log entry 160). -/
def Obligations.UnpermittedWritesOnlyCount : Prop :=
  (∀ (c : Instr) (s : State) (m : Master) (b : Nat), writeOf c = some (m, b) → Live s → s.dev.asleep m = true →
      exec c s = .next (withDev s (s.dev.unsupported m))) ∧
  (∀ (c : Instr) (s : State) (m : Master) (b : Nat), writeOf c = some (m, b) → Live s → s.dev.asleep m = false →
      s.dev.mayWrite m b = false → exec c s = .next (withDev s (s.dev.violation m))) ∧
  (∀ (s : State) (m : Master) (off : BitVec 28) (data : List Byte) (b : Byte) (l : List Byte) (blk : Nat), data = b :: l → Live s →
      s.dev.asleep m = false → (masterId m = 0x10 → off.toNat % 4 = 0) →
      ((hostIndex (masterId m)).isSome = true → off.toNat % 64 + data.length ≤ 64) →
      (∀ p ∈ wordsCovered off.toNat data, guardBlock p.1 = some blk) → s.dev.mayWrite m blk = false →
      exec (.registerWrite m .bar0 off b l) s =
        .next (withDev s ((wordsCovered off.toNat data).foldl (fun d _ => d.violation m) s.dev))) ∧
  (∀ (s : State) (m : Master) (off : BitVec 28) (data : List Byte) (b : Byte) (l : List Byte), data = b :: l → Live s →
      s.dev.asleep m = false → (masterId m = 0x10 → off.toNat % 4 = 0 ∧ 4 ≤ data.length) → data.length ≤ 256 →
      areaLo ≤ off.toNat → off.toNat < areaEnd → s.dev.mayWrite m 5 = false →
      exec (.registerWrite m .bar2 off b l) s = .next (withDev s (s.dev.violation m)))

/-- A write of BAR2 stores its bytes in the converter buffer area and nowhere else (R391, R393, R394, R395, R397). -/
def Obligations.Bar2WriteFrame : Prop :=
  ∀ (m : Master) (off : BitVec 28) (data : List Byte) (b : Byte) (l : List Byte) (s : State) (k : Nat), data = b :: l → memOk s = true → Live s →
    s.dev.asleep m = false →
    k = (if tooLarge m data.length then 0 else if masterId m = 0x10 then qspiKept .bar2 off.toNat data.length / 4 * 4 else data.length) →
    ∃ t, exec (.registerWrite m .bar2 off b l) s = .next t ∧ t.pending = s.pending ∧ t.dev.weft = s.dev.weft ∧
      (∀ a, a < off.toNat ∨ off.toNat + k ≤ a ∨ a < areaLo ∨ areaEnd ≤ a →
      memByte t.dev.bar2 a = memByte s.dev.bar2 a) ∧
      (∀ i, i < k → areaLo ≤ off.toNat + i → off.toNat + i < areaEnd → s.dev.mayWrite m 5 = true →
        memByte t.dev.bar2 (off.toNat + i) = data.getD i 0)

/-- A discard leaves recipes, scales, D and the ramp in progress untouched (R99, R253, R254, R403, R416). -/
def Obligations.DiscardKeepsRecipes : Prop :=
  (∀ d : Dev, d.discard.recipes.chans = d.recipes.chans ∧ d.discard.recipes.inForce = d.recipes.inForce ∧
      d.discard.recipes.staged = d.recipes.staged ∧ d.discard.recipes.armed = d.recipes.armed ∧
      d.discard.recipes.localOffset = d.recipes.localOffset ∧ d.discard.recipes.dlTimeout = d.recipes.dlTimeout) ∧
  (∀ d : Dev, (∀ l ∈ d.host.longs, l.state = .running → l.op ≠ 0x0201) → d.discard.recipes.slots = d.recipes.slots) ∧
  (∀ d : Dev, (∀ ch, ch < 32 → (d.boxOf ch).go = true → (d.boxOf ch).landed = true ∨ (d.boxOf ch).picked = false) →
      d.discard.recipes.stepWrites = d.recipes.stepWrites) ∧
  (∀ (d : Dev) (l : LongRun), d.discarding = false → l ∈ d.host.longs → l.state = .running →
      { l with state := .complete 0x0201 [] } ∈ d.discard.host.longs)

/-- A write that a ply active would seal waits for the end of its guard window (R80, R219, R432). -/
def Obligations.GuardWindowWritesWait : Prop :=
  ∀ (c : Instr) (s : State) (op : Nat) (read : Bool) (r : Req), requestOf c = some (op, read, r) → Live s →
    s.dev.host.bootStage = 3 → s.dev.carries op r = true → s.dev.storedReply r = none →
      s.dev.refusal op read r = none → s.dev.defers op read = true →
    exec c s = .next (withDev s { s.dev with ply := { s.dev.ply with deferred := s.dev.ply.deferred ++ [{ op := op, req := r }] } })

/-- No command stops the sequencer but a reset (R34). -/
def Obligations.SequencerNeverStops : Prop :=
  ∀ (c : Instr) (s t : State), s.dev.tk.seqRun = true → exec c s = .next t →
      t.dev.tk.seqRun = true ∨ t.dev.pwr.held = true
end

