-- ==== Sys2Proof/Laws/Memory.lean ====
section
/-!
SUPPORT. Laws of tables and byte memories: read after write, and that every write keeps the canonical form.
-/

namespace Sys2Proof.Laws

open Sys2Proof.Machine

variable {α : Type} [DecidableEq α] {dflt : α}

/-! ### Tables -/

/-- A looser lower bound keeps the canonical form. -/
theorem tblWfGo_mono {t : Tbl α} : ∀ {lo hi : Nat}, lo ≤ hi → tblWfGo dflt hi t = true → tblWfGo dflt lo t = true := by
  cases t with
  | nil => intro _ _ _ _; rfl
  | cons p t =>
    intro lo hi hle h
    simp only [tblWfGo, Bool.and_eq_true, decide_eq_true_eq] at h ⊢
    exact ⟨⟨by omega, h.1.2⟩, h.2⟩

/-- A key below the least key of a canonical table reads the default. -/
theorem tblGet_below : ∀ {t : Tbl α} {lo k : Nat}, tblWfGo dflt lo t = true → k < lo → tblGet dflt t k = dflt
  | [], _, _, _, _ => rfl
  | (k', v) :: t, lo, k, h, hk => by
    simp only [tblWfGo, Bool.and_eq_true, decide_eq_true_eq] at h
    have : k' ≠ k := by omega
    simp only [tblGet, this, if_false]
    exact tblGet_below h.2 (by omega)

/-- Writing a table keeps its canonical form above a bound that the key respects. -/
theorem tblWfGo_tblSet : ∀ {t : Tbl α} {lo k : Nat} {v : α}, tblWfGo dflt lo t = true → lo ≤ k →
    tblWfGo dflt lo (tblSet dflt t k v) = true
  | [], lo, k, v, _, hk => by
    by_cases hv : v = dflt <;> simp [tblSet, tblWfGo, hv, hk]
  | (k', v') :: t, lo, k, v, h, hk => by
    simp only [tblWfGo, Bool.and_eq_true, decide_eq_true_eq, Bool.not_eq_true', decide_eq_false_iff_not] at h
    obtain ⟨⟨h1, h2⟩, h3⟩ := h
    unfold tblSet
    split
    · split
      · simp [tblWfGo, h1, h2, h3]
      · rename_i hlt hv
        have := tblWfGo_mono (lo := k' + 1) (hi := k' + 1) (le_refl _) h3
        simp [tblWfGo, hk, hv, h2, h3, Nat.succ_le_of_lt hlt]
    · split
      · split
        · exact tblWfGo_mono (by omega) h3
        · rename_i _ he hv
          subst he
          simp [tblWfGo, hk, hv, h3]
      · rename_i hlt hne
        have hk' : k' + 1 ≤ k := by omega
        simp [tblWfGo, h1, h2, tblWfGo_tblSet h3 hk']

/-- Every write of a table keeps its canonical form. -/
theorem tblWf_tblSet {t : Tbl α} (h : tblWf dflt t = true) (k : Nat) (v : α) : tblWf dflt (tblSet dflt t k v) = true :=
  tblWfGo_tblSet h (Nat.zero_le k)

/-- A read of another key is not changed by a write. -/
theorem tblGet_tblSet_other : ∀ {t : Tbl α} {k j : Nat} {v : α}, j ≠ k → tblGet dflt (tblSet dflt t k v) j = tblGet dflt t j
  | [], k, j, v, h => by
    by_cases hv : v = dflt
    · simp [tblSet, tblGet, hv]
    · simp [tblSet, tblGet, hv, Ne.symm h]
  | (k', v') :: t, k, j, v, h => by
    unfold tblSet
    split
    · split
      · rfl
      · simp [tblGet, Ne.symm h]
    · split
      · rename_i he
        subst he
        split <;> simp [tblGet, Ne.symm h]
      · simp only [tblGet]
        rw [tblGet_tblSet_other h]

/-- A read of the written key gives the value, where it is not the default: of any table. -/
theorem tblGet_tblSet_same_of_ne : ∀ {t : Tbl α} {k : Nat} {v : α}, v ≠ dflt → tblGet dflt (tblSet dflt t k v) k = v
  | [], k, v, h => by simp [tblSet, tblGet, h]
  | (k', v') :: t, k, v, h => by
    unfold tblSet
    split
    · simp [tblGet]
    · split
      · simp [tblGet]
      · rename_i hne
        simp only [tblGet, Ne.symm hne, if_false]
        exact tblGet_tblSet_same_of_ne h

theorem tblGet_tblSet_same_go : ∀ {t : Tbl α} {lo k : Nat} {v : α}, tblWfGo dflt lo t = true →
    tblGet dflt (tblSet dflt t k v) k = v
  | [], _, k, v, _ => by by_cases hv : v = dflt <;> simp [tblSet, tblGet, hv]
  | (k', v') :: t, lo, k, v, h => by
    by_cases hv : v = dflt
    · simp only [tblWfGo, Bool.and_eq_true, decide_eq_true_eq, Bool.not_eq_true', decide_eq_false_iff_not] at h
      obtain ⟨⟨h1, h2⟩, h3⟩ := h
      unfold tblSet
      simp only [hv, if_true]
      split
      · rename_i hlt
        have : k' ≠ k := by omega
        simp only [tblGet, this, if_false]
        exact tblGet_below h3 (by omega)
      · split
        · rename_i he
          subst he
          exact tblGet_below h3 (by omega)
        · rename_i hne
          simp only [tblGet, Ne.symm hne, if_false]
          exact tblGet_tblSet_same_go h3
    · exact tblGet_tblSet_same_of_ne hv

/-- A read of the written key of a canonical table gives the value. -/
theorem tblGet_tblSet_same {t : Tbl α} (h : tblWf dflt t = true) (k : Nat) (v : α) :
    tblGet dflt (tblSet dflt t k v) k = v :=
  tblGet_tblSet_same_go h

/-- Changing one entry keeps the canonical form. -/
theorem tblWf_tblMod {t : Tbl α} (h : tblWf dflt t = true) (k : Nat) (f : α → α) : tblWf dflt (tblMod dflt t k f) = true :=
  tblWf_tblSet h k _

/-- A read of another key is not changed by changing an entry. -/
theorem tblGet_tblMod_other {t : Tbl α} {k j : Nat} (h : j ≠ k) (f : α → α) :
    tblGet dflt (tblMod dflt t k f) j = tblGet dflt t j :=
  tblGet_tblSet_other h

/-- A read of the changed entry of a canonical table. -/
theorem tblGet_tblMod_same {t : Tbl α} (h : tblWf dflt t = true) (k : Nat) (f : α → α) :
    tblGet dflt (tblMod dflt t k f) k = f (tblGet dflt t k) :=
  tblGet_tblSet_same h k _

/-! ### Byte memories -/

/-- A byte written is read back. -/
theorem memByte_memPut_same {m : Mem} (h : Memory.wf m = true) (a : Nat) (b : Byte) : memByte (memPut m a b) a = b :=
  tblGet_tblSet_same h a b

/-- A write of a byte leaves every other byte. -/
theorem memByte_memPut_other {m : Mem} {a c : Nat} (h : c ≠ a) (b : Byte) : memByte (memPut m a b) c = memByte m c :=
  tblGet_tblSet_other h

/-- A write of a byte keeps the canonical form. -/
theorem wf_memPut {m : Mem} (h : Memory.wf m = true) (a : Nat) (b : Byte) : Memory.wf (memPut m a b) = true :=
  tblWf_tblSet h a b

/-- A write of bytes keeps the canonical form. -/
theorem wf_memPutBytes : ∀ {bs : List Byte} {m : Mem} {a : Nat}, Memory.wf m = true → Memory.wf (memPutBytes m a bs) = true
  | [], _, _, h => h
  | b :: _, _, a, h => by unfold memPutBytes; exact wf_memPutBytes (wf_memPut h a b)

/-- A write of a word keeps the canonical form. -/
theorem wf_memPutWord {m : Mem} (h : Memory.wf m = true) (a : Nat) (w : Word) : Memory.wf (memPutWord m a w) = true :=
  wf_memPutBytes h

/-- A write of words keeps the canonical form. -/
theorem wf_memPutWords : ∀ {ws : List Word} {m : Mem} {a : Nat}, Memory.wf m = true → Memory.wf (memPutWords m a ws) = true
  | [], _, _, h => h
  | _ :: _, _, _, h => by unfold memPutWords; exact wf_memPutWords (wf_memPutWord h _ _)

/-- A write of bytes leaves every byte outside them. -/
theorem memByte_memPutBytes_other : ∀ {bs : List Byte} {m : Mem} {a c : Nat}, c < a ∨ a + bs.length ≤ c →
    memByte (memPutBytes m a bs) c = memByte m c
  | [], _, _, _, _ => rfl
  | b :: bs, m, a, c, h => by
    simp only [List.length_cons] at h
    unfold memPutBytes
    rw [memByte_memPutBytes_other (by omega), memByte_memPut_other (by omega)]

/-- Bytes written to a canonical memory are read back. -/
theorem memByte_memPutBytes_same : ∀ {bs : List Byte} {m : Mem} {a i : Nat}, Memory.wf m = true → i < bs.length →
    memByte (memPutBytes m a bs) (a + i) = bs.getD i 0
  | [], _, _, _, _, h => absurd h (by simp)
  | b :: bs, m, a, 0, hm, _ => by
    unfold memPutBytes
    rw [memByte_memPutBytes_other (by omega)]
    simpa using memByte_memPut_same hm a b
  | b :: bs, m, a, i + 1, hm, h => by
    unfold memPutBytes
    have := memByte_memPutBytes_same (bs := bs) (a := a + 1) (i := i) (wf_memPut hm a b) (by simpa using h)
    rw [show a + (i + 1) = a + 1 + i by omega, this]
    simp

theorem tblWfGo_filter (p : Nat × α → Bool) : ∀ {t : Tbl α} {lo : Nat}, tblWfGo dflt lo t = true →
    tblWfGo dflt lo (t.filter p) = true
  | [], _, _ => rfl
  | (k, v) :: t, lo, h => by
    simp only [tblWfGo, Bool.and_eq_true, decide_eq_true_eq] at h
    have ih := tblWfGo_filter p h.2
    by_cases hp : p (k, v) = true
    · simp [hp, tblWfGo, h.1.1, ih]
      simpa using h.1.2
    · simp only [List.filter_cons, hp]
      exact tblWfGo_mono (by omega) ih

/-- Dropping bytes keeps the canonical form. -/
theorem wf_filter {m : Mem} (p : Nat × Byte → Bool) (h : Memory.wf m = true) : Memory.wf (m.filter p) = true :=
  tblWfGo_filter p h

/-- A write of words leaves every byte outside them. -/
theorem memByte_memPutWords_other : ∀ {ws : List Word} {m : Mem} {a c : Nat}, c < a ∨ a + 4 * ws.length ≤ c →
    memByte (memPutWords m a ws) c = memByte m c
  | [], _, _, _, _ => rfl
  | w :: ws, m, a, c, h => by
    simp only [List.length_cons] at h
    unfold memPutWords memPutWord
    have hl : (wordBytes w).length = 4 := rfl
    rw [memByte_memPutWords_other (by omega), memByte_memPutBytes_other (by rw [hl]; omega)]

/-- A word's four bytes make the word again. -/
theorem bytesWord_extract (w : Word) :
    bytesWord (w.extractLsb' 0 8) (w.extractLsb' 8 8) (w.extractLsb' 16 8) (w.extractLsb' 24 8) = w := by
  apply BitVec.eq_of_getLsbD_eq
  intro i hi
  simp only [bytesWord, BitVec.getLsbD_append, BitVec.getLsbD_extractLsb']
  by_cases h1 : i < 8
  · simp [h1]
  · by_cases h2 : i - 8 < 8
    · simp [h1, h2, show 8 + (i - 8) = i by omega]
    · by_cases h3 : i - 8 - 8 < 8
      · simp [h1, h2, h3, show 16 + (i - 8 - 8) = i by omega]
      · simp [h1, h2, h3, show i - 8 - 8 - 8 < 8 by omega, show 24 + (i - 8 - 8 - 8) = i by omega]

/-- A word written to a canonical memory is read back. -/
theorem memWord_memPutWord_same {m : Mem} (h : Memory.wf m = true) (a : Nat) (w : Word) :
    memWord (memPutWord m a w) a = w := by
  have k := fun i (hi : i < (wordBytes w).length) => memByte_memPutBytes_same (bs := wordBytes w) (a := a) h hi
  have hl : (wordBytes w).length = 4 := rfl
  have h0 := k 0 (by omega); have h1 := k 1 (by omega); have h2 := k 2 (by omega); have h3 := k 3 (by omega)
  unfold memWord memPutWord
  rw [show memByte (memPutBytes m a (wordBytes w)) a = _ from h0, h1, h2, h3]
  exact bytesWord_extract w

/-- Words written to a canonical memory are read back. -/
theorem memWord_memPutWords_same : ∀ {ws : List Word} {m : Mem} {a i : Nat}, Memory.wf m = true → i < ws.length →
    memWord (memPutWords m a ws) (a + 4 * i) = ws.getD i 0
  | [], _, _, _, _, h => absurd h (by simp)
  | w :: ws, m, a, 0, hm, _ => by
    unfold memPutWords
    have e : ∀ k, k < 4 → memByte (memPutWords (memPutWord m a w) (a + 4) ws) (a + k) = memByte (memPutWord m a w) (a + k) :=
      fun k hk => memByte_memPutWords_other (by omega)
    have e0 := e 0 (by omega)
    have he : memWord (memPutWords (memPutWord m a w) (a + 4) ws) a = memWord (memPutWord m a w) a := by
      unfold memWord
      rw [show memByte (memPutWords (memPutWord m a w) (a + 4) ws) a = _ from e0, e 1 (by omega), e 2 (by omega),
        e 3 (by omega)]
      rfl
    simpa using he.trans (memWord_memPutWord_same hm a w)
  | w :: ws, m, a, i + 1, hm, h => by
    unfold memPutWords
    have := memWord_memPutWords_same (ws := ws) (a := a + 4) (i := i) (wf_memPutWord hm a w) (by simpa using h)
    rw [show a + 4 * (i + 1) = a + 4 + 4 * i by omega, this]
    simp

/-- The words written are the words read. -/
theorem memWords_memPutWords {m : Mem} (h : Memory.wf m = true) (a : Nat) (ws : List Word) :
    memWords (memPutWords m a ws) a ws.length = ws := by
  apply List.ext_getElem
  · simp [memWords]
  · intro i h1 h2
    simp [memWords, memWord_memPutWords_same h h2, List.getElem?_eq_getElem h2]

end Sys2Proof.Laws
end

