-- ==== Sys2Proof/Tests/Slice0.lean ====
section
/-!
SUPPORT. Tests: an ill-formed command for each check of WellFormed, the worked examples of the spec, and for every
obligation with hypotheses a state and operands that meet them.
-/

namespace Sys2Proof.Tests

open Sys2Proof Sys2Proof.Machine Sys2Proof.Safety

/-- A device whose main logic runs, whose firmware is ready and whose binding is locked. -/
def dev0 : Dev :=
  { host := { bootStage := 3, bindLocked := true, chans := [(0, { bind0 := 0x80002020, bind1 := 0xFFFF })] } }

/-- A state with no command waiting. -/
def st (d : Dev) : State := { dev := d }

/-- A request to write, and one to read. -/
def rq (args : List Word) : Req := { chan := 0, args := args }
def rr (args : List Word) : Req := { chan := 0, args := args, write := false }

/-- An entry of a class that is due in every tick, and a device that runs a table of it alone. -/
def entryFor (c : Nat) : Entry :=
  { cls := c, unit := 0, budget := 100, notBefore := 0, period := 1, offset := 0, count := 1, src := 0, arg := 4, dst := 0 }
def devRun (e : Entry) : Dev :=
  { dev0 with tk := { dev0.tk with seqRun := true, bank0 := { valid := true, entries := [e] } } }

/-- Messages with nothing in them. -/
def upl : UplinkLine :=
  { header := List.replicate 4 0, control := List.replicate 27 0, crc := 0, complete := true, rtt := 0, bulk := none }
def rb : ReadBytes := { first := 0, count := 3 }
def hi : Hello :=
  { ucrcOk := true, part := .t9256, stepping := 0x20, firmware := 0, pstate := 5, fit := true, sync := true, diverge := false, resyncReq := false,
    xferReq := false, claim := 0, claimLast := 0, claimMax := 0, tick := 0, tickSteps := 1562, guardLen := 1250,
    alignSrc := 0, alignOrigin := 0, syncDelay := 0, commitGuard := 100 }
def ef : EthFrame :=
  { fcsOk := true, body := List.replicate 60 0 }
def cf : CanFrame :=
  { id := 0, xtd := false, rmt := false, fd := false, fast := false, epass := false, dlc := 0, data := [] }
def coordBase : List Word := [0x01800000, 0, 0x0001FFFF, 0]
def coordWords : List Word := coordBase ++ coordTag 0 coordBase

/-- Images that pass their checks: a table with the END entry alone, a set of safety parameters, and a map of two arms
of two cells. -/
def warpImg : List Word := [1, 0, 0, 0, 0xF0000000, 0x100, 0, 0]
def setBody : List Word :=
  List.replicate 1 0 ++ (List.replicate 32 [0, 0, 0, 0x000A000A]).flatten ++ (List.replicate 8 [0, 0, 0, 0x00010000]).flatten ++
    List.replicate 8 0x000A0010 ++ [0x028C8081]
def setImg : List Word := setBody ++ [crc32 (wordsBytes setBody)]
def mapImg : List Word :=
  [0x02000000, 0, 0, 0] ++ [0x3000, 0, 0, 0, 0, 0, 0, 0] ++ [0x3000, 0, 0, 0, 0, 0, 0, 0] ++ List.replicate 80 0 ++
    [0x80000000, 0, 0x80010000, 0, 0x81000000, 0, 0x81010000, 0] ++ List.replicate 504 0
def imgDev (ws : List Word) : Dev := { dev0 with bar2 := memPutWords [] areaLo ws }

/-- The image that a request at the area's start names is the one laid down there. -/
theorem image_of (ws : List Word) (a n c : Word) (h : n.toNat / 4 = ws.length) :
    (imgDev ws).image (rq [a, 0x1000000, n, c]) = ws := by
  have e := Laws.memWords_memPutWords (m := []) rfl areaLo ws
  rw [← h] at e
  exact e

theorem set_length : setBody.length = 170 := by decide +kernel

theorem set_last : wat setImg 170 = crc32 (wordsBytes setBody) := by
  simp [wat, setImg, set_length]

theorem set_crc (d : Dev) (r : Req) (h : d.image r = setImg) (c : arg r 5 = crc32 (wordsBytes setImg)) :
    crc32 (wordsBytes (d.image r)) = arg r 5 := by rw [h, c]

theorem set_good (p : List Word) (e : p = setImg) : ∀ i < setWords, setWordBad p i = false := by
  subst e
  intro i hi
  have h : ∀ i < 170, setWordBad setImg i = false := by decide +kernel
  by_cases h0 : i < 170
  · exact h i h0
  · have : i = 170 := by simp only [setWords] at hi; omega
    subst this
    have : setImg.take 170 = setBody := List.take_left' set_length
    simp [setWordBad, setCrc, this, set_last]

theorem coord_good (d : Dev) (h1 : d.cfg.campusId = 0) (h2 : d.cfg.coordKey = 0) (h3 : d.eth.lastSeqOf = []) :
    d.coordBad coordWords = false := by
  have hl : (coordTag 0 coordBase).length = 2 := rfl
  have h6 : coordWords.length = 6 := by unfold coordWords; rw [List.length_append, hl]; rfl
  have ht : coordWords.take 4 = coordBase := List.take_left' rfl
  have hd : coordWords.drop 4 = coordTag 0 coordBase := List.drop_left' rfl
  have w0 : wat coordWords 0 = 0x01800000 := rfl
  have w1 : wat coordWords 1 = 0 := rfl
  have w2 : wat coordWords 2 = 0x0001FFFF := rfl
  have b1 : bits 0x01800000 31 24 = 1 := by decide
  have b2 : bits 0x0001FFFF 15 0 = 0xFFFF := by decide
  have b3 : bits 0x01800000 23 16 = 0x80 := by decide
  have b4 : bits 0x0001FFFF 31 16 = 1 := by decide
  unfold Dev.coordBad
  rw [h1, h2, h3]
  simp only [h6, w0, w1, w2, b1, b2, b3, b4, show (6 : Nat) - 2 = 4 from rfl, ht, hd, tblGet]
  simp

/-- The CRC of a report of zeros, by R228's polynomial and start value. -/
theorem health_crc : healthCrc 0 0 0 0xA96A0000 = 0xA96A := by decide +kernel

theorem health_crc_low : healthCrc 0 0 0 0 = 0xA96A := by
  rw [← health_crc]
  unfold healthCrc
  congr 1

/-- A capability frame whose CRC is right. -/
def goodCaps (w0 w1 : Word) : CapsFrame :=
  { w0 := w0, w1 := w1, w2 := 0, w3 := 0, crc := crc32 (wordsBytes [w0, w1, 0, 0]) }

theorem caps_good (w0 w1 : Word) : capsGood (goodCaps w0 w1) = true := by
  unfold capsGood goodCaps; simp

def capsFlip : CapsFrame := { w0 := 0, w1 := 0, w2 := 0, w3 := 0, crc := ~~~ crc32 (wordsBytes [0, 0, 0, 0]) }

theorem caps_flip : capsGood capsFlip = false := by decide +kernel

/-- dev0 without a command waiting, and with a stored reply on channel 0. -/
def dev0St : State := st dev0
/-- A member in office within the guard window. -/
def inGuard : Dev :=
  { dev0 with tk := { dev0.tk with seqRun := true, guardDone := true }
              ply := { dev0.ply with role := .memberA, pstate := .active } }
def stored0 : Dev :=
  { host := { bootStage := 3, bindLocked := true,
              chans := [(0, { bind0 := 0x80002020, bind1 := 0xFFFF, stored := some (0, [0]) })] } }

/-! An ill-formed command for each check. -/

theorem test_wf_request_too_long : Instr.wf (.nop (rq (List.replicate 15 0))) = false := by decide

theorem test_wf_last_request_too_long : Instr.wf (.fwActivate (rq (List.replicate 15 0))) = false := by decide

theorem test_wf_trip_names_a_channel_twice : Instr.wf (.shortTrip { chan := 3, didt := 0 } [{ chan := 3, didt := 1 }]) = false := by decide

theorem test_wf_read_of_no_byte : Instr.wf (.tickLoRead ⟨.mgmt, { count := 0 }⟩) = false := by decide

theorem test_wf_read_past_the_word : Instr.wf (.backDataPop ⟨.mgmt, { first := 2, count := 3 }⟩ 0) = false := by decide

theorem test_wf_hello_pstate : Instr.wf (.hello { hi with pstate := 8 }) = false := by decide

theorem test_wf_hello_tick_steps : Instr.wf (.hello { hi with tickSteps := 8192 }) = false := by decide

theorem test_wf_hello_guard_len : Instr.wf (.hello { hi with guardLen := 8192 }) = false := by decide

theorem test_wf_hello_sync_delay : Instr.wf (.hello { hi with syncDelay := 4096 }) = false := by decide

theorem test_wf_hello_commit_guard : Instr.wf (.hello { hi with commitGuard := 65536 }) = false := by decide

theorem test_wf_table_length : Instr.wf (.plyUnit ⟨.table 0 (List.replicate 63 0) 0, 0, true⟩) = false := by decide

theorem test_wf_table_offset : Instr.wf (.plyUnit ⟨.table 32 (List.replicate 64 0) 0, 0, true⟩) = false := by decide

theorem test_wf_seal_log : Instr.wf (.plyUnit ⟨.seal { tick := 0, claim := 0, appliedEpoch := 0, appliedTick := 0, commitState := 0, epoch := 0, target := 0, set := 0, campus := false, units := 0, unitsCrc := 0, releases := [], flags := [], log := [{ op := 0, req := rq (List.replicate 15 0) }] }, 0, true⟩) = false := by decide

theorem test_wf_acc_value : Instr.wf (.plyUnit ⟨.trailer { accs := [{ value := 2 ^ 48, frac := 0, wrap := 0 }], totals := [], pulses := [], pulseIns := [], digests := [], encs := [], trims := [], hello := hi }, 0, true⟩) = false := by decide

theorem test_wf_acc_wrap : Instr.wf (.plyUnit ⟨.trailer { accs := [{ value := 0, frac := 0, wrap := 256 }], totals := [], pulses := [], pulseIns := [], digests := [], encs := [], trims := [], hello := hi }, 0, true⟩) = false := by decide

theorem test_wf_trailer_hello : Instr.wf (.plyUnit ⟨.trailer { accs := [], totals := [], pulses := [], pulseIns := [], digests := [], encs := [], trims := [], hello := { hi with pstate := 8 } }, 0, true⟩) = false := by decide

theorem test_wf_trailer_trims : Instr.wf (.plyUnit ⟨.trailer { accs := [], totals := [], pulses := [], pulseIns := [], digests := [], encs := [], trims := List.replicate 33 { chan := 0, words := [], drv := [], pendMask := 0, pendEvt := 0 }, hello := hi }, 0, true⟩) = false := by decide

theorem test_wf_xfer_weft : Instr.wf (.xferUnit 0 ⟨true, .weft 0 (List.replicate 65 0)⟩) = false := by decide

theorem test_wf_xfer_inst_words : Instr.wf (.xferUnit 0 ⟨true, .inst 0 (List.replicate 15 0) [] false⟩) = false := by decide

theorem test_wf_xfer_inst_lanes : Instr.wf (.xferUnit 0 ⟨true, .inst 0 (List.replicate 16 0) (List.replicate 33 {}) false⟩) = false := by decide

theorem test_wf_xfer_acc : Instr.wf (.xferUnit 0 ⟨true, .acc 0 { value := 0, frac := 0, wrap := 256 }⟩) = false := by decide

theorem test_wf_xfer_fields : Instr.wf (.xferUnit 0 ⟨true, .fields 0 0 65536⟩) = false := by decide

theorem test_wf_xfer_param : Instr.wf (.xferUnit 0 ⟨true, .param .snapReq⟩) = false := by decide

theorem test_wf_xfer_stop_th : Instr.wf (.xferUnit 0 ⟨true, .param (.stopTh 0)⟩) = false := by decide

theorem test_wf_uplink_header : Instr.wf (.uplinkFrame 0 { upl with header := [] }) = false := by decide

theorem test_wf_uplink_control : Instr.wf (.uplinkFrame 0 { upl with control := List.replicate 28 0 }) = false := by decide

theorem test_wf_uplink_bulk_length : Instr.wf (.uplinkFrame 0 { upl with bulk := some (4, [], 0) }) = false := by decide

theorem test_wf_eth_length : Instr.wf (.frameReceive 0 { ef with body := List.replicate 13 0 }) = false := by decide

theorem test_wf_coord_words : Instr.wf (.coordinationFrame 0 { words := List.replicate 5 0, dstMac := 0, srcMac := 0 }) = false := by decide

theorem test_wf_can_data : Instr.wf (.canFrameReceived 0 { cf with data := List.replicate 9 0 }) = false := by decide

theorem test_wf_can_fd_data : Instr.wf (.canFrameReceived 0 { cf with fd := true, data := List.replicate 65 0 }) = false := by decide

theorem test_wf_can_base_id : Instr.wf (.canFrameReceived 0 { cf with id := 0x800 }) = false := by decide

theorem test_wf_can_fd_remote : Instr.wf (.canFrameReceived 0 { cf with fd := true, rmt := true }) = false := by decide

theorem test_wf_sideband : Instr.wf (.tickBoundary { sideband := List.replicate 17 0 }) = false := by decide

theorem test_wf_first_sideband : Instr.wf (.firstBoundary { sideband := List.replicate 17 0 }) = false := by decide

theorem test_wf_sample_count : Instr.wf (.sensorSample (List.replicate 15 0)) = false := by decide

theorem test_wf_sample_range : Instr.wf (.sensorSample (32768 :: List.replicate 15 0)) = false := by decide

theorem test_wf_sense_channels : Instr.wf (.islandCycle { sense := List.replicate 33 [] }) = false := by decide

theorem test_wf_sense_samples : Instr.wf (.islandCycle { sense := [List.replicate 9 0] }) = false := by decide

theorem test_wf_test_pulse_levels : Instr.wf (.testPulse 0 ⟨[], List.replicate 8 {}⟩) = false := by decide

/-- The bounds on the flags of a seal, the accumulators and encoders of a trailer, and a bulk segment. -/
theorem test_wf_long_lists :
    Instr.wf (.plyUnit ⟨.seal { tick := 0, claim := 0, appliedEpoch := 0, appliedTick := 0, commitState := 0, epoch := 0, target := 0, set := 0, campus := false, units := 0, unitsCrc := 0, releases := [], flags := List.replicate 257 { strand := 0, fresh := true, lost := false }, log := [] }, 0, true⟩) = false ∧
    Instr.wf (.plyUnit ⟨.trailer { accs := List.replicate 137 { value := 0, frac := 0, wrap := 0 }, totals := [], pulses := [], pulseIns := [], digests := [], encs := [], trims := [], hello := hi }, 0, true⟩) = false ∧
    Instr.wf (.plyUnit ⟨.trailer { accs := [], totals := [], pulses := [], pulseIns := [], digests := [], encs := List.replicate 257 { strand := 0, swallow := 0, omitted := 0, swMin := 0, edgeMax := 0, levelA := none, levelB := none, edgeLimit := false, blocked := false }, trims := [], hello := hi }, 0, true⟩) = false ∧
    Instr.wf (.uplinkFrame 0 { upl with bulk := some (2676, List.replicate 669 0, 0) }) = false := by decide +kernel

/-! For every obligation with hypotheses, states and operands that meet them, clause by clause. -/

theorem test_witness_system_commands_answer :
    (∃ (s : State) (r : Req), Served 0x0000 true r s) ∧
    (∃ (s : State) (r : Req), Served 0x0001 true r s) ∧
    (∃ (s : State) (slot : Fin 8) (x : LongRun) (q : Rep × Dev), Live s ∧ s.dev.running[slot.val]? = some x ∧ s.dev.endWaits x = false ∧ s.dev.defersEnd x = false ∧ s.dev.finish x.op x.req = some q) ∧
    (∃ (s : State) (slot : Fin 8) (x : LongRun), Live s ∧ s.dev.running[slot.val]? = some x ∧ s.dev.endWaits x = false ∧ s.dev.defersEnd x = true) :=
  ⟨⟨st dev0, rq [], by decide⟩,
   ⟨st dev0, rq [], by decide⟩,
   ⟨st ({ dev0 with host := { dev0.host with longs := [{ op := 0x010A, req := rq [0], state := .running }] } }), 0, _, _, by decide, rfl, by decide, by decide, rfl⟩,
   ⟨st ({ dev0 with host := { dev0.host with longs := [{ op := 0x0306, req := rq [0], state := .running }] }, ply := { dev0.ply with role := .memberA, pstate := .active }, tk := { dev0.tk with seqRun := true, guardLen := 20000 } }), 0, _, by decide, rfl, by decide, by decide⟩⟩

theorem test_witness_fault_settings_land_at_tick :
    (∃ (s : State) (r : Req) (dflt lo : Nat), Served 0x0010 false r s ∧ sevDefault (bits (arg r 2) 8 0) = some (dflt, lo) ∧ lo ≤ bits (arg r 3) 2 0 ∧ bits (arg r 3) 2 0 ≤ 5) ∧
    (∃ (s : State) (r : Req), Served 0x0011 false r s ∧ 1 ≤ bits (arg r 2) 2 0 ∧ bits (arg r 2) 2 0 ≤ 5) ∧
    (∃ (s : State) (r : Req) (lo hi : Int), Served 0x0012 false r s ∧ thermalRange (bits (arg r 2) 2 0) = some (lo, hi) ∧ lo ≤ sval (arg r 3) ∧ sval (arg r 3) ≤ hi) :=
  ⟨⟨st dev0, rq [0x020, 5], _, _, by decide, rfl, by decide, by decide⟩,
   ⟨st dev0, rq [5], by decide, by decide, by decide⟩,
   ⟨st dev0, rq [0, 14720], _, _, by decide, rfl, by decide, by decide⟩⟩

theorem test_witness_fault_accesses_act :
    (∃ (s : State) (m : Master) (w : Fin 16) (v : Word), MayWrite m 1 s) ∧
    (∃ (s : State) (m : Master) (v : Word) (left : Nat), MayWrite m 1 s ∧ left = (s.dev.flt.lastSeq + 65536 - bits v 31 16) % 65536) ∧
    (∃ (s : State) (m : Master) (v : Word), MayWrite m 1 s) ∧
    (∃ (s : State) (x : HankRec) (rest : List HankRec) (q : Nat), Live s ∧ s.dev.flt.queue = x :: rest ∧ q = (s.dev.flt.lastSeq + 1) % 65536) ∧
    (∃ (s : State), Live s) ∧
    (∃ (s : State), Live s ∧ s.dev.isStepTick = true) ∧
    (∃ (s : State) (readings : List Int), Live s ∧ (s.dev.sampleSensors readings).therm.shutdown = false ∧ (∀ i < 16, (tblGet {} (s.dev.sampleSensors readings).therm.sensors i).overRun < 2)) ∧
    (∃ (s : State) (readings : List Int) (n : Nat), Live s ∧ (s.dev.sampleSensors readings).therm.shutdown = false ∧ (List.range 16).find? (fun i => decide (2 ≤ (tblGet {} (s.dev.sampleSensors readings).therm.sensors i).overRun)) = some n) :=
  ⟨⟨st dev0, .mgmt, 0, 0, by decide⟩,
   ⟨st dev0, .mgmt, 0, _, by decide, rfl⟩,
   ⟨st dev0, .mgmt, 0, by decide⟩,
   ⟨st ({ dev0 with flt := { dev0.flt with queue := [{}] } }), _, _, _, by decide, rfl, rfl⟩,
   ⟨st dev0, by decide⟩,
   ⟨st ({ dev0 with tk := { dev0.tk with seqRun := true } }), by decide, by decide⟩,
   ⟨st dev0, [], by decide, by decide, by decide⟩,
   ⟨st ({ dev0 with therm := { dev0.therm with sensors := [(0, { value := 32000, overRun := 1 })] } }), [32000], _, by decide, by decide, rfl⟩⟩

theorem test_witness_cut_sources_fire_their_rows :
    (∃ (s : State), Live s ∧ s.dev.cut.cutIn = false) ∧
    (∃ (s : State), Live s) ∧
    (∃ (s : State), Live s ∧ s.dev.cut.plyCutIn = false) ∧
    (∃ (s : State), Live s) ∧
    (∃ (s : State) (k : Fin 256), Live s ∧ k.val < s.dev.strandCount ∧ (s.dev.strandOf k.val).state.hearsCut = true ∧ (s.dev.strandOf k.val).cutSrc = false ∧ s.dev.underTest 0 k.val = false) ∧
    (∃ (s : State) (k : Fin 256), Live s ∧ s.dev.underTest 0 k.val = true) ∧
    (∃ (s : State) (k : Fin 256), Live s) ∧
    (∃ (s : State) (m : Master) (v : Word), MayWrite m 0 s) ∧
    (∃ (s : State) (r : Req) (d : Dev), Served 0x0022 false r s ∧ d = s.dev.fire 5 0 (bits (arg r 2) 15 0)) :=
  ⟨⟨st dev0, by decide, by decide⟩,
   ⟨st dev0, by decide⟩,
   ⟨st dev0, by decide, by decide⟩,
   ⟨st dev0, by decide⟩,
   ⟨st ({ dev0 with strands := [(0, { state := .active })] }), 0, by decide, by decide, by decide, by decide, by decide⟩,
   ⟨st ({ dev0 with test := { dev0.test with lanes := [(laneKey 0 0, { mode := 1 })] } }), 0, by decide, by decide⟩,
   ⟨st dev0, 0, by decide⟩,
   ⟨st dev0, .mgmt, 0, by decide⟩,
   ⟨st dev0, rq [], _, by decide, rfl⟩⟩

/-- The sequencer runs and aligns to TB0. -/
def devAligned : Dev := { dev0 with tk := { dev0.tk with seqRun := true, alignSrc := 1 } }

theorem test_witness_cut_tables_and_release :
    (∃ (s : State) (r : Req) (f : RecForm), Served 0x0020 true r s ∧ r.write = false ∧ recForm r 260 1 = some f) ∧
    (∃ (s : State) (r : Req) (f : RecForm), Served 0x0020 false r s ∧ r.write = true ∧ recForm r 260 1 = some f ∧ ((f.index < 256 → f.index < s.dev.strandCount)) ∧ s.dev.tk.seqRun = false) ∧
    (∃ (s : State) (r : Req) (f : RecForm), Served 0x0020 false r s ∧ r.write = true ∧ recForm r 260 1 = some f ∧ f.index < 256 ∧ s.dev.strandCount ≤ f.index) ∧
    (∃ (s : State) (r : Req) (f : RecForm), Served 0x0020 false r s ∧ r.write = true ∧ recForm r 260 1 = some f ∧ ((f.index < 256 → f.index < s.dev.strandCount)) ∧ s.dev.tk.seqRun = true) ∧
    (∃ (s : State) (r : Req) (f : RecForm), Served 0x0021 false r s ∧ r.write = true ∧ recForm r 16 10 = some f ∧ s.dev.tk.seqRun = true) ∧
    (∃ (s : State) (r : Req) (f : RecForm), Served 0x0021 true r s ∧ r.write = false ∧ recForm r 16 10 = some f) ∧
    (∃ (s : State) (r : Req) (f : RecForm) (d : Dev), Served 0x0021 false r s ∧ r.write = true ∧ recForm r 16 10 = some f ∧ s.dev.tk.seqRun = false ∧ d = Dev.regroup { s.dev with cut := { s.dev.cut with
      groups := tblSet {} s.dev.cut.groups f.index ((s.dev.groupOf f.index).write f) } }) ∧
    (∃ (s : State) (r : Req), Served 0x0023 false r s ∧ s.dev.assertedGroups &&& bits (arg r 2) 15 0 = 0) ∧
    (∃ (s : State) (r : Req), Served 0x0023 false r s ∧ s.dev.assertedGroups &&& bits (arg r 2) 15 0 ≠ 0) :=
  ⟨⟨st dev0, rr [0x00030001, 5], _, by decide, by decide, rfl⟩,
   ⟨st dev0, rq [0x00030001, 5], _, by decide, by decide, rfl, by decide, by decide⟩,
   ⟨st ({ dev0 with part := .t9128 }), rq [0x00FF0001, 0], _, by decide, by decide, rfl, by decide, by decide⟩,
   ⟨st devAligned, rq [0x00030001, 5], _, by decide, by decide, rfl, by decide, by decide⟩,
   ⟨st devAligned, rq [0x00030001, 5], _, by decide, by decide, rfl, by decide⟩,
   ⟨st dev0, rr [0x00030001, 5], _, by decide, by decide, rfl⟩,
   ⟨st dev0, rq [0x00030001, 5], _, _, by decide, by decide, rfl, by decide, rfl⟩,
   ⟨st dev0, rq [3], by decide, by decide +kernel⟩,
   ⟨st ({ dev0 with cut := { dev0.cut with cutIn := true } }), rq [3], by decide, by decide +kernel⟩⟩

theorem test_witness_mode_commit_commands :
    (∃ (s : State) (r : Req), Served 0x0701 false r s ∧ bits (arg r 5) 31 6 = 0 ∧ s.dev.armRefusal (arg r 2).toNat (join48 (arg r 3) (arg r 4)) (arg r 5).toNat (bit (arg r 6) 0) = none) ∧
    (∃ (s : State) (r : Req) (reason status : Nat), Served 0x0701 false r s ∧ bits (arg r 5) 31 6 = 0 ∧ s.dev.armRefusal (arg r 2).toNat (join48 (arg r 3) (arg r 4)) (arg r 5).toNat (bit (arg r 6) 0) = some (reason, status)) ∧
    (∃ (s : State) (r : Req), Served 0x0702 false r s ∧ s.dev.tk.commit = .idle) ∧
    (∃ (s : State) (r : Req), Served 0x0702 false r s ∧ s.dev.tk.commit = .armed ∧ s.dev.tk.epoch = arg r 2 ∧ s.dev.tk.tick + s.dev.tk.commitGuard < s.dev.tk.target) ∧
    (∃ (s : State) (r : Req), Served 0x0702 false r s ∧ s.dev.tk.commit = .armed ∧ s.dev.tk.epoch ≠ arg r 2) ∧
    (∃ (s : State) (r : Req), Served 0x0702 false r s ∧ ((s.dev.tk.commit = .armed ∧ s.dev.tk.epoch = arg r 2 ∧ s.dev.tk.target ≤ s.dev.tk.tick + s.dev.tk.commitGuard ∨
      s.dev.tk.commit = .committed))) ∧
    (∃ (s : State) (r : Req) (d : Dev), Served 0x0706 false r s ∧ (arg r 2).toNat < 64 ∧ ((s.dev.tk.commit = .idle ∨ s.dev.tk.set &&& (arg r 2).toNat = 0)) ∧ ((nbit (arg r 2).toNat 0 = true →
      s.dev.tk.seqRun = true)) ∧ d = s.dev.dropStaged (arg r 2).toNat) ∧
    (∃ (s : State) (m : Master) (b : ReadBytes), MayRead m s) :=
  ⟨⟨st ({ dev0 with tk := { dev0.tk with seqRun := true, tick := 1000 } }), rq [1, 1200, 0, 0, 0], by decide, by decide, by decide⟩,
   ⟨st dev0, rq [1, 1200, 0, 0, 0], _, _, by decide, by decide, rfl⟩,
   ⟨st dev0, rq [], by decide, by decide⟩,
   ⟨st ({ dev0 with tk := { dev0.tk with commit := .armed, epoch := 7, tick := 1000, target := 1101 } }), rq [7], by decide, by decide, by decide, by decide⟩,
   ⟨st ({ dev0 with tk := { dev0.tk with commit := .armed, epoch := 7 } }), rq [8], by decide, by decide, by decide⟩,
   ⟨st ({ dev0 with tk := { dev0.tk with commit := .armed, epoch := 7, tick := 1000, target := 1100 } }), rq [7], by decide, by decide⟩,
   ⟨st ({ dev0 with tk := { dev0.tk with seqRun := true } }), rq [63], _, by decide, by decide, by decide, by decide, rfl⟩,
   ⟨st dev0, .mgmt, rb, by decide⟩⟩

theorem test_witness_trim_generator_events :
    (∃ (s : State) (n : Fin 32) (d : Dev), Live s ∧ (s.dev.trimOf n.val).en = true ∧ d = s.dev.advanceUntil ((s.dev.trimOf n.val).start + (s.dev.trimOf n.val).period)) ∧
    (∃ (s : State) (n : Fin 32), Live s ∧ (s.dev.trimOf n.val).en = true ∧ (s.dev.trimOf n.val).out = true ∧ (s.dev.trimOf n.val).duty < 64 * (s.dev.trimOf n.val).period) ∧
    (∃ (s : State) (n : Fin 32), Live s ∧ (s.dev.trimOf n.val).waitsFor 0 s.dev.now = true ∧ s.dev.tk.seqRun = true ∧ s.dev.now = s.dev.tk.tickStart) ∧
    (∃ (s : State) (n : Fin 32) (z : Nat) (d : Dev), Live s ∧ s.dev.now ≠ s.dev.tk.tickStart ∧ tblGet 0 s.dev.tk.zcNow (s.dev.trimOf n.val).zcArm = z + 1 ∧ 64 * s.dev.now ≤ z ∧ (s.dev.trimOf n.val).waitsFor 1 (z / 64) = true ∧ d = s.dev.advanceUntil (z / 64)) ∧
    (∃ (s : State) (n : Fin 32) (bothOn : Bool), Live s ∧ (s.dev.trimOf n.val).maskPending = false ∧ (s.dev.trimOf n.val).pendWas = none) ∧
    (∃ (s : State) (n : Fin 32) (e : Nat) (d : Dev), Live s ∧ s.dev.maskEvent (s.dev.trimOf n.val) = some (e, d)) ∧
    (∃ (s : State) (pin : Fin 4) (falling : Bool), Live s) ∧
    (∃ (s : State) (n : Fin 32) (high : Bool), Live s) :=
  ⟨⟨st ({ dev0 with trims := [(0, { en := true })] }), 0, _, by decide, by decide, rfl⟩,
   ⟨st ({ dev0 with trims := [(0, { en := true, out := true })] }), 0, by decide, by decide, by decide, by decide⟩,
   ⟨st ({ dev0 with trims := [(0, { maskPending := true })], tk := { dev0.tk with seqRun := true } }), 0, by decide, by decide, by decide, by decide⟩,
   ⟨st ({ dev0 with now := 70, trims := [(0, { maskPending := true, pendEvt := 1 })], tk := { dev0.tk with zcNow := [(0, 6401)] } }), 0, 6400, _, by decide, by decide, by decide, by decide, by decide, rfl⟩,
   ⟨st dev0, 0, true, by decide, by decide, by decide⟩,
   ⟨st ({ dev0 with trims := [(0, { maskPending := true })], tk := { dev0.tk with seqRun := true } }), 0, 0, _, by decide, rfl⟩,
   ⟨st dev0, 0, true, by decide⟩,
   ⟨st dev0, 0, true, by decide⟩⟩

theorem test_witness_trim_driver_events :
    (∃ (s : State) (x : Trip), Live s ∧ (s.dev.trimOf x.chan.val).crosses s.dev.now x.didt = false) ∧
    (∃ (s : State) (x : Trip) (u : Trim) (d : Dev), Live s ∧ (s.dev.trimOf x.chan.val).crosses s.dev.now x.didt = true ∧ d = s.dev.modTrim x.chan.val (fun t => t.trip s.dev.now) ∧ u = d.trimOf x.chan.val ∧ ((s.dev.trimOf x.chan.val).retrip < 3 ∨ (s.dev.trimOf x.chan.val).lockout = true)) ∧
    (∃ (s : State) (x : Trip) (u : Trim) (d : Dev), Live s ∧ (s.dev.trimOf x.chan.val).crosses s.dev.now x.didt = true ∧ d = s.dev.modTrim x.chan.val (fun t => t.trip s.dev.now) ∧ u = d.trimOf x.chan.val ∧ 3 ≤ (s.dev.trimOf x.chan.val).retrip ∧ (s.dev.trimOf x.chan.val).lockout = false) ∧
    (∃ (s : State) (x y low : Trip) (others ts more : List Trip) (u : Trim) (d e : Dev), Live s ∧ ts = (x :: others.filter (fun t => t.chan != x.chan)).filter (fun t => (s.dev.trimOf t.chan.val).crosses s.dev.now t.didt) ∧ ts = y :: more ∧ more ≠ [] ∧ low = lowestTrip y ts ∧ s.dev.lockouts ts = [] ∧ d = ts.foldl (fun d t => d.modTrim t.chan.val (fun u => u.trip d.now)) s.dev ∧ u = d.trimOf low.chan.val ∧ e = d.events [(0x048, pack [(9, b1 u.tripHs), (8, b1 u.tripBlank), (0, low.chan.val)])]) ∧
    (∃ (s : State) (x y low : Trip) (others ts more : List Trip) (n : Nat) (ns : List Nat) (u : Trim) (d e : Dev), Live s ∧ ts = (x :: others.filter (fun t => t.chan != x.chan)).filter (fun t => (s.dev.trimOf t.chan.val).crosses s.dev.now t.didt) ∧ ts = y :: more ∧ more ≠ [] ∧ low = lowestTrip y ts ∧ s.dev.lockouts ts = n :: ns ∧ d = ts.foldl (fun d t => d.modTrim t.chan.val (fun u => u.trip d.now)) s.dev ∧ u = d.trimOf low.chan.val ∧ e = d.events [(0x048, pack [(9, b1 u.tripHs), (8, b1 u.tripBlank), (0, low.chan.val)]), (0x04B, word n)]) ∧
    (∃ (s : State) (n : Fin 32) (highWaiting : Bool), Live s ∧ (s.dev.trimOf n.val).waits highWaiting = true) ∧
    (∃ (s : State) (n : Fin 32), Live s ∧ (s.dev.trimOf n.val).bstUv = false) ∧
    (∃ (s : State) (n : Fin 32), Live s) ∧
    (∃ (s : State) (n : Fin 32) (d : Dev), Live s ∧ (s.dev.trimOf n.val).prechg = true ∧ (s.dev.trimOf n.val).bstUv = false ∧ d = s.dev.advanceUntil ((s.dev.trimOf n.val).preAt + 2 * (s.dev.trimOf n.val).drv.preN * (s.dev.trimOf n.val).preWidth)) ∧
    (∃ (s : State) (n : Fin 32) (d : Dev), Live s ∧ (s.dev.trimOf n.val).prechg = true ∧ (s.dev.trimOf n.val).bstUv = true ∧ d = s.dev.advanceUntil ((s.dev.trimOf n.val).preAt + 2 * (s.dev.trimOf n.val).drv.preN * (s.dev.trimOf n.val).preWidth)) ∧
    (∃ (s : State), Live s ∧ s.dev.isMember = true ∧ s.dev.ply.pstate = .active ∧ s.dev.cut.trimOwn = false ∧ s.dev.cut.ownIn = false) ∧
    (∃ (s : State), Live s ∧ s.dev.isMember = true ∧ s.dev.ply.pstate = .active ∧ s.dev.cut.trimOwn = false ∧ s.dev.cut.ownIn = true ∧ 16 ≤ s.dev.cut.ownWait) :=
  ⟨⟨st dev0, { chan := 0, didt := 999 }, by decide, by decide⟩,
   ⟨st dev0, { chan := 0, didt := 0xFFFF }, _, _, by decide, by decide, rfl, rfl, by decide⟩,
   ⟨st ({ dev0 with trims := [(0, { retrip := 3 })] }), { chan := 0, didt := 0xFFFF }, _, _, by decide, by decide, rfl, rfl, by decide, by decide⟩,
   ⟨st dev0, { chan := 3, didt := 0xFFFF }, { chan := 3, didt := 0xFFFF }, { chan := 1, didt := 0xFFFF }, [{ chan := 1, didt := 0xFFFF }], [{ chan := 3, didt := 0xFFFF }, { chan := 1, didt := 0xFFFF }], [{ chan := 1, didt := 0xFFFF }], _, _, _, by decide, by decide, rfl, by decide, by decide, by decide, rfl, rfl, rfl⟩,
   ⟨st ({ dev0 with trims := [(1, { retrip := 3 })] }), { chan := 3, didt := 0xFFFF }, { chan := 3, didt := 0xFFFF }, { chan := 1, didt := 0xFFFF }, [{ chan := 1, didt := 0xFFFF }], [{ chan := 3, didt := 0xFFFF }, { chan := 1, didt := 0xFFFF }], [{ chan := 1, didt := 0xFFFF }], 1, [], _, _, _, by decide, by decide, rfl, by decide, by decide, by decide, rfl, rfl, rfl⟩,
   ⟨st ({ dev0 with trims := [(0, { ready := true, cmdH := true, vgsL := true, offL := 1 })] }), 0, true, by decide, by decide⟩,
   ⟨st ({ dev0 with trims := [(0, { bstUv := false })] }), 0, by decide, by decide⟩,
   ⟨st dev0, 0, by decide⟩,
   ⟨st ({ dev0 with trims := [(0, { prechg := true, bstUv := false })] }), 0, _, by decide, by decide, by decide, rfl⟩,
   ⟨st ({ dev0 with trims := [(0, { prechg := true })] }), 0, _, by decide, by decide, by decide, rfl⟩,
   ⟨st ({ dev0 with ply := { dev0.ply with role := .memberA, pstate := .active }, cut := { dev0.cut with trimOwn := false } }), by decide, by decide, by decide, by decide, by decide⟩,
   ⟨st ({ dev0 with ply := { dev0.ply with role := .memberA, pstate := .active }, cut := { dev0.cut with trimOwn := false, ownIn := true, ownWait := 16 } }), by decide, by decide, by decide, by decide, by decide, by decide⟩⟩

theorem test_witness_trim_commands_served :
    (∃ (s : State) (r : Req) (f : RecForm), Served 0x0208 true r s ∧ r.write = false ∧ recForm r 32 4 = some f) ∧
    (∃ (s : State) (r : Req) (f : RecForm) (d : Dev), Served 0x0208 false r s ∧ r.write = true ∧ recForm r 32 4 = some f ∧ (f.first = 0 ∨ (f.wordFor 1).isSome = true → s.dev.warpOwns f.index = false) ∧ f.wordFor 2 = none ∧ d = (s.dev.modTrim f.index (fun t => match f.wordFor 3 with | some w => t.clearWord3 w | none => t)).modDrive f.index (fun t => t.writePair s.dev.now ((f.wordFor 0).map (fun w => bits w 24 0)) ((f.wordFor 1).map (fun w => bits w 30 0)))) ∧
    (∃ (s : State) (r : Req) (f : RecForm) (w : Word) (d : Dev), Served 0x0208 false r s ∧ r.write = true ∧ recForm r 32 4 = some f ∧ (f.first = 0 ∨ (f.wordFor 1).isSome = true → s.dev.warpOwns f.index = false) ∧ f.wordFor 2 = some w ∧ (bit w 7 = true → bits w 6 5 ≠ 3) ∧ d = ((s.dev.modTrim f.index (fun t => match f.wordFor 3 with | some v => t.clearWord3 v | none => t)).modDrive f.index (fun t => t.writePair s.dev.now ((f.wordFor 0).map (fun w => bits w 24 0)) ((f.wordFor 1).map (fun w => bits w 30 0)))).modTrim f.index (fun t => t.writeWord2 w s.dev.now)) ∧
    (∃ (s : State) (r : Req) (n : Nat) (d : Dev), Served 0x0209 false r s ∧ n = bits (arg r 2) 4 0 ∧ s.dev.warpOwns n = false ∧ d = s.dev.modDrive n (fun t => t.writePair s.dev.now (some (arg r 3).toNat) (some (bits (arg r 4) 30 0)))) ∧
    (∃ (s : State) (r : Req), Served 0x020A false r s) ∧
    (∃ (s : State) (r : Req) (f : RecForm), Served 0x020B true r s ∧ r.write = false ∧ recForm r 32 4 = some f) ∧
    (∃ (s : State) (r : Req) (f : RecForm) (set : DrvSet) (d : Dev), Served 0x020B false r s ∧ r.write = true ∧ recForm r 32 4 = some f ∧ f.first ≤ 1 ∧ set = ((s.dev.trimOf f.index).stagedDrv.getD (s.dev.trimOf f.index).drv).write f ∧ set.bad = none ∧ d = s.dev.modTrim f.index (fun t => match f.wordFor 2 with | some w => t.clearDrv w | none => t)) ∧
    (∃ (s : State) (r : Req) (f : RecForm), Served 0x020B false r s ∧ r.write = true ∧ recForm r 32 4 = some f ∧ 2 ≤ f.first) ∧
    (∃ (s : State) (r : Req), Served 0x020C false r s ∧ s.dev.trimCut (bits (arg r 2) 4 0) = false) :=
  ⟨⟨st dev0, rr [0x00000001], _, by decide, by decide, rfl⟩,
   ⟨st dev0, rq [0x00000001, 100], _, _, by decide, by decide, rfl, by decide, by decide, rfl⟩,
   ⟨st dev0, rq [0x00000201, 0x20], _, _, _, by decide, by decide, rfl, by decide, rfl, by decide, rfl⟩,
   ⟨st dev0, rq [0], _, _, by decide, rfl, by decide, rfl⟩,
   ⟨st dev0, rq [0], by decide⟩,
   ⟨st dev0, rr [0x00000001], _, by decide, by decide, rfl⟩,
   ⟨st dev0, rq [0x00000001, 0x8040], _, _, _, by decide, by decide, rfl, by decide, rfl, by decide, rfl⟩,
   ⟨st dev0, rq [0x00000201, 0], _, by decide, by decide, rfl, by decide⟩,
   ⟨st dev0, rq [0], by decide, by decide⟩⟩

theorem test_witness_mailbox_protocol_steps :
    (∃ (s : State) (m : Master) (ch : Fin 32), BoxSide m ch Chan.reqId s ∧ (s.dev.boxOf ch.val).go = false ∧ s.dev.discardOpen = false) ∧
    (∃ (s : State) (m : Master) (ch : Fin 32), BoxSide m ch Chan.reqId s ∧ (s.dev.boxOf ch.val).go = false ∧ s.dev.discardOpen = true) ∧
    (∃ (s : State) (m : Master) (ch : Fin 32), BoxSide m ch Chan.reqId s ∧ (s.dev.boxOf ch.val).go = true ∧ (s.dev.boxOf ch.val).picked = false) ∧
    (∃ (s : State) (m : Master) (ch : Fin 32), BoxSide m ch Chan.reqId s ∧ (s.dev.boxOf ch.val).go = true ∧ (s.dev.boxOf ch.val).picked = true) ∧
    (∃ (s : State) (m : Master) (ch : Fin 32), BoxSide m ch Chan.rspId s ∧ (s.dev.boxOf ch.val).go = true ∧ (s.dev.boxOf ch.val).picked = false ∧ masterId m ≠ 0x20) ∧
    (∃ (s : State) (m : Master) (ch : Fin 32), BoxSide m ch Chan.rspId s ∧ (s.dev.boxOf ch.val).go = true ∧ (s.dev.boxOf ch.val).picked = false ∧ masterId m = 0x20 ∧ s.dev.hasTurn ch.val = true) ∧
    (∃ (s : State) (m : Master) (ch : Fin 32), BoxSide m ch Chan.rspId s ∧ masterId m = 0x20 ∧ s.dev.hasTurn ch.val = false) ∧
    (∃ (s : State) (m : Master) (ch : Fin 32), BoxSide m ch Chan.rspId s ∧ (s.dev.boxOf ch.val).go = true ∧ (s.dev.boxOf ch.val).picked = true ∧ (s.dev.boxOf ch.val).landed = false ∧ s.dev.owes ch.val = false) ∧
    (∃ (s : State) (m : Master) (ch : Fin 32), BoxSide m ch Chan.rspId s ∧ (s.dev.boxOf ch.val).go = true ∧ (s.dev.boxOf ch.val).picked = true ∧ s.dev.owes ch.val = false) ∧
    (∃ (s : State) (m : Master) (ch : Fin 32), BoxSide m ch Chan.reqId s ∧ (s.dev.boxOf ch.val).go = true) ∧
    (∃ (s : State) (m : Master) (ch : Fin 32), BoxSide m ch Chan.reqId s ∧ (s.dev.boxOf ch.val).go = false) ∧
    (∃ (s : State) (m : Master) (ch : Fin 32), BoxSide m ch Chan.rspId s ∧ ((s.dev.boxOf ch.val).go = false ∨ (s.dev.boxOf ch.val).picked = true)) ∧
    (∃ (s : State) (m : Master) (ch : Fin 32), BoxSide m ch Chan.rspId s ∧ ((s.dev.boxOf ch.val).go = false ∨ (s.dev.boxOf ch.val).picked = false ∨ (s.dev.boxOf ch.val).landed = true ∨ s.dev.owes ch.val = true)) ∧
    (∃ (s : State) (m : Master) (ch : Fin 32), BoxSide m ch Chan.rspId s ∧ ((s.dev.boxOf ch.val).go = false ∨ (s.dev.boxOf ch.val).picked = false ∨ s.dev.owes ch.val = true)) :=
  ⟨⟨st ({ dev0 with host := { dev0.host with chans := [(0, { bind0 := 0x80002020, bind1 := 0xFFFF, go := false })] } }), .mgmt, 0, by decide, by decide, by decide⟩,
   ⟨st ({ dev0 with flt := { dev0.flt with discardAt := some 0 } }), .mgmt, 0, by decide, by decide, by decide⟩,
   ⟨st ({ dev0 with host := { dev0.host with chans := [(0, { bind0 := 0x80002020, bind1 := 0xFFFF, go := true })] } }), .mgmt, 0, by decide, by decide, by decide⟩,
   ⟨st ({ dev0 with host := { dev0.host with chans := [(0, { bind0 := 0x80002020, bind1 := 0xFFFF, go := true, picked := true })] } }), .mgmt, 0, by decide, by decide, by decide⟩,
   ⟨st ({ dev0 with host := { dev0.host with chans := [(0, { bind0 := 0x80002010, bind1 := 0xFFFF, go := true })] } }), .qspi, 0, by decide, by decide, by decide, by decide⟩,
   ⟨st ({ dev0 with host := { dev0.host with chans := [(0, { bind0 := 0x80002020, bind1 := 0xFFFF, go := true })] } }), .mgmt, 0, by decide, by decide, by decide, by decide, by decide⟩,
   ⟨st ({ dev0 with host := { dev0.host with chans := [(0, { bind0 := 0x80002020, go := true }), (1, { bind0 := 0x80002020, go := true })] } }), .mgmt, 1, by decide, by decide, by decide⟩,
   ⟨st ({ dev0 with host := { dev0.host with chans := [(0, { bind0 := 0x80002020, bind1 := 0xFFFF, go := true, picked := true })] } }), .mgmt, 0, by decide, by decide, by decide, by decide, by decide⟩,
   ⟨st ({ dev0 with host := { dev0.host with chans := [(0, { bind0 := 0x80002020, bind1 := 0xFFFF, go := true, picked := true })] } }), .mgmt, 0, by decide, by decide, by decide, by decide⟩,
   ⟨st ({ dev0 with host := { dev0.host with chans := [(0, { bind0 := 0x80002020, bind1 := 0xFFFF, go := true })] } }), .mgmt, 0, by decide, by decide⟩,
   ⟨st ({ dev0 with host := { dev0.host with chans := [(0, { bind0 := 0x80002020, bind1 := 0xFFFF })] } }), .mgmt, 0, by decide, by decide⟩,
   ⟨st ({ dev0 with host := { dev0.host with chans := [(0, { bind0 := 0x80002020, bind1 := 0xFFFF, go := true, picked := true })] } }), .mgmt, 0, by decide, by decide⟩,
   ⟨st ({ dev0 with host := { dev0.host with chans := [(0, { bind0 := 0x80002020, bind1 := 0xFFFF, go := true, picked := true, landed := true })] } }), .mgmt, 0, by decide, by decide⟩,
   ⟨st ({ dev0 with host := { dev0.host with chans := [(0, { bind0 := 0x80002020, bind1 := 0xFFFF, go := true })] } }), .mgmt, 0, by decide, by decide⟩⟩

theorem test_witness_mailbox_queues_and_lock :
    (∃ (s : State) (m : Master) (d : Dev), Live s ∧ s.dev.asleep m = false ∧ masterId m = 0x20 ∧ s.dev.host.bindLocked = false ∧ s.dev.host.bootStage ≠ 0xF ∧
      d = s.dev.edge { s.dev with host := { s.dev.host with bindLocked := true } } 3) ∧
    (∃ (s : State) (m : Master), Live s ∧ s.dev.asleep m = false ∧ masterId m = 0x20 ∧ s.dev.host.bootStage = 0xF) ∧
    (∃ (s : State) (m : Master) (ch : Fin 32) (v : Word), Live s ∧ s.dev.asleep m = false ∧ (s.dev.requesters ch.val).contains (masterId m) = true) ∧
    (∃ (s : State) (m : Master) (ch : Fin 32) (v : Word), Live s ∧ s.dev.asleep m = false ∧ (s.dev.responders ch.val).contains (masterId m) = true) ∧
    (∃ (s : State) (m : Master) (ch : Fin 32) (b : ReadBytes) (w : Word) (rest : List Word), Live s ∧ s.dev.asleep m = false ∧ (s.dev.responders ch.val).contains (masterId m) = true ∧ (s.dev.boxOf ch.val).fwd = w :: rest) ∧
    (∃ (s : State) (m : Master) (ch : Fin 32) (b : ReadBytes), Live s ∧ s.dev.asleep m = false ∧ (s.dev.responders ch.val).contains (masterId m) = true ∧ (s.dev.boxOf ch.val).fwd = []) ∧
    (∃ (s : State) (m : Master) (ch : Fin 32) (b : ReadBytes) (w : Word) (rest : List Word), Live s ∧ s.dev.asleep m = false ∧ (s.dev.requesters ch.val).contains (masterId m) = true ∧ (s.dev.boxOf ch.val).back = w :: rest) ∧
    (∃ (s : State) (m : Master) (ch : Fin 32) (b : ReadBytes), Live s ∧ s.dev.asleep m = false ∧ (s.dev.requesters ch.val).contains (masterId m) = true ∧ (s.dev.boxOf ch.val).back = []) :=
  ⟨⟨st ({ dev0 with host := { dev0.host with bindLocked := false } }), .mgmt, _, by decide, by decide, by decide, by decide, by decide, rfl⟩,
   ⟨st ({ dev0 with host := { dev0.host with bootStage := 0xF } }), .mgmt, by decide, by decide, by decide, by decide⟩,
   ⟨st ({ dev0 with host := { dev0.host with chans := [(0, { bind0 := 0x80002020, bind1 := 0xFFFF, go := false })] } }), .mgmt, 0, 0, by decide, by decide, by decide⟩,
   ⟨st ({ dev0 with host := { dev0.host with chans := [(0, { bind0 := 0x80002020, bind1 := 0xFFFF, go := false })] } }), .mgmt, 0, 0, by decide, by decide, by decide⟩,
   ⟨st ({ dev0 with host := { dev0.host with chans := [(0, { bind0 := 0x80002020, bind1 := 0xFFFF, fwd := [5, 6] })] } }), .mgmt, 0, rb, _, _, by decide, by decide, by decide, rfl⟩,
   ⟨st ({ dev0 with host := { dev0.host with chans := [(0, { bind0 := 0x80002020, bind1 := 0xFFFF, go := false })] } }), .mgmt, 0, rb, by decide, by decide, by decide, by decide⟩,
   ⟨st ({ dev0 with host := { dev0.host with chans := [(0, { bind0 := 0x80002020, bind1 := 0xFFFF, back := [5, 6] })] } }), .mgmt, 0, rb, _, _, by decide, by decide, by decide, rfl⟩,
   ⟨st ({ dev0 with host := { dev0.host with chans := [(0, { bind0 := 0x80002020, bind1 := 0xFFFF, go := false })] } }), .mgmt, 0, rb, by decide, by decide, by decide, by decide⟩⟩

theorem test_witness_host_port_events :
    (∃ (s : State) (m : Master) (v : Word), MayWrite m 0 s) ∧
    (∃ (s : State), Live s) ∧
    (∃ (s : State), Live s) ∧
    (∃ (s : State), Live s) ∧
    (∃ (s : State) (f : Fin 2), Live s) ∧
    (∃ (s : State), Live s) ∧
    (∃ (s : State) (f : Fin 2), Live s) ∧
    (∃ (s : State) (f : Fin 2), Live s ∧ (s.dev.fnOf f.val).d3hot = false) ∧
    (∃ (s : State) (f : Fin 2) (d : Dev), Live s ∧ (s.dev.fnOf f.val).d3hot = true ∧ d = s.dev.modFn f.val (fun x => { x with d3hot := false })) :=
  ⟨⟨st dev0, .mgmt, 0, by decide⟩,
   ⟨st dev0, by decide⟩,
   ⟨st dev0, by decide⟩,
   ⟨st dev0, by decide⟩,
   ⟨st dev0, 0, by decide⟩,
   ⟨st dev0, by decide⟩,
   ⟨st dev0, 0, by decide⟩,
   ⟨st dev0, 0, by decide, by decide⟩,
   ⟨st ({ dev0 with host := { dev0.host with pcie := [(0, { d3hot := true })] } }), 0, _, by decide, by decide, rfl⟩⟩

theorem test_witness_warp_load_and_sequencer_start :
    (∃ (s : State) (r : Req) (b : Nat), Served 0x0704 false r s ∧ imgArgs r none = none ∧ b = (arg r 2).toNat ∧ b ≤ 1 ∧ s.dev.bankTaken b = false ∧ LongFree 0x0704 r s.dev) ∧
    (∃ (d : Dev) (r : Req) (ws : List Word), ws = d.image r ∧ crc32 (wordsBytes ws) = arg r 5 ∧ warpHeaderBad ws = none ∧ (arg r 4).toNat = 16 + 16 * (wat ws 0).toNat + (wat ws 1).toNat ∧ (d.warpBank ws).2 = none) ∧
    (∃ (d : Dev) (r : Req) (ws : List Word), ws = d.image r ∧ (arg r 4).toNat ≠ 16 + 16 * (wat ws 0).toNat + (wat ws 1).toNat) ∧
    (∃ (d : Dev) (r : Req) (ws : List Word), ws = d.image r ∧ (arg r 4).toNat = 16 + 16 * (wat ws 0).toNat + (wat ws 1).toNat ∧ crc32 (wordsBytes ws) ≠ arg r 5) ∧
    (∃ (d : Dev) (r : Req) (ws : List Word) (i : Nat), ws = d.image r ∧ crc32 (wordsBytes ws) = arg r 5 ∧ (arg r 4).toNat = 16 + 16 * (wat ws 0).toNat + (wat ws 1).toNat ∧ warpHeaderBad ws = some i) ∧
    (∃ (d : Dev) (r : Req) (ws : List Word) (x : Nat × Nat), ws = d.image r ∧ crc32 (wordsBytes ws) = arg r 5 ∧ (arg r 4).toNat = 16 + 16 * (wat ws 0).toNat + (wat ws 1).toNat ∧ warpHeaderBad ws = none ∧ (d.warpBank ws).2 = some x) ∧
    (∃ (s : State) (r : Req) (b : Nat), Served 0x0704 false r s ∧ imgArgs r none = none ∧ b = (arg r 2).toNat ∧ b ≤ 1 ∧ s.dev.bankTaken b = true) ∧
    (∃ (s : State) (r : Req) (d : Dev), Served 0x0703 false r s ∧ tickConfigBad r = none ∧ s.dev.tk.seqRun = false ∧ s.dev.tk.starting = none ∧ d = (({ s.dev with tk := { s.dev.tk with
        tickSteps := (arg r 2).toNat, guardLen := (arg r 3).toNat, alignSrc := bits (arg r 4) 1 0
        alignOrigin := join48 (arg r 5) (arg r 6), syncDelay := (arg r 7).toNat
        commitGuard := (arg r 8).toNat, startTick := join48 (arg r 9) (arg r 10) } }).recheck 0).recheck 1) ∧
    (∃ (s : State) (r : Req), Served 0x0705 false r s ∧ s.dev.tk.seqRun = false ∧ s.dev.tk.starting = none ∧ s.dev.bankValid (bits (arg r 2) 0 0) = true ∧ s.dev.alignReady = true) :=
  ⟨⟨st dev0, rq [0, 0x1000000, 32, 0], _, by decide, by decide, rfl, by decide, by decide, by decide⟩,
   ⟨imgDev warpImg, rq [0, 0x1000000, 32, crc32 (wordsBytes warpImg)], warpImg, (image_of warpImg 0 32 _ (by decide +kernel)).symm, rfl, by decide, by decide, by decide⟩,
   ⟨dev0, rq [0, 0x1000000, 32, 0], _, rfl, by decide +kernel⟩,
   ⟨dev0, rq [0, 0x1000000, 16, 0], _, rfl, by decide +kernel, by decide +kernel⟩,
   ⟨dev0, rq [0, 0x1000000, 16, crc32 (wordsBytes [0, 0, 0, 0])], [0, 0, 0, 0], 0, by decide +kernel, rfl, by decide +kernel, by decide +kernel⟩,
   ⟨imgDev [1, 0, 0, 0, 0, 0, 0, 0], rq [0, 0x1000000, 32, crc32 (wordsBytes [1, 0, 0, 0, 0, 0, 0, 0])], [1, 0, 0, 0, 0, 0, 0, 0], _, (image_of [1, 0, 0, 0, 0, 0, 0, 0] 0 32 _ (by decide +kernel)).symm, rfl, by decide, by decide, rfl⟩,
   ⟨st ({ dev0 with tk := { dev0.tk with starting := some 0 } }), rq [0, 0x1000000, 32, 0], _, by decide, by decide, rfl, by decide, by decide⟩,
   ⟨st dev0, rq [1562, 1250, 0, 0, 0, 0, 100], _, by decide, by decide, by decide, by decide, rfl⟩,
   ⟨st ({ dev0 with tk := { dev0.tk with bank0 := { valid := true } } }), rq [0], by decide, by decide, by decide, by decide, by decide⟩⟩

theorem test_witness_tick_boundaries_run :
    (∃ (s : State) (b : BoundaryIn) (d : Dev), Live s ∧ s.dev.tk.seqRun = true ∧ d = (s.dev.advanceTo s.dev.tickCycles).judgeWaiting) ∧
    (∃ (s : State) (b : BoundaryIn) (k : Nat), Live s ∧ s.dev.tk.starting = some k ∧ s.dev.tk.alignSrc = 0) ∧
    (∃ (s : State) (b : BoundaryIn) (k : Nat) (q : Nat × Dev), Live s ∧ s.dev.tk.starting = some k ∧ ((s.dev.tk.alignSrc = 1 ∨ s.dev.tk.alignSrc = 2)) ∧ q = s.dev.toFirst) ∧
    (∃ (s : State) (b : BoundaryIn) (k : Nat) (p : Nat × Nat), Live s ∧ s.dev.tk.starting = some k ∧ s.dev.tk.alignSrc = 3 ∧ s.dev.tk.firstPulse = some p) ∧
    (∃ (s : State) (a e : Dev) (q : List Landing × Dev), Live s ∧ s.dev.tk.seqRun = false ∧ a = s.dev.advanceTo s.dev.tickCycles ∧ e = ({ a with tk := { a.tk with tickStart := a.now } } : Dev) ∧ q = (e.flushReplies.openAdcWindows).takeDue) ∧
    (∃ (s : State) (g : GuardIn) (a e x : Dev), Live s ∧ s.dev.tk.seqRun = true ∧ s.dev.tk.guardDone = false ∧ a = s.dev.advanceTo (s.dev.tickCycles - s.dev.tk.guardLen) ∧ e = (({ a with tk := { a.tk with guardDone := true } } : Dev).calibrate g.calOk) ∧ x = (((((e.probe false g.railA.val g.abortA).probe true g.railB.val g.abortB).landWaiting).sealStep).sendTransfer).scrub g.eccFixed g.eccBad) :=
  ⟨⟨st ({ dev0 with tk := { dev0.tk with seqRun := true } }), {}, _, by decide, by decide, rfl⟩,
   ⟨st ({ dev0 with tk := { dev0.tk with starting := some 0 } }), {}, _, by decide, rfl, by decide⟩,
   ⟨st ({ dev0 with tk := { dev0.tk with starting := some 0, alignSrc := 1 } }), {}, _, _, by decide, rfl, by decide, rfl⟩,
   ⟨st ({ dev0 with tk := { dev0.tk with starting := some 0, alignSrc := 3, firstPulse := some (0, 0) } }), {}, _, _, by decide, rfl, by decide, rfl⟩,
   ⟨st dev0, _, _, _, by decide, by decide, rfl, rfl, rfl⟩,
   ⟨st ({ dev0 with tk := { dev0.tk with seqRun := true } }), {}, _, _, _, by decide, by decide, by decide, rfl, rfl, rfl⟩⟩

theorem test_witness_start_sequence_timers :
    (∃ (s : State) (d : Dev), Live s ∧ s.dev.pwr.start = .precharge ∧ s.dev.preInTime = false ∧ s.dev.timeUp (s.dev.pwr.preCmdTime + msCycles s.dev.cfg.fbTime) = some d) ∧
    (∃ (s : State), Live s ∧ s.dev.pwr.start = .precharge ∧ s.dev.preInTime = false ∧ s.dev.timeUp (s.dev.pwr.preCmdTime + msCycles s.dev.cfg.fbTime) = none) ∧
    (∃ (s : State), Live s ∧ s.dev.pwr.start = .precharge ∧ s.dev.preInTime = true) ∧
    (∃ (s : State) (d : Dev), Live s ∧ s.dev.pwr.start = .closing ∧ s.dev.pwr.preCmd = true ∧ s.dev.pwr.mainFb = false ∧ s.dev.timeUp (s.dev.pwr.mainCmdTime + msCycles s.dev.cfg.fbTime) = some d) ∧
    (∃ (s : State) (d : Dev), Live s ∧ s.dev.pwr.start = .closing ∧ s.dev.pwr.preCmd = false ∧ s.dev.pwr.preFb = true ∧ s.dev.timeUp (s.dev.pwr.preCmdTime + msCycles s.dev.cfg.fbTime) = some d) ∧
    (∃ (s : State) (d : Dev), Live s ∧ s.dev.pwr.start = .precharge ∧ s.dev.timeUp (s.dev.stateEnd s.dev.cfg.preTimeout) = some d) ∧
    (∃ (s : State) (d : Dev), Live s ∧ s.dev.pwr.start = .sync ∧ s.dev.timeUp (s.dev.stateEnd s.dev.cfg.syncTimeout) = some d) ∧
    (∃ (s : State) (t : Nat) (d : Dev), Live s ∧ s.dev.pwr.start.live = true ∧ s.dev.disagreeEnd s.dev.pwr.preCmdTime s.dev.pwr.preDiff = some t ∧ s.dev.disagreeEnd s.dev.pwr.mainCmdTime s.dev.pwr.mainDiff = none ∧ s.dev.timeUp t = some d) ∧
    (∃ (s : State) (t : Nat) (d : Dev), Live s ∧ s.dev.pwr.start.live = true ∧ s.dev.disagreeEnd s.dev.pwr.preCmdTime s.dev.pwr.preDiff = none ∧ s.dev.disagreeEnd s.dev.pwr.mainCmdTime s.dev.pwr.mainDiff = some t ∧ s.dev.timeUp t = some d) ∧
    (∃ (s : State), Live s ∧ s.dev.pwr.preDiff = none ∧ s.dev.pwr.mainDiff = none) :=
  ⟨⟨st ({ dev0 with now := 10 ^ 13, pwr := { dev0.pwr with start := .precharge } }), _, by decide, by decide, by decide, rfl⟩,
   ⟨st ({ dev0 with pwr := { dev0.pwr with start := .precharge } }), by decide, by decide, by decide, by decide⟩,
   ⟨st ({ dev0 with now := 10 ^ 13, pwr := { dev0.pwr with start := .precharge, preRose := some 5 } }), by decide, by decide, by decide⟩,
   ⟨st ({ dev0 with now := 10 ^ 13, pwr := { dev0.pwr with start := .closing, preCmd := true } }), _, by decide, by decide, by decide, by decide, rfl⟩,
   ⟨st ({ dev0 with now := 10 ^ 13, pwr := { dev0.pwr with start := .closing, gpio := 2 } }), _, by decide, by decide, by decide, by decide, rfl⟩,
   ⟨st ({ dev0 with now := 10 ^ 13, pwr := { dev0.pwr with start := .precharge } }), _, by decide, by decide, rfl⟩,
   ⟨st ({ dev0 with now := 10 ^ 13, pwr := { dev0.pwr with start := .sync } }), _, by decide, by decide, rfl⟩,
   ⟨st ({ dev0 with now := 10 ^ 13, pwr := { dev0.pwr with start := .run, preDiff := some 0 } }), 312500000, _, by decide, by decide, by decide, by decide, rfl⟩,
   ⟨st ({ dev0 with now := 10 ^ 13, pwr := { dev0.pwr with start := .run, mainDiff := some 0 } }), 312500000, _, by decide, by decide, by decide, by decide, rfl⟩,
   ⟨st dev0, by decide, by decide, by decide⟩⟩

theorem test_witness_intake_spin_and_alloc_run :
    (∃ (s : State) (i : Fin 4096) (e : Entry) (t0 : Nat) (a d : Dev) (ks : List Nat) (x y : Dev), Live s ∧ s.dev.entryAt clsIntake i.val = some (e, t0) ∧ a = s.dev.advance (t0 - s.dev.cyc) ∧ d = ({ a with tk := { a.tk with nextEntry := i.val + 1, entryEnd := t0 + e.budget } } : Dev) ∧ ks = (List.range e.count).map (16 * e.unit + ·) ∧ x = d.intake e ∧ y = forEach ks (fun k x => (x.digest k).seeFloor k)
        { x with isl := { x.isl with updated := x.isl.updated || ks.any (fun k => (x.strandOf k).fresh) } }) ∧
    (∃ (s : State) (i : Fin 4096) (e : Entry) (t0 : Nat) (a d : Dev) (fault : Option (Fin 2048 × Fin 32)), Live s ∧ s.dev.entryAt clsSpin i.val = some (e, t0) ∧ a = s.dev.advance (t0 - s.dev.cyc) ∧ d = ({ a with tk := { a.tk with nextEntry := i.val + 1, entryEnd := t0 + e.budget } } : Dev)) ∧
    (∃ (s : State) (i : Fin 4096) (e : Entry) (t0 : Nat) (a d : Dev), Live s ∧ s.dev.entryAt clsAlloc i.val = some (e, t0) ∧ a = s.dev.advance (t0 - s.dev.cyc) ∧ d = ({ a with tk := { a.tk with nextEntry := i.val + 1, entryEnd := t0 + e.budget } } : Dev)) :=
  ⟨⟨st (devRun (entryFor 1)), 0, entryFor 1, 0, _, _, _, _, _, by decide, by decide, rfl, rfl, rfl, rfl, rfl⟩,
   ⟨st (devRun (entryFor 2)), 0, entryFor 2, 0, _, _, none, by decide, by decide, rfl, rfl⟩,
   ⟨st (devRun (entryFor 3)), 0, entryFor 3, 0, _, _, by decide, by decide, rfl, rfl⟩⟩

theorem test_witness_meter_deliver_and_overrun_run :
    (∃ (s : State) (i : Fin 4096) (e : Entry) (t0 : Nat) (a d : Dev), Live s ∧ s.dev.entryAt clsMeter i.val = some (e, t0) ∧ a = s.dev.advance (t0 - s.dev.cyc) ∧ d = ({ a with tk := { a.tk with nextEntry := i.val + 1, entryEnd := t0 + e.budget } } : Dev)) ∧
    (∃ (s : State) (i : Fin 4096) (e : Entry) (t0 : Nat) (a d : Dev), Live s ∧ s.dev.entryAt clsDeliver i.val = some (e, t0) ∧ a = s.dev.advance (t0 - s.dev.cyc) ∧ d = ({ a with tk := { a.tk with nextEntry := i.val + 1, entryEnd := t0 + e.budget } } : Dev)) ∧
    (∃ (s : State) (i : Fin 4096), Live s ∧ s.dev.tk.seqRun = true ∧ s.dev.tk.noBank = false ∧ s.dev.tk.abandoned = none ∧ i.val < s.dev.running?.entries.length) :=
  ⟨⟨st (devRun (entryFor 4)), 0, entryFor 4, 0, _, _, by decide, by decide, rfl, rfl⟩,
   ⟨st (devRun (entryFor 5)), 0, entryFor 5, 0, _, _, by decide, by decide, rfl, rfl⟩,
   ⟨st (devRun (entryFor 1)), 0, by decide, by decide, by decide, by decide, by decide⟩⟩

theorem test_witness_block_entries_move_bytes :
    (∃ (s : State) (i : Fin 4096) (e : Entry) (t0 : Nat) (a d : Dev), Live s ∧ s.dev.entryAt clsCopy i.val = some (e, t0) ∧ a = s.dev.advance (t0 - s.dev.cyc) ∧ d = ({ a with tk := { a.tk with nextEntry := i.val + 1, entryEnd := t0 + e.budget } } : Dev)) ∧
    (∃ (s : State) (i : Fin 4096) (e : Entry) (t0 : Nat) (a d : Dev), Live s ∧ s.dev.entryAt clsXdie i.val = some (e, t0) ∧ a = s.dev.advance (t0 - s.dev.cyc) ∧ d = ({ a with tk := { a.tk with nextEntry := i.val + 1, entryEnd := t0 + e.budget } } : Dev)) ∧
    (∃ (s : State) (i : Fin 4096) (e : Entry) (t0 : Nat) (a d : Dev), Live s ∧ s.dev.entryAt clsCapture i.val = some (e, t0) ∧ a = s.dev.advance (t0 - s.dev.cyc) ∧ d = ({ a with tk := { a.tk with nextEntry := i.val + 1, entryEnd := t0 + e.budget } } : Dev) ∧ d.capturing = true) ∧
    (∃ (s : State) (i : Fin 4096) (e : Entry) (t0 : Nat) (a d : Dev), Live s ∧ s.dev.entryAt clsCapture i.val = some (e, t0) ∧ a = s.dev.advance (t0 - s.dev.cyc) ∧ d = ({ a with tk := { a.tk with nextEntry := i.val + 1, entryEnd := t0 + e.budget } } : Dev) ∧ d.capturing = false) ∧
    (∃ (s : State) (i : Fin 4096) (e : Entry) (t0 : Nat) (a d : Dev) (us : List PlyUnit), Live s ∧ s.dev.entryAt clsMirror i.val = some (e, t0) ∧ a = s.dev.advance (t0 - s.dev.cyc) ∧ d = ({ a with tk := { a.tk with nextEntry := i.val + 1, entryEnd := t0 + e.budget } } : Dev) ∧ d.isMember = true ∧ d.ply.pstate = .active ∧ us = (List.range e.count).map (fun j => PlyUnit.table (BitVec.ofNat 23 (e.src + 64 * j)) (d.block e j)
        (BitVec.ofNat 16 (tableUcrc (e.src + 64 * j) d.tk.tick (d.block e j))))) ∧
    (∃ (s : State) (i : Fin 4096) (e : Entry) (t0 : Nat) (a d : Dev), Live s ∧ s.dev.entryAt clsMirror i.val = some (e, t0) ∧ a = s.dev.advance (t0 - s.dev.cyc) ∧ d = ({ a with tk := { a.tk with nextEntry := i.val + 1, entryEnd := t0 + e.budget } } : Dev) ∧ ((d.isMember = false ∨ d.ply.pstate ≠ .active))) :=
  ⟨⟨st (devRun (entryFor 6)), 0, entryFor 6, 0, _, _, by decide, by decide, rfl, rfl⟩,
   ⟨st (devRun (entryFor 7)), 0, entryFor 7, 0, _, _, by decide, by decide, rfl, rfl⟩,
   ⟨st ({ devRun (entryFor 8) with test := { dev0.test with capLeft := some 1 } }), 0, entryFor 8, 0, _, _, by decide, by decide, rfl, rfl, by decide⟩,
   ⟨st ({ devRun (entryFor 8) with test := { dev0.test with capLeft := some 0 } }), 0, entryFor 8, 0, _, _, by decide, by decide, rfl, rfl, by decide⟩,
   ⟨st ({ devRun (entryFor 9) with ply := { dev0.ply with role := .memberA, pstate := .active } }), 0, entryFor 9, 0, _, _, _, by decide, by decide, rfl, rfl, by decide, by decide, rfl⟩,
   ⟨st (devRun (entryFor 9)), 0, entryFor 9, 0, _, _, by decide, by decide, rfl, rfl, by decide⟩⟩

theorem test_witness_pll_states_move :
    (∃ (s : State) (p : PllId), Live s ∧ (s.dev.pll p).state = .acquire ∧ (p = .b ∨ s.dev.host.bootStage ≠ 0)) ∧
    (∃ (s : State) (d : Dev), Live s ∧ s.dev.clk.pllA.state = .acquire ∧ s.dev.host.bootStage = 0 ∧ d = (s.dev.firstLock .a).modPll .a Pll.toLocked) ∧
    (∃ (s : State) (p : PllId), Live s ∧ (s.dev.pll p).state = .locked ∧ (s.dev.pll p).refOk = true) ∧
    (∃ (s : State) (p : PllId), Live s ∧ (s.dev.pll p).state = .acquire ∧ (s.dev.pll p).everLocked = true) ∧
    (∃ (s : State) (p : PllId), Live s ∧ ((s.dev.pll p).state = .acquire ∨ (s.dev.pll p).state = .ret)) ∧
    (∃ (s : State) (d : Dev), d = { s.dev with clk := { s.dev.clk with pllA := s.dev.clk.pllA.toHoldover s.dev.now s.dev.cfg.refHz s.dev.fresh, pllB := s.dev.clk.pllB.toHoldover s.dev.now s.dev.cfg.refHz (s.dev.fresh + 1) }, fresh := s.dev.fresh + 2 }) ∧
    (∃ (s : State) (errA errB : Int) (hz : Nat) (c : Dev), Live s ∧ hz = s.dev.cfg.refHz ∧ c = ({ s.dev with clk := { s.dev.clk with pllA := s.dev.clk.pllA.refBack hz errA, pllB := s.dev.clk.pllB.refBack hz errB } } : Dev) ∧ s.dev.clk.pllA.buildsOut hz errA = false ∧ s.dev.clk.pllB.buildsOut hz errB = false) ∧
    (∃ (s : State) (errA errB : Int) (hz : Nat) (c : Dev), Live s ∧ hz = s.dev.cfg.refHz ∧ c = ({ s.dev with clk := { s.dev.clk with pllA := s.dev.clk.pllA.refBack hz errA, pllB := s.dev.clk.pllB.refBack hz errB } } : Dev) ∧ s.dev.clk.pllA.buildsOut hz errA = true ∧ s.dev.clk.pllB.buildsOut hz errB = false) ∧
    (∃ (s : State) (errA errB : Int) (hz : Nat) (c : Dev), Live s ∧ hz = s.dev.cfg.refHz ∧ c = ({ s.dev with clk := { s.dev.clk with pllA := s.dev.clk.pllA.refBack hz errA, pllB := s.dev.clk.pllB.refBack hz errB } } : Dev) ∧ s.dev.clk.pllA.buildsOut hz errA = false ∧ s.dev.clk.pllB.buildsOut hz errB = true) ∧
    (∃ (s : State) (p : PllId), Live s ∧ (s.dev.pll p).state = .ret ∧ (s.dev.pll p).slewN = 0 ∧ (s.dev.pll p).slewErr.natAbs < s.dev.slewUnit) ∧
    (∃ (s : State) (p : PllId), Live s ∧ ((s.dev.pll p).slewN ≠ 0 ∨ s.dev.slewUnit ≤ (s.dev.pll p).slewErr.natAbs)) :=
  ⟨⟨st ({ dev0 with clk := { dev0.clk with pllA := { state := .acquire } } }), .a, by decide, by decide, by decide⟩,
   ⟨st ({ dev0 with clk := { dev0.clk with pllA := { state := .acquire } }, host := { dev0.host with bootStage := 0 } }), _, by decide, by decide, by decide, rfl⟩,
   ⟨st ({ dev0 with clk := { dev0.clk with pllA := { state := .locked, refOk := true } } }), .a, by decide, by decide, by decide⟩,
   ⟨st ({ dev0 with clk := { dev0.clk with pllA := { state := .acquire, everLocked := true } } }), .a, by decide, by decide, by decide⟩,
   ⟨st ({ dev0 with clk := { dev0.clk with pllA := { state := .acquire } } }), .a, by decide, by decide⟩,
   ⟨st dev0, _, rfl⟩,
   ⟨st dev0, 0, 0, _, _, by decide, rfl, rfl, by decide, by decide⟩,
   ⟨st ({ dev0 with clk := { dev0.clk with pllA := { state := .holdover } } }), 10 ^ 12, 0, _, _, by decide, rfl, rfl, by decide, by decide⟩,
   ⟨st ({ dev0 with clk := { dev0.clk with pllB := { state := .holdover } } }), 0, 10 ^ 12, _, _, by decide, rfl, rfl, by decide, by decide⟩,
   ⟨st ({ dev0 with clk := { dev0.clk with pllA := { state := .ret } } }), .a, by decide, by decide, by decide, by decide⟩,
   ⟨st ({ dev0 with clk := { dev0.clk with pllA := { state := .ret, slewN := 1 } } }), .a, by decide, by decide⟩⟩

theorem test_witness_tick_sync_and_time_bases :
    (∃ (s : State) (fine : Fin 64) (x : Int), Live s ∧ s.dev.tk.alignSrc = 3 ∧ s.dev.tk.seqRun = true ∧ x = centred ((64 * s.dev.cyc + fine.val : Nat) - (64 * s.dev.tk.syncDelay : Nat)) (64 * s.dev.tickCycles) ∧ ((s.dev.tk.alignEver = false ∨ x.natAbs ≤ 80000))) ∧
    (∃ (s : State) (fine : Fin 64), Live s ∧ s.dev.tk.alignSrc = 3 ∧ s.dev.tk.seqRun = true ∧ s.dev.tk.alignEver = true ∧ 80000 < (centred ((64 * s.dev.cyc + fine.val : Nat) - (64 * s.dev.tk.syncDelay : Nat)) (64 * s.dev.tickCycles)).natAbs) ∧
    (∃ (s : State) (fine : Fin 64), Live s ∧ s.dev.tk.alignSrc = 3 ∧ s.dev.tk.seqRun = false ∧ s.dev.tk.starting.isSome = true ∧ s.dev.tk.firstPulse = none ∧ s.dev.tk.startAt + startWait ≤ s.dev.now) ∧
    (∃ (s : State) (n : Fin 2), Live s ∧ (s.dev.baseOf n.val).state = .holdover ∧ (s.dev.baseOf n.val).holdLimit ≠ 0 ∧ (s.dev.baseOf n.val).holdLimit < (s.dev.baseOf n.val).holdCount / 1250000000) ∧
    (∃ (s : State) (m : Master) (n : Fin 4) (b : ReadBytes), MayRead m s) ∧
    (∃ (s : State) (m : Master) (v : Word), MayWrite m 4 s) :=
  ⟨⟨st ({ dev0 with tk := { dev0.tk with seqRun := true, alignSrc := 3 } }), 0, _, by decide, by decide, by decide, rfl, by decide⟩,
   ⟨st ({ dev0 with now := 6000, tk := { dev0.tk with seqRun := true, alignSrc := 3, alignEver := true } }), 0, by decide, by decide, by decide, by decide, by decide⟩,
   ⟨st ({ dev0 with now := 1250000, tk := { dev0.tk with alignSrc := 3, starting := some 0 } }), 0, by decide, by decide, by decide, by decide, by decide, by decide⟩,
   ⟨st ({ dev0 with clk := { dev0.clk with tb0 := { state := .holdover, holdLimit := 1, holdCount := 2500000000 } } }), 0, by decide, by decide, by decide, by decide⟩,
   ⟨st dev0, .mgmt, 0, rb, by decide⟩,
   ⟨st dev0, .mgmt, 0, by decide⟩⟩

theorem test_witness_time_base_corrections_land :
    (∃ (s : State) (r : Req) (n : Nat), Served 0x0710 false r s ∧ tbTarget r = some n ∧ (arg r 5).toNat < 1000000000 ∧ s.dev.aligned n = false) ∧
    (∃ (s : State) (r : Req) (n : Nat), Served 0x0710 false r s ∧ tbTarget r = some n ∧ (stepOffset r).natAbs ≤ tbCount (2 ^ 31) 0 ∧ (arg r 5).toNat < 1000000000 ∧ s.dev.aligned n = false) ∧
    (∃ (s : State) (r : Req) (n : Nat), Served 0x0710 false r s ∧ tbTarget r = some n ∧ (arg r 5).toNat < 1000000000 ∧ s.dev.aligned n = true) ∧
    (∃ (s : State) (r : Req) (n : Nat), Served 0x0710 false r s ∧ tbTarget r = some n ∧ (stepOffset r).natAbs ≤ tbCount (2 ^ 31) 0 ∧ (arg r 5).toNat < 1000000000 ∧ s.dev.aligned n = true) ∧
    (∃ (s : State) (r : Req) (n : Nat), Served 0x0710 false r s ∧ tbTarget r = some n ∧ s.dev.aligned n = true ∧ 10240000 < (sval (arg r 3)).natAbs) ∧
    (∃ (s : State) (r : Req) (n : Nat), Served 0x0710 false r s ∧ tbTarget r = some n ∧ ((s.dev.baseOf n).slewLeft + s.dev.slewWaiting n + sval (arg r 3)).natAbs ≤ 8388000 * 256) ∧
    (∃ (s : State) (r : Req) (n : Nat), Served 0x0710 false r s ∧ tbTarget r = some n ∧ (sval (arg r 3)).natAbs ≤ (if s.dev.aligned n then 10240000 else 256000000)) ∧
    (∃ (s : State) (r : Req) (n : Nat), Served 0x0710 false r s ∧ tbTarget r = some n ∧ bits (arg r 3) 1 0 ≠ 3 ∧ ((bits (arg r 3) 1 0 = 0 ∨ (s.dev.baseOf n).valid = true))) ∧
    (∃ (s : State) (r : Req) (n : Nat), Served 0x0710 false r s ∧ tbTarget r = some n ∧ (arg r 3).toNat ≤ 86400) ∧
    (∃ (s : State) (r : Req), Served 0x0711 false r s) :=
  ⟨⟨st dev0, rq [0, 5, 0, 0], 0, by decide, by decide, by decide, by decide⟩,
   ⟨st dev0, rq [0, 5, 0, 0], 0, by decide, by decide, by decide +kernel, by decide, by decide⟩,
   ⟨st devAligned, rq [0, 5, 0, 0], 0, by decide, by decide, by decide, by decide⟩,
   ⟨st devAligned, rq [0, 5, 0, 0], 0, by decide, by decide, by decide +kernel, by decide, by decide⟩,
   ⟨st devAligned, rq [0, 10240001], 0, by decide, by decide, by decide, by decide⟩,
   ⟨st dev0, rq [0, 100], 0, by decide, by decide, by decide⟩,
   ⟨st dev0, rq [0, 100], 0, by decide, by decide, by decide⟩,
   ⟨st dev0, rq [0, 0], 0, by decide, by decide, by decide, by decide⟩,
   ⟨st dev0, rq [0, 86400], 0, by decide, by decide, by decide⟩,
   ⟨st dev0, rq [], by decide⟩⟩

theorem test_witness_safety_set_commands :
    (∃ (s : State) (r : Req) (p : List Word), Served 0x0601 false r s ∧ arg r 2 = 0 ∧ imgArgs r (some (4 * setWords)) = none ∧ s.dev.isl.outputs = 0 ∧ crc32 (wordsBytes (s.dev.image r)) = arg r 5 ∧ (∀ i < setWords, setWordBad (s.dev.image r) i = false) ∧ p = s.dev.image r) ∧
    (∃ (s : State) (r : Req) (p : List Word), Served 0x0602 false r s ∧ s.dev.isl.pending = some p ∧ arg r 2 = s.dev.isl.pendingCrc) ∧
    (∃ (s : State) (r : Req) (d : Dev), Served 0x0603 false r s ∧ d = s.dev.modZone (bits (arg r 2) 2 0) (fun z => { z with reqNext := some (bit (arg r 3) 0) })) ∧
    (∃ (s : State) (r : Req) (z : Nat) (d : Dev), Served 0x0604 false r s ∧ z = bits (arg r 2) 2 0 ∧ s.dev.isl.mayReset z = true ∧ (((s.dev.isl.zone z).locked = true ∨ (s.dev.isl.zone z).uvHold = true)) ∧ resetEn s.dev.isl.params z = true ∧ d = s.dev.modZone z (fun x => { x with armed := true, armedCyc := 0 })) ∧
    (∃ (s : State) (r : Req) (f : RecForm), Served 0x0605 true r s ∧ bits (arg r 2) 31 16 = 8 ∧ recForm r 9 1 = some f) ∧
    (∃ (s : State) (r : Req) (f : RecForm), Served 0x0605 true r s ∧ bits (arg r 2) 31 16 ≠ 8 ∧ recForm r 8 2 = some f) ∧
    (∃ (s : State), 120000 ≤ s.dev.isl.pendingCyc) ∧
    (∃ (s : State) (z : Fin 8), 10000 ≤ (s.dev.isl.zone z.val).armedCyc) :=
  ⟨⟨st (imgDev setImg), rq [0, 0x1000000, 684, crc32 (wordsBytes setImg)], setImg, by decide, by decide, by decide, by decide, set_crc _ _ (image_of setImg 0 684 _ (by decide +kernel)) rfl, set_good _ (image_of setImg 0 684 _ (by decide +kernel)), (image_of setImg 0 684 _ (by decide +kernel)).symm⟩,
   ⟨st ({ dev0 with isl := { dev0.isl with pending := some [], pendingCrc := 9 } }), rq [9], _, by decide, rfl, by decide⟩,
   ⟨st dev0, rq [1, 1], _, by decide, rfl⟩,
   ⟨st ({ dev0 with isl := { dev0.isl with state := .run, params := [] ++ List.replicate 131 0 ++ [0x80] }, flt := { dev0.flt with fe := none } }), rq [0], _, _, by decide, rfl, by decide, by decide, by decide, rfl⟩,
   ⟨st dev0, rr [0x00080001], _, by decide, by decide, rfl⟩,
   ⟨st dev0, rr [0x00000002], _, by decide, by decide, rfl⟩,
   ⟨st ({ dev0 with isl := { dev0.isl with pendingCyc := 120000 } }), by decide⟩,
   ⟨st ({ dev0 with isl := { dev0.isl with zones := [(0, { armedCyc := 10000 })] } }), 0, by decide⟩⟩

theorem test_witness_island_cycles_and_tests :
    (∃ (s : State) (i : IslandIn), ((s.dev.isl.state = .run ∨ s.dev.isl.state = .noParams ∧ s.dev.isl.accepted.isSome = true)) ∧ cycleStops i = false) ∧
    (∃ (s : State) (i : IslandIn), ((s.dev.isl.state = .run ∨ s.dev.isl.state = .noParams)) ∧ cycleStops i = true) ∧
    (∃ (s : State) (i : IslandIn), ((s.dev.isl.state = .safeStop ∨ s.dev.isl.state = .noParams ∧ s.dev.isl.accepted = none ∧ cycleStops i = false))) ∧
    (∃ (s : State) (q : Dev × List (Nat × Word)), s.dev.isl.state = .run ∧ s.dev.isl.solo = true ∧ soloMax s.dev.isl.params ≤ s.dev.isl.soloCyc ∧ q = s.dev.lockZones (fun _ => [0xA])) ∧
    (∃ (s : State) (tp : Fin 4) (a b : List PulseSeen) (bad : Nat) (t : Tbl PairSt) (q : Dev × List (Nat × Word)), s.dev.isl.state = .run ∧ bad = maskOf 8 (fun i => s.dev.isl.pulseFails tp.val i a b) ∧ t = (List.range 8).foldl (fun t i =>
        if nbit bad i then tblMod {} t i (fun x => { x with tpLeft := 10 })
        else if nbit (fedBy s.dev.isl.params tp.val) i then tblMod {} t i (fun x => { x with tpLeft := x.tpLeft - 1 })
        else t) s.dev.isl.pairs ∧ q = ({ s.dev with isl := { s.dev.isl with pairs := t } } : Dev).lockZones
        (fun z => if zonePairs s.dev.isl.params z &&& bad ≠ 0 then [6] else [])) ∧
    (∃ (s : State) (n : Fin 8) (low : Bool) (q : Dev × List (Nat × Word)), nbit s.dev.isl.outputs n.val = true ∧ q = s.dev.lockZones (fun z => if nbit (zoneOuts s.dev.isl.params z) n.val then [7] else [])) ∧
    (∃ (s : State), s.dev.isl.state = .boot) ∧
    (∃ (s : State), s.dev.isl.state = .boot) :=
  ⟨⟨st ({ dev0 with isl := { dev0.isl with state := .run } }), {}, by decide, by decide⟩,
   ⟨st ({ dev0 with isl := { dev0.isl with state := .run } }), { memOk := false }, by decide, by decide⟩,
   ⟨st ({ dev0 with isl := { dev0.isl with state := .safeStop } }), {}, by decide⟩,
   ⟨st ({ dev0 with isl := { dev0.isl with state := .run, solo := true } }), _, by decide, by decide, by decide, rfl⟩,
   ⟨st ({ dev0 with isl := { dev0.isl with state := .run } }), 0, [], [], _, _, _, by decide, rfl, rfl, rfl⟩,
   ⟨st ({ dev0 with isl := { dev0.isl with outputs := 1 } }), 0, true, _, by decide, rfl⟩,
   ⟨st dev0, by decide⟩,
   ⟨st dev0, by decide⟩⟩

theorem test_witness_meter_commands_served :
    (∃ (s : State) (r : Req), Served 0x0501 false r s ∧ meterParamBad (bits (arg r 2) 15 8) (bits (arg r 2) 7 0) (arg r 3) = none) ∧
    (∃ (s : State) (r : Req), Served 0x0502 false r s ∧ 1 ≤ bits (arg r 3) 6 0 ∧ bits (arg r 3) 6 0 ≤ 100 ∧ 1 ≤ (arg r 4).toNat ∧ (arg r 4).toNat ≤ 3600 ∧ 1 ≤ (arg r 5).toNat ∧ (arg r 5).toNat ≤ 1000) ∧
    (∃ (s : State) (r : Req), Served 0x0503 false r s ∧ bits (arg r 3) 23 16 ≤ 135 ∧ bits (arg r 3) 7 0 ≠ 0 ∧ arg r 4 ≠ 0) ∧
    (∃ (s : State) (r : Req), Served 0x0504 false r s) ∧
    (∃ (s : State) (m : Master) (v : Word), MayWrite m 2 s) :=
  ⟨⟨st dev0, rq [0, 0x7FFFFFFF], by decide, by decide⟩,
   ⟨st dev0, rq [0, 100, 3600, 1000], by decide, by decide, by decide, by decide, by decide, by decide, by decide⟩,
   ⟨st dev0, rq [0, 0x00870001, 1], by decide, by decide, by decide, by decide⟩,
   ⟨st dev0, rq [], by decide⟩,
   ⟨st dev0, .mgmt, 0, by decide⟩⟩

theorem test_witness_pulses_and_meter_images :
    (∃ (s : State) (i : Fin 16) (a d : Dev), Live s ∧ (s.dev.inOf i.val).en = true ∧ (s.dev.inOf i.val).level = false ∧ a = s.dev.modIn i.val (fun p => { p with level := true, activeAt := s.dev.now }) ∧ (s.dev.inOf i.val).stuckRaw = false ∧ d = a.modIn i.val (fun p => { p with window := p.window + 1 })) ∧
    (∃ (s : State) (i : Fin 16), Live s ∧ (s.dev.inOf i.val).level = false ∧ (((s.dev.inOf i.val).stuckRaw = true ∨ (s.dev.inOf i.val).en = false))) ∧
    (∃ (s : State) (i : Fin 16), Live s ∧ (s.dev.inOf i.val).level = true) ∧
    (∃ (s : State) (i : Fin 16) (d : Dev), Live s ∧ (s.dev.inOf i.val).en = true ∧ (s.dev.inOf i.val).level = true ∧ (s.dev.inOf i.val).stuckRaw = false ∧ s.dev.timeUp ((s.dev.inOf i.val).activeAt + 1250000000 * (s.dev.inOf i.val).stuckLim) = some d) ∧
    (∃ (s : State) (i : Fin 16), Live s ∧ s.dev.timeUp ((s.dev.inOf i.val).activeAt + 1250000000 * (s.dev.inOf i.val).stuckLim) = none) ∧
    (∃ (s : State) (fast : List Nat) (d e g : Dev) (w : Nat), Live s ∧ fast = (List.range 16).filter (fun i => decide ((s.dev.inOf i).maxRate < (s.dev.inOf i).window)) ∧ d = forEach fast (fun i x => (x.modIn i (fun p => { p with overRate := true })).gain (120 + i)
        (s.dev.corrected (120 + i) (s.dev.inOf i).window false)) s.dev ∧ e = forEach (d.meter.pulseIn.map (·.1)) (fun i x =>
        x.modIn i (fun p => { p with rateLast := min 65535 p.window, window := 0 })) d ∧ g = ({ e with fresh := e.fresh + 140 } : Dev) ∧ s.dev.tk.seqRun = true ∧ s.dev.meter.windowTick = some w ∧ w + s.dev.windowTicks = s.dev.tk.tick ∧ s.dev.tk.tick % s.dev.windowTicks = 0 ∧ 0 < s.dev.windowTicks) ∧
    (∃ (s : State), Live s ∧ s.dev.tk.seqRun = true ∧ s.dev.meter.windowTick = none ∧ s.dev.tk.tick % s.dev.windowTicks = 0) ∧
    (∃ (s : State), Live s ∧ s.dev.tk.seqRun = true ∧ s.dev.tk.tick % s.dev.windowTicks ≠ 0) ∧
    (∃ (s : State) (j : Fin 8), Live s ∧ s.dev.drivesPulses = true ∧ (s.dev.outOf j.val).en = true ∧ (s.dev.outOf j.val).phase = 0 ∧ (s.dev.outOf j.val).backlog ≠ 0) ∧
    (∃ (s : State) (j : Fin 8) (d : Dev), Live s ∧ (s.dev.outOf j.val).phase ≠ 0 ∧ s.dev.timeUp ((s.dev.outOf j.val).phaseAt + 1250000 * (s.dev.outOf j.val).width) = some d) ∧
    (∃ (s : State) (j : Fin 8), Live s ∧ (s.dev.outOf j.val).phase ≠ 0 ∧ s.dev.timeUp ((s.dev.outOf j.val).phaseAt + 1250000 * (s.dev.outOf j.val).width) = none) ∧
    (∃ (s : State), Live s ∧ s.dev.tk.seqRun = true ∧ s.dev.tk.tick % s.dev.saveTicks = 0 ∧ s.dev.meter.imageTick ≠ some s.dev.tk.tick) ∧
    (∃ (s : State) (i : MeterImage), Live s ∧ s.dev.meter.latched = some i ∧ s.dev.meter.writing = true) ∧
    (∃ (s : State) (i : MeterImage), Live s ∧ s.dev.meter.latched = some i ∧ s.dev.meter.writing = true) :=
  ⟨⟨st ({ dev0 with meter := { dev0.meter with pulseIn := [(0, { en := true })] } }), 0, _, _, by decide, by decide, by decide, rfl, by decide, rfl⟩,
   ⟨st ({ dev0 with meter := { dev0.meter with pulseIn := [(0, { en := true, stuckRaw := true })] } }), 0, by decide, by decide, by decide⟩,
   ⟨st ({ dev0 with meter := { dev0.meter with pulseIn := [(0, { en := true, level := true })] } }), 0, by decide, by decide⟩,
   ⟨st ({ dev0 with meter := { dev0.meter with pulseIn := [(0, { en := true, level := true, stuckLim := 0 })] } }), 0, _, by decide, by decide, by decide, by decide, rfl⟩,
   ⟨st ({ dev0 with meter := { dev0.meter with pulseIn := [(0, { en := true, level := true, stuckLim := 1 })] } }), 0, by decide, rfl⟩,
   ⟨st ({ dev0 with tk := { dev0.tk with seqRun := true, tick := 2 * dev0.windowTicks }, meter := { dev0.meter with windowTick := some dev0.windowTicks } }), _, _, _, _, _, by decide, rfl, rfl, rfl, rfl, by decide, rfl, by decide, by decide, by decide⟩,
   ⟨st ({ dev0 with tk := { dev0.tk with seqRun := true } }), by decide, by decide, by decide, by decide⟩,
   ⟨st ({ dev0 with tk := { dev0.tk with seqRun := true, tick := 1 } }), by decide, by decide, by decide⟩,
   ⟨st ({ dev0 with meter := { dev0.meter with pulseOut := [(0, { en := true, backlog := 1 })] } }), 0, by decide, by decide, by decide, by decide, by decide⟩,
   ⟨st ({ dev0 with meter := { dev0.meter with pulseOut := [(0, { en := true, phase := 1, width := 0 })] } }), 0, _, by decide, by decide, rfl⟩,
   ⟨st ({ dev0 with meter := { dev0.meter with pulseOut := [(0, { en := true, phase := 1, width := 200 })] } }), 0, by decide, by decide, rfl⟩,
   ⟨st ({ dev0 with tk := { dev0.tk with seqRun := true } }), by decide, by decide, by decide, by decide⟩,
   ⟨st ({ dev0 with meter := { dev0.meter with latched := some {}, writing := true } }), _, by decide, rfl, by decide⟩,
   ⟨st ({ dev0 with meter := { dev0.meter with latched := some {}, writing := true } }), _, by decide, rfl, by decide⟩⟩

theorem test_witness_converter_commands :
    (∃ (s : State) (r : Req) (f : RecForm), Served 0x0505 true r s ∧ r.write = false ∧ bits (arg r 2) 31 16 = 8 ∧ recForm r 9 1 = some f) ∧
    (∃ (s : State) (r : Req) (f : RecForm), Served 0x0505 true r s ∧ r.write = false ∧ bits (arg r 2) 31 16 ≠ 8 ∧ recForm r 8 8 = some f) ∧
    (∃ (s : State) (r : Req) (f : RecForm), Served 0x0505 false r s ∧ r.write = true ∧ bits (arg r 2) 31 16 = 8 ∧ recForm r 9 1 = some f) ∧
    (∃ (s : State) (r : Req) (f : RecForm) (d : Dev), Served 0x0505 false r s ∧ r.write = true ∧ bits (arg r 2) 31 16 ≠ 8 ∧ recForm r 8 8 = some f ∧ s.dev.adcBad f.index f = none ∧ d = s.dev.modAdc f.index (fun x => { x with
      refFail := x.refFail && !bit (f.wordOr 4 0) 12, ovrSeen := x.ovrSeen && !bit (f.wordOr 4 0) 11 })) ∧
    (∃ (s : State) (r : Req), Served 0x0506 false r s ∧ s.dev.interleaved (bits (arg r 2) 2 0) = false ∧ LongFree 0x0506 r s.dev) ∧
    (∃ (s : State) (r : Req), Served 0x0506 false r s ∧ s.dev.interleaved (bits (arg r 2) 2 0) = true) ∧
    (∃ (s : State) (r : Req) (full : Bool) (fs c : Nat), Served 0x0507 false r s ∧ full = bit (arg r 2) 31 ∧ fs = rangeMicrovolts (bits (arg r 2) 9 8) ∧ ((full = true →
      50 * fs ≤ 100 * (sval (arg r 3)).natAbs ∧ 100 * (sval (arg r 3)).natAbs ≤ 95 * fs)) ∧ LongFree 0x0507 r s.dev ∧ c = s.dev.calConverter (bits (arg r 2) 4 0) ∧ (s.dev.adcOf c).cal = none) ∧
    (∃ (s : State) (r : Req) (full : Bool) (fs c : Nat), Served 0x0507 false r s ∧ full = bit (arg r 2) 31 ∧ fs = rangeMicrovolts (bits (arg r 2) 9 8) ∧ ((full = true →
      50 * fs ≤ 100 * (sval (arg r 3)).natAbs ∧ 100 * (sval (arg r 3)).natAbs ≤ 95 * fs)) ∧ LongFree 0x0507 r s.dev ∧ c = s.dev.calConverter (bits (arg r 2) 4 0) ∧ (s.dev.adcOf c).cal ≠ none) ∧
    (∃ (s : State) (r : Req) (f : RecForm), Served 0x0508 true r s ∧ recForm r 128 4 = some f) ∧
    (∃ (s : State) (c : Fin 8) (raw : Int) (o d : Dev), Live s ∧ (s.dev.adcOf c.val).busy = true ∧ o = s.dev.openWindow c.val ∧ o.timeUp ((o.adcOf c.val).conv.startAt + (o.adcOf c.val).conv.len) = some d) ∧
    (∃ (s : State) (c : Fin 8) (raw : Int) (o : Dev), Live s ∧ o = s.dev.openWindow c.val ∧ o.timeUp ((o.adcOf c.val).conv.startAt + (o.adcOf c.val).conv.len) = none) ∧
    (∃ (s : State) (pair : Fin 4) (e : Nat) (o d : Dev) (v : AdcConv), Live s ∧ e = 2 * pair.val ∧ s.dev.interleaved e = true ∧ (s.dev.adcOf e).busy = true ∧ (s.dev.adcOf (e + 1)).busy = false ∧ (s.dev.adcOf e).conv.pair = true ∧ o = s.dev.openWindow e ∧ v = (o.adcOf e).conv ∧ o.timeUp (v.startAt + v.len / 2) = some d) :=
  ⟨⟨st dev0, rr [0x00080001], _, by decide, by decide, by decide, rfl⟩,
   ⟨st dev0, rr [0x00000008], _, by decide, by decide, by decide, rfl⟩,
   ⟨st dev0, rq [0x00080001, 5], _, by decide, by decide, by decide, rfl⟩,
   ⟨st dev0, rq [0x00000401, 0x1800], _, _, by decide, by decide, by decide, rfl, by decide, rfl⟩,
   ⟨st dev0, rq [0], by decide, by decide, by decide⟩,
   ⟨st ({ dev0 with adcs := { dev0.adcs with convs := [(0, { cfg := { mode := 1, intlv := true } })] } }), rq [0], by decide, by decide⟩,
   ⟨st ({ dev0 with adcs := { dev0.adcs with convs := [(0, { cfg := { mode := 1, input := 0 } })] } }), rq [0, 0], _, _, 0, by decide, rfl, rfl, by decide, by decide, by decide, by decide⟩,
   ⟨st ({ dev0 with adcs := { dev0.adcs with convs := [(0, { cfg := { mode := 1, input := 0 }, cal := some { full := false, input := 0, range := 0, vApp := 0 } })] } }), rq [0, 0], _, _, 0, by decide, rfl, rfl, by decide, by decide, by decide, by decide⟩,
   ⟨st dev0, rr [0x00000004], _, by decide, rfl⟩,
   ⟨st ({ dev0 with adcs := { dev0.adcs with convs := [(0, { busy := true, conv := { opened := true } })] } }), 0, 0, _, _, by decide, by decide, rfl, rfl⟩,
   ⟨st ({ dev0 with adcs := { dev0.adcs with convs := [(0, { busy := true, conv := { opened := true, len := 1312500 } })] } }), 0, 0, _, by decide, rfl, rfl⟩,
   ⟨st ({ dev0 with adcs := { dev0.adcs with convs := [(0, { busy := true, cfg := { mode := 1, intlv := true }, conv := { pair := true, opened := true } })] } }), 0, _, _, _, _, by decide, rfl, by decide, by decide, by decide, by decide, rfl, rfl, rfl⟩⟩

theorem test_witness_image_loads_stage :
    (∃ (s : State) (r : Req), Served 0x0101 false r s ∧ imgArgs r (some 2448) = none ∧ arg r 2 = 0 ∧ ((s.dev.tk.commit = .idle ∨ nbit s.dev.tk.set 1 = false)) ∧ LongFree 0x0101 r s.dev) ∧
    (∃ (d : Dev) (r : Req) (ws : List Word), ws = d.image r ∧ crc32 (wordsBytes ws) = arg r 5 ∧ d.mapBad ws = none) ∧
    (∃ (s : State) (r : Req), Served 0x0201 false r s ∧ imgArgs r none = none ∧ (arg r 2).toNat ≤ 15 ∧ s.dev.slotTaken (arg r 2).toNat = false ∧ LongFree 0x0201 r s.dev) ∧
    (∃ (d : Dev) (r : Req) (ws : List Word) (n : Nat), ws = d.image r ∧ crc32 (wordsBytes ws) = arg r 5 ∧ (arg r 4).toNat = 784 + 8 * wayArea ws ∧ recipeBad ws = none ∧ d.slotTaken (arg r 2).toNat = false ∧ n = (arg r 2).toNat) ∧
    (∃ (s : State) (r : Req), Served 0x0306 false r s ∧ imgArgs r none = none ∧ arg r 2 = 0 ∧ LongFree 0x0306 r s.dev) ∧
    (∃ (d : Dev) (r : Req) (ws : List Word), ws = d.image r ∧ crc32 (wordsBytes ws) = arg r 5 ∧ (arg r 4).toNat = 4 + 64 * (wat ws 0).toNat ∧ coefImageBad ws = none) :=
  ⟨⟨st dev0, rq [0, 0x1000000, 2448, 0], by decide, by decide, by decide, by decide, by decide⟩,
   ⟨imgDev mapImg, rq [0, 0x1000000, 2448, crc32 (wordsBytes mapImg)], mapImg, (image_of mapImg 0 2448 _ (by decide +kernel)).symm, rfl, by decide +kernel⟩,
   ⟨st dev0, rq [1, 0x1000000, 784, 0], by decide, by decide, by decide, by decide, by decide⟩,
   ⟨dev0, rq [1, 0x1000000, 784, crc32 (wordsBytes (List.replicate 196 0))], List.replicate 196 0, _, by decide +kernel, rfl, by decide +kernel, by decide +kernel, by decide, rfl⟩,
   ⟨st dev0, rq [0, 0x1000000, 4, 0], by decide, by decide, by decide, by decide⟩,
   ⟨dev0, rq [0, 0x1000000, 4, crc32 (wordsBytes [0])], [0], by decide, rfl, by decide, by decide⟩⟩

theorem test_witness_recipe_commands_served :
    (∃ (s : State) (r : Req), Served 0x0202 false r s) ∧
    (∃ (s : State) (r : Req), Served 0x0203 false r s ∧ -86400 ≤ sval (arg r 2) ∧ sval (arg r 2) ≤ 86400) ∧
    (∃ (s : State) (r : Req), Served 0x0204 false r s ∧ ((bits (arg r 3) 17 16 = 1 ∨ bits (arg r 3) 17 16 = 2)) ∧ bits (arg r 3) 15 0 ≤ 0x8000) ∧
    (∃ (s : State) (r : Req), Served 0x0205 false r s ∧ (arg r 2).toNat ≤ 3600) ∧
    (∃ (s : State) (r : Req) (f : RecForm), Served 0x0206 true r s ∧ recForm r 32 4 = some f) ∧
    (∃ (s : State) (r : Req) (f : RecForm), Served 0x0207 true r s ∧ recForm r 32 8 = some f) ∧
    (∃ (s : State), Live s ∧ s.dev.tk.seqRun = true ∧ s.dev.tk.tick % s.dev.stepTicks = 0) ∧
    (∃ (s : State), Live s ∧ s.dev.tk.seqRun = true ∧ s.dev.tk.tick % s.dev.stepTicks = 0) :=
  ⟨⟨st dev0, rq [], by decide⟩,
   ⟨st dev0, rq [86400], by decide, by decide, by decide⟩,
   ⟨st dev0, rq [0, 0x00018000], by decide, by decide, by decide⟩,
   ⟨st dev0, rq [3600], by decide, by decide⟩,
   ⟨st dev0, rr [0x001F0004], _, by decide, rfl⟩,
   ⟨st dev0, rr [0x001F0008], _, by decide, rfl⟩,
   ⟨st ({ dev0 with tk := { dev0.tk with seqRun := true } }), by decide, by decide, by decide⟩,
   ⟨st ({ dev0 with tk := { dev0.tk with seqRun := true } }), by decide, by decide, by decide⟩⟩

theorem test_witness_spindle_commands_served :
    (∃ (s : State) (r : Req) (f : RecForm) (d : Dev), Served 0x0301 false r s ∧ recForm r 2048 14 = some f ∧ s.dev.openPending f.index = false ∧ (s.dev.instOf f.index).isOpen = true ∧ d = s.dev.modInst f.index (fun i => { i with coef := (List.range 14).map (fun k => coefMask k (f.wordOr k (wat (s.dev.instOf f.index).coef k))) })) ∧
    (∃ (s : State) (r : Req) (f : RecForm), Served 0x0302 true r s ∧ recForm r 2048 16 = some f) ∧
    (∃ (s : State) (r : Req) (n : Nat) (d : Dev), Served 0x0303 false r s ∧ n = bits (arg r 2) 10 0 ∧ (s.dev.instOf n).pendingOc = false ∧ d = s.dev.modInst n (fun i => { i with pendingOc := true })) ∧
    (∃ (s : State) (r : Req), Served 0x0304 false r s) ∧
    (∃ (s : State) (r : Req) (d : Dev), Served 0x0305 false r s ∧ d = s.dev.modInst (bits (arg r 2) 10 0) (fun i => { i with
      bump := i.bump && !bit (arg r 3) 22, inverted := i.inverted && !bit (arg r 3) 21
      intClamp := i.intClamp && !bit (arg r 3) 20, outSat := i.outSat && !bit (arg r 3) 19
      accSat := i.accSat && !bit (arg r 3) 18 })) ∧
    (∃ (s : State) (r : Req) (sec first count : Nat) (t : Tbl (Option Word)), Served 0x0307 false r s ∧ sec = bits (arg r 2) 3 0 ∧ first = bits (arg r 2) 11 8 ∧ count = bits (arg r 2) 15 12 ∧ sec ≤ 5 ∧ 1 ≤ count ∧ first + count ≤ 6 ∧ ((first + count = 6 → sval (arg r (8 - first)) ≤ 0x2CCCCCCD)) ∧ t = (List.range count).foldl (fun t i => tblSet none t (8 * sec + first + i) (some (arg r (3 + i)))) s.dev.spin.stagedAlloc) :=
  ⟨⟨st dev0, rq [0x07FF0D01, 5], _, _, by decide, rfl, by decide, by decide, rfl⟩,
   ⟨st dev0, rr [0x07FF0E02], _, by decide, rfl⟩,
   ⟨st dev0, rq [2047], _, _, by decide, rfl, by decide, rfl⟩,
   ⟨st dev0, rq [], by decide⟩,
   ⟨st dev0, rq [], _, by decide, rfl⟩,
   ⟨st dev0, rq [0x6005, 0, 0, 0, 0, 0, 0x2CCCCCCD], _, _, _, _, by decide, rfl, rfl, rfl, by decide, by decide, by decide, by decide, rfl⟩⟩

theorem test_witness_map_and_strand_records :
    (∃ (s : State) (r : Req), Served 0x0102 true r s ∧ bits (arg r 2) 15 0 < 612) ∧
    (∃ (s : State) (r : Req) (f : RecForm), Served 0x0103 true r s ∧ r.write = false ∧ recForm r 6 4 = some f) ∧
    (∃ (s : State) (r : Req) (f : RecForm) (d : Dev), Served 0x0103 false r s ∧ r.write = true ∧ recForm r 6 4 = some f ∧ d = s.dev.modSec f.index (fun x => { x with shareShort := x.shareShort && !bit (f.wordOr 3 0) 4 })) ∧
    (∃ (s : State) (r : Req) (f : RecForm), Served 0x0104 true r s ∧ r.write = false ∧ recForm r s.dev.strandCount 4 = some f) ∧
    (∃ (s : State) (r : Req) (f : RecForm) (d : Dev), Served 0x0104 false r s ∧ r.write = true ∧ recForm r s.dev.strandCount 4 = some f ∧ d = s.dev.modCell f.index (fun x => { x with phiClamp := x.phiClamp && !bit (f.wordOr 3 0) 2 })) ∧
    (∃ (s : State) (r : Req) (f : RecForm), Served 0x0105 true r s ∧ r.write = false ∧ recForm r s.dev.strandCount 8 = some f) ∧
    (∃ (s : State) (r : Req) (f : RecForm) (w : Word) (d : Dev), Served 0x0105 false r s ∧ r.write = true ∧ recForm r s.dev.strandCount 8 = some f ∧ f.wordFor 0 = some w ∧ d = s.dev.modStrand f.index (fun x => { x with late := x.late && !bit w 10 })) ∧
    (∃ (s : State) (r : Req) (f : RecForm), Served 0x0105 false r s ∧ r.write = true ∧ recForm r s.dev.strandCount 8 = some f ∧ f.wordFor 0 = none) :=
  ⟨⟨st dev0, rq [611], by decide, by decide⟩,
   ⟨st dev0, rr [0x00050004], _, by decide, by decide, rfl⟩,
   ⟨st dev0, rq [0x00050301, 0x10], _, _, by decide, by decide, rfl, rfl⟩,
   ⟨st dev0, rr [0x00FF0004], _, by decide, by decide, rfl⟩,
   ⟨st dev0, rq [0x00FF0301, 4], _, _, by decide, by decide, rfl, rfl⟩,
   ⟨st dev0, rr [0x00FF0008], _, by decide, by decide, rfl⟩,
   ⟨st dev0, rq [0x00FF0001, 0x400], _, _, _, by decide, by decide, rfl, rfl, rfl⟩,
   ⟨st dev0, rq [0x00FF0101, 0], _, by decide, by decide, rfl, by decide⟩⟩

theorem test_witness_strand_commands_served :
    (∃ (s : State) (r : Req), Served 0x0106 false r s ∧ bits (arg r 2) 3 0 < s.dev.skeinCount) ∧
    (∃ (s : State) (r : Req) (x : Strand) (u : Uplink), Served 0x0107 false r s ∧ s.dev.badStrand (arg r 2) = false ∧ x = s.dev.strandOf (bits (arg r 2) 7 0) ∧ x.state = .active ∧ 16 ≤ x.freshRun ∧ x.last = some u ∧ wat u.control 23 = 0) ∧
    (∃ (s : State) (r : Req), Served 0x0108 false r s ∧ s.dev.badStrand (arg r 2) = false ∧ ((s.dev.mapped (bits (arg r 2) 7 0) = false ∨ s.dev.parked (bits (arg r 2) 7 0) = true))) ∧
    (∃ (s : State) (r : Req), Served 0x0109 false r s ∧ s.dev.badStrand (arg r 2) = false ∧ (s.dev.strandOf (bits (arg r 2) 7 0)).state = .deep) ∧
    (∃ (s : State) (r : Req) (c : Nat), Served 0x010A false r s ∧ s.dev.badStrand (arg r 2) = false ∧ c = bits (arg r 3) 7 0 ∧ c ≠ 4 ∧ c ≠ 5 ∧ LongFree 0x010A r s.dev) ∧
    (∃ (s : State) (r : Req), Served 0x010B false r s ∧ s.dev.badStrand (arg r 2) = false ∧ areaLo ≤ (arg r 3).toNat ∧ (arg r 3).toNat + (arg r 4).toNat ≤ areaEnd) :=
  ⟨⟨st dev0, rq [15], by decide, by decide⟩,
   ⟨st ({ dev0 with strands := [(0, { state := .active, freshRun := 16, last := some (received upl) })] }), rq [0], _, _, by decide, by decide, rfl, by decide, by decide, rfl, by decide⟩,
   ⟨st dev0, rq [255], by decide, by decide, by decide⟩,
   ⟨st ({ dev0 with strands := [(0, { state := .deep })] }), rq [0], by decide, by decide, by decide⟩,
   ⟨st dev0, rq [255, 3], _, by decide, by decide, rfl, by decide, by decide, by decide⟩,
   ⟨st dev0, rq [0, 0x1000000, 64], by decide, by decide, by decide, by decide⟩⟩

theorem test_witness_strand_states_move :
    (∃ (s : State) (k : Fin 256), Live s ∧ (s.dev.strandOf k.val).state = .detect ∧ (s.dev.skeinOf (k.val / 16)).pllLocked = true) ∧
    (∃ (s : State) (k : Fin 256), Live s ∧ (s.dev.strandOf k.val).state = .detect ∧ (s.dev.skeinOf (k.val / 16)).pllLocked = true ∧ 10 ≤ (s.dev.strandOf k.val).detectTries + 1) ∧
    (∃ (s : State) (k : Fin 256), Live s ∧ (s.dev.strandOf k.val).state = .detect ∧ (s.dev.skeinOf (k.val / 16)).pllLocked = true ∧ (s.dev.strandOf k.val).detectTries + 1 < 10) ∧
    (∃ (s : State) (k : Fin 256), Live s ∧ (s.dev.strandOf k.val).state = .train) ∧
    (∃ (s : State) (k : Fin 256), Live s ∧ (s.dev.strandOf k.val).state = .train) ∧
    (∃ (s : State) (k : Fin 256), Live s ∧ (s.dev.strandOf k.val).state = .lock) ∧
    (∃ (s : State) (k : Fin 256), Live s ∧ (s.dev.strandOf k.val).state = .lock ∧ (s.dev.strandOf k.val).locked = false) ∧
    (∃ (s : State) (k : Fin 256), Live s ∧ (s.dev.strandOf k.val).state = .caps) ∧
    (∃ (s : State) (k : Fin 256), Live s) ∧
    (∃ (s : State) (k : Fin 256), Live s ∧ (s.dev.strandOf k.val).state = .active) ∧
    (∃ (s : State) (k : Fin 256) (f : CapsFrame) (rtt : BitVec 24), Live s ∧ capsGood f = true ∧ (s.dev.strandOf k.val).state = .caps ∧ (s.dev.strandOf k.val).capsDone = false ∧ capsBad f.w0 f.w1 = false) ∧
    (∃ (s : State) (k : Fin 256) (f : CapsFrame) (rtt : BitVec 24), Live s ∧ capsGood f = true ∧ (s.dev.strandOf k.val).state = .caps ∧ (s.dev.strandOf k.val).capsDone = false ∧ capsBad f.w0 f.w1 = true) ∧
    (∃ (s : State) (k : Fin 256) (f : CapsFrame) (rtt : BitVec 24), Live s ∧ capsGood f = true ∧ (s.dev.strandOf k.val).state = .lock) ∧
    (∃ (s : State) (k : Fin 256) (f : CapsFrame) (rtt : BitVec 24), Live s ∧ capsGood f = true ∧ (s.dev.strandOf k.val).state = .active ∧ (s.dev.strandOf k.val).capsKept = true) ∧
    (∃ (s : State) (k : Fin 256) (f : CapsFrame) (rtt : BitVec 24), Live s ∧ capsGood f = true ∧ (s.dev.strandOf k.val).state = .active ∧ (s.dev.strandOf k.val).capsKept = false) ∧
    (∃ (s : State) (k : Fin 256) (f : CapsFrame) (rtt : BitVec 24), Live s ∧ capsGood f = false) :=
  ⟨⟨st ({ dev0 with strands := [(0, { state := .detect })], skeins := [(0, { pllLocked := true })] }), 0, by decide, by decide, by decide⟩,
   ⟨st ({ dev0 with strands := [(0, { state := .detect, detectTries := 9 })], skeins := [(0, { pllLocked := true })] }), 0, by decide, by decide, by decide, by decide⟩,
   ⟨st ({ dev0 with strands := [(0, { state := .detect, detectTries := 8 })], skeins := [(0, { pllLocked := true })] }), 0, by decide, by decide, by decide, by decide⟩,
   ⟨st ({ dev0 with strands := [(0, { state := .train })] }), 0, by decide, by decide⟩,
   ⟨st ({ dev0 with strands := [(0, { state := .train })] }), 0, by decide, by decide⟩,
   ⟨st ({ dev0 with strands := [(0, { state := .lock })] }), 0, by decide, by decide⟩,
   ⟨st ({ dev0 with strands := [(0, { state := .lock })] }), 0, by decide, by decide, by decide⟩,
   ⟨st ({ dev0 with strands := [(0, { state := .caps })] }), 0, by decide, by decide⟩,
   ⟨st dev0, 0, by decide⟩,
   ⟨st ({ dev0 with strands := [(0, { state := .active })] }), 0, by decide, by decide⟩,
   ⟨st ({ dev0 with strands := [(0, { state := .caps })] }), 0, (goodCaps 0x00320000 160000), 0, by decide, caps_good _ _, by decide, by decide, by decide⟩,
   ⟨st ({ dev0 with strands := [(0, { state := .caps })] }), 0, (goodCaps 0 160000), 0, by decide, caps_good _ _, by decide, by decide, by decide⟩,
   ⟨st ({ dev0 with strands := [(0, { state := .lock })] }), 0, (goodCaps 0 160000), 0, by decide, caps_good _ _, by decide⟩,
   ⟨st ({ dev0 with strands := [(0, { state := .active, capsKept := true })] }), 0, (goodCaps 0 160000), 0, by decide, caps_good _ _, by decide, by decide⟩,
   ⟨st ({ dev0 with strands := [(0, { state := .active })] }), 0, (goodCaps 0 160000), 0, by decide, caps_good _ _, by decide, by decide⟩,
   ⟨st dev0, 0, capsFlip, 0, by decide, caps_flip⟩⟩

theorem test_witness_strand_traffic_and_supplies :
    (∃ (s : State) (k : Fin 256) (f : UplinkLine) (e : Dev), Live s ∧ (s.dev.strandOf k.val).state = .active ∧ s.dev.injectUnit (injKey 0 k.val 1) = (none, e) ∧ f.bulk = none) ∧
    (∃ (s : State) (k : Fin 256) (f : UplinkLine) (e : Dev) (h : Word) (w : List Word) (c : Word), Live s ∧ (s.dev.strandOf k.val).state = .active ∧ s.dev.injectUnit (injKey 0 k.val 1) = (none, e) ∧ f.bulk = some (h, w, c)) ∧
    (∃ (s : State) (k : Fin 256) (f : UplinkLine) (e : Dev) (i : Injection), Live s ∧ (s.dev.strandOf k.val).state = .active ∧ s.dev.injectUnit (injKey 0 k.val 1) = (some i, e) ∧ i.action = 1) ∧
    (∃ (s : State) (k : Fin 256) (f : UplinkLine) (e d : Dev) (i : Injection), Live s ∧ (s.dev.strandOf k.val).state = .active ∧ s.dev.injectUnit (injKey 0 k.val 1) = (some i, e) ∧ i.action ≠ 1 ∧ d = (e.modStrand k.val (fun x => x.timed f.rtt)).modStrand k.val
      (fun x => { x with rx := some { received f with crcOk := false } })) ∧
    (∃ (s : State) (k : Fin 256), Live s ∧ (s.dev.strandOf k.val).state = .active ∧ (s.dev.strandOf k.val).restDn = true ∧ bit (s.dev.strandOf k.val).caps0 19 = true ∧ s.dev.strandCut k.val = false ∧ s.dev.markWithin k.val 1250 = false ∧ s.dev.frameWithin k.val 1250 = false ∧ s.dev.bulkPending k.val = false) ∧
    (∃ (s : State) (k : Fin 256), Live s ∧ (s.dev.strandOf k.val).state = .active ∧ (s.dev.strandOf k.val).txRest = true) ∧
    (∃ (s : State) (x : Fin 16), Live s ∧ (s.dev.skeinOf x.val).acquiring = true) ∧
    (∃ (s : State) (x : Fin 16) (d e : Dev) (act : List Nat), Live s ∧ (s.dev.skeinOf x.val).pllLocked = true ∧ d = s.dev.modSkein x.val (fun y => { y with pllLocked := false }) ∧ act = d.activeOf (skeinStrands x.val) ∧ e = (d.dropLinks act).kickPll) ∧
    (∃ (s : State) (dom : StrandSupply), Live s) ∧
    (∃ (s : State) (dom : StrandSupply), Live s) ∧
    (∃ (s : State) (dom : StrandSupply), s.dev.pwr.held = true) ∧
    (∃ (s : State) (dom : StrandSupply), s.dev.pwr.held = true) :=
  ⟨⟨st ({ dev0 with strands := [(0, { state := .active })] }), 0, upl, _, by decide, by decide, rfl, by decide⟩,
   ⟨st ({ dev0 with strands := [(0, { state := .active })] }), 0, { upl with bulk := some (0, [], 0) }, _, _, _, _, by decide, by decide, rfl, rfl⟩,
   ⟨st ({ dev0 with strands := [(0, { state := .active })], test := { dev0.test with injections := [(injKey 0 0 1, { action := 1 })] } }), 0, upl, _, _, by decide, by decide, rfl, by decide⟩,
   ⟨st ({ dev0 with strands := [(0, { state := .active })], test := { dev0.test with injections := [(injKey 0 0 1, { action := 4 })] } }), 0, upl, _, _, _, by decide, by decide, rfl, by decide, rfl⟩,
   ⟨st ({ dev0 with strands := [(0, { state := .active, restDn := true, caps0 := 0x80000 })] }), 0, by decide, by decide, by decide, by decide, by decide, by decide, by decide, by decide⟩,
   ⟨st ({ dev0 with strands := [(0, { state := .active, txRest := true })] }), 0, by decide, by decide, by decide⟩,
   ⟨st ({ dev0 with skeins := [(0, { acquiring := true })] }), 0, by decide, by decide⟩,
   ⟨st ({ dev0 with skeins := [(0, { pllLocked := true })] }), 0, _, _, _, by decide, by decide, rfl, rfl, rfl⟩,
   ⟨st dev0, .vsda, by decide⟩,
   ⟨st dev0, .vsda, by decide⟩,
   ⟨st ({ dev0 with pwr := { dev0.pwr with held := true } }), .vsda, by decide⟩,
   ⟨st ({ dev0 with pwr := { dev0.pwr with held := true } }), .vsda, by decide⟩⟩

/-- A member whose link lane alters blocks: an injection strikes every unit. -/
def devStruck : State :=
  st ({ dev0 with now := 18, ply := { dev0.ply with role := .memberA, link := .up, pstate := .xfer }
                  test := { dev0.test with injections := [(injKey 1 0 1, { action := 1, n := 1, rate := 1 })] } })

theorem test_witness_ply_link_states :
    (∃ (s : State), Live s ∧ s.dev.isMember = true ∧ s.dev.ply.link = .down ∧ s.dev.plyUnderTest = false) ∧
    (∃ (s : State), Live s ∧ s.dev.isMember = true ∧ s.dev.ply.link = .lock) ∧
    (∃ (s : State), Live s ∧ s.dev.isMember = true ∧ s.dev.ply.link ≠ .down) ∧
    (∃ (s : State), Live s ∧ s.dev.isMember = true ∧ (s.dev.ply.link = .lock ∨ s.dev.ply.link = .align)) ∧
    (∃ (s : State) (h : Hello), Live s ∧ s.dev.isMember = true ∧ s.dev.struckUnit = none ∧ h.ucrcOk = true ∧ s.dev.ply.link = .align ∧ s.dev.sameDevice h = true) ∧
    (∃ (s : State) (h : Hello), Live s ∧ s.dev.isMember = true ∧ s.dev.struckUnit = none ∧ h.ucrcOk = true ∧ s.dev.ply.link = .align ∧ s.dev.sameDevice h = false) ∧
    (∃ (s : State) (h : Hello), Live s ∧ s.dev.isMember = true ∧ s.dev.struckUnit = none ∧ h.ucrcOk = true ∧ s.dev.ply.link = .up) ∧
    (∃ (s : State) (h : Hello), Live s ∧ s.dev.isMember = true ∧ s.dev.struckUnit = none ∧ h.ucrcOk = true ∧ s.dev.ply.link = .incompat) ∧
    (∃ (s : State) (h : Hello) (e : Dev), Live s ∧ s.dev.isMember = true ∧ s.dev.ply.link ≠ .down ∧ s.dev.struckUnit = some e) ∧
    (∃ (s : State), Live s ∧ s.dev.isMember = true ∧ s.dev.tk.seqRun = false ∧ (s.dev.ply.link = .align ∨ s.dev.ply.link = .up ∨ s.dev.ply.link = .incompat)) ∧
    (∃ (s : State) (h : Hello), Live s ∧ s.dev.isMember = true ∧ s.dev.struckUnit = none ∧ h.ucrcOk = false ∧ s.dev.ply.link ≠ .down) ∧
    (∃ (s : State), Live s ∧ s.dev.ply.pstate ≠ .xfer) ∧
    (∃ (s : State), Live s ∧ s.dev.ply.pstate = .xfer) :=
  ⟨⟨st ({ dev0 with ply := { dev0.ply with role := .memberA } }), by decide, by decide, by decide, by decide⟩,
   ⟨st ({ dev0 with ply := { dev0.ply with role := .memberA, link := .lock } }), by decide, by decide, by decide⟩,
   ⟨st ({ dev0 with ply := { dev0.ply with role := .memberA, link := .up } }), by decide, by decide, by decide⟩,
   ⟨st ({ dev0 with ply := { dev0.ply with role := .memberA, link := .align } }), by decide, by decide, by decide⟩,
   ⟨st ({ dev0 with ply := { dev0.ply with role := .memberA, link := .align } }), hi, by decide, by decide, by decide, by decide, by decide, by decide⟩,
   ⟨st ({ dev0 with ply := { dev0.ply with role := .memberA, link := .align } }), { hi with part := .t9128 }, by decide, by decide, by decide, by decide, by decide, by decide⟩,
   ⟨st ({ dev0 with ply := { dev0.ply with role := .memberA, link := .up } }), hi, by decide, by decide, by decide, by decide, by decide⟩,
   ⟨st ({ dev0 with ply := { dev0.ply with role := .memberA, link := .incompat } }), hi, by decide, by decide, by decide, by decide, by decide⟩,
   ⟨devStruck, hi, _, by decide, by decide, by decide, rfl⟩,
   ⟨st ({ dev0 with ply := { dev0.ply with role := .memberA, link := .up } }), by decide, by decide, by decide, by decide⟩,
   ⟨st ({ dev0 with ply := { dev0.ply with role := .memberA, link := .up } }), { hi with ucrcOk := false }, by decide, by decide, by decide, by decide, by decide⟩,
   ⟨st dev0, by decide, by decide⟩,
   ⟨st ({ dev0 with ply := { dev0.ply with pstate := .xfer } }), by decide, by decide⟩⟩

theorem test_witness_ply_member_steps :
    (∃ (s : State), Live s ∧ s.dev.isMember = true ∧ (s.dev.ply.pstate = .candidate ∧ s.dev.ply.tickClash = false ∨ s.dev.ply.pstate = .standby) ∧ s.dev.fits = true) ∧
    (∃ (s : State), Live s ∧ s.dev.isMember = true ∧ (s.dev.fits = false ∨ s.dev.ply.pstate = .candidate ∧ s.dev.ply.tickClash = true ∨ s.dev.ply.pstate ≠ .candidate ∧ s.dev.ply.pstate ≠ .standby)) ∧
    (∃ (s : State), Live s ∧ s.dev.isMember = true ∧ (s.dev.ply.pstate = .shadow ∨ s.dev.ply.pstate = .standby)) ∧
    (∃ (s : State), Live s ∧ s.dev.isMember = true ∧ s.dev.ply.pstate ≠ .shadow ∧ s.dev.ply.pstate ≠ .standby) ∧
    (∃ (s : State) (t : Nat), Live s ∧ s.dev.ply.claimDue = some t ∧ t + 1250 ≤ s.dev.now ∧ (s.dev.ply.pstate = .candidate ∨ s.dev.ply.pstate = .standby) ∧ s.dev.becomeActive.ply.pstate = .active) ∧
    (∃ (s : State) (t : Nat), Live s ∧ s.dev.ply.claimDue = some t ∧ t + 1250 ≤ s.dev.now ∧ (s.dev.ply.pstate = .candidate ∨ s.dev.ply.pstate = .standby) ∧ s.dev.becomeActive.ply.pstate ≠ .active) ∧
    (∃ (s : State), Live s ∧ s.dev.ply.yieldDue = true ∧ s.dev.ply.pstate = .active) ∧
    (∃ (s : State) (h : Hello), Live s ∧ s.dev.isMember = true ∧ s.dev.ply.pstate = .candidate ∧ s.dev.ply.link = .up ∧ s.dev.ply.partnerActive = true ∧ s.dev.ply.hello = some h ∧ s.dev.ply.tickClash = false ∧ s.dev.tk.seqRun = true ∧ s.dev.sameTick h = true) ∧
    (∃ (s : State) (h : Hello) (d : Dev), Live s ∧ s.dev.isMember = true ∧ s.dev.ply.pstate = .candidate ∧ s.dev.ply.link = .up ∧ s.dev.ply.partnerActive = true ∧ s.dev.ply.hello = some h ∧ s.dev.ply.tickClash = false ∧ s.dev.tk.seqRun = false ∧ s.dev.tk.starting = none ∧ d = s.dev.adoptTick h ∧ d.alignReady = true) ∧
    (∃ (s : State) (h : Hello), Live s ∧ s.dev.isMember = true ∧ s.dev.ply.pstate = .candidate ∧ s.dev.ply.link = .up ∧ s.dev.ply.partnerActive = true ∧ s.dev.ply.hello = some h ∧ s.dev.ply.tickClash = false ∧ s.dev.tk.seqRun = true ∧ s.dev.sameTick h = false) ∧
    (∃ (s : State) (left : Nat) (u : XferMsg) (e : Dev), Live s ∧ s.dev.isMember = true ∧ s.dev.ply.link = .up ∧ s.dev.struckUnit = some e) ∧
    (∃ (s : State) (x : XferClose) (e : Dev), Live s ∧ s.dev.isMember = true ∧ s.dev.ply.link = .up ∧ s.dev.struckUnit = some e) ∧
    (∃ (s : State) (left : Nat) (u : XferUnit), Live s ∧ s.dev.isMember = true ∧ s.dev.ply.link = .up ∧ s.dev.struckUnit = none) ∧
    (∃ (s : State) (left : Nat) (u : XferUnit), Live s ∧ s.dev.isMember = true ∧ s.dev.ply.link = .up ∧ s.dev.struckUnit = none ∧ s.dev.ply.pstate = .xfer) ∧
    (∃ (s : State) (c : Bool), Live s ∧ s.dev.isMember = true ∧ s.dev.ply.link = .up ∧ s.dev.struckUnit = none) ∧
    (∃ (s : State), Live s ∧ s.dev.isMember = true ∧ s.dev.ply.link = .up ∧ s.dev.struckUnit = none ∧ s.dev.ply.pstate = .xfer) ∧
    (∃ (s : State), Live s ∧ s.dev.isMember = true ∧ s.dev.ply.link = .up ∧ s.dev.struckUnit = none ∧ s.dev.ply.pstate = .xfer) ∧
    (∃ (s : State), Live s ∧ s.dev.ply.pstate = .xfer) ∧
    (∃ (s : State), Live s ∧ s.dev.ply.pstate = .shadow ∧ 1000 ≤ s.dev.ply.cleanRun) :=
  ⟨⟨st ({ dev0 with ply := { dev0.ply with role := .memberA, pstate := .standby, link := .up, sync := true }, tk := { dev0.tk with seqRun := true, tick := 1000 } }), by decide, by decide, by decide, by decide⟩,
   ⟨st ({ dev0 with ply := { dev0.ply with role := .memberA } }), by decide, by decide, by decide⟩,
   ⟨st ({ dev0 with ply := { dev0.ply with role := .memberA, pstate := .standby } }), by decide, by decide, by decide⟩,
   ⟨st ({ dev0 with ply := { dev0.ply with role := .memberA } }), by decide, by decide, by decide, by decide⟩,
   ⟨st ({ dev0 with now := 1250, ply := { dev0.ply with claimDue := some 0, pstate := .candidate } }), _, by decide, rfl, by decide, by decide, by decide +kernel⟩,
   ⟨st ({ dev0 with now := 1250, ply := { dev0.ply with claimDue := some 0, pstate := .candidate, claimMax := 0xFFFFFFFE } }), _, by decide, rfl, by decide, by decide, by decide +kernel⟩,
   ⟨st ({ dev0 with ply := { dev0.ply with yieldDue := true, pstate := .active } }), by decide, by decide, by decide⟩,
   ⟨st ({ dev0 with ply := { dev0.ply with role := .memberA, pstate := .candidate, link := .up, hello := some hi }, tk := { dev0.tk with seqRun := true } }), hi, by decide, by decide, by decide, by decide, by decide, rfl, by decide, by decide, by decide⟩,
   ⟨st ({ dev0 with ply := { dev0.ply with role := .memberA, pstate := .candidate, link := .up, hello := some hi } }), hi, _, by decide, by decide, by decide, by decide, by decide, rfl, by decide, by decide, by decide, rfl, by decide⟩,
   ⟨st ({ dev0 with ply := { dev0.ply with role := .memberA, pstate := .candidate, link := .up, hello := some hi }, tk := { dev0.tk with seqRun := true, guardLen := 1251 } }), hi, by decide, by decide, by decide, by decide, by decide, rfl, by decide, by decide, by decide⟩,
   ⟨devStruck, 0, ⟨true, .runBank 0⟩, _, by decide, by decide, by decide, rfl⟩,
   ⟨devStruck, ⟨true, true⟩, _, by decide, by decide, by decide, rfl⟩,
   ⟨st ({ dev0 with ply := { dev0.ply with role := .memberA, link := .up, pstate := .xfer } }), 0, .runBank 0, by decide, by decide, by decide, by decide⟩,
   ⟨st ({ dev0 with ply := { dev0.ply with role := .memberA, link := .up, pstate := .xfer } }), 0, .runBank 0, by decide, by decide, by decide, by decide, by decide⟩,
   ⟨st ({ dev0 with ply := { dev0.ply with role := .memberA, link := .up, pstate := .xfer } }), true, by decide, by decide, by decide, by decide⟩,
   ⟨st ({ dev0 with ply := { dev0.ply with role := .memberA, link := .up, pstate := .xfer } }), by decide, by decide, by decide, by decide, by decide⟩,
   ⟨st ({ dev0 with ply := { dev0.ply with role := .memberA, link := .up, pstate := .xfer } }), by decide, by decide, by decide, by decide, by decide⟩,
   ⟨st ({ dev0 with ply := { dev0.ply with pstate := .xfer } }), by decide, by decide⟩,
   ⟨st ({ dev0 with ply := { dev0.ply with pstate := .shadow, cleanRun := 1000 } }), by decide, by decide, by decide⟩⟩

theorem test_witness_ply_units_and_starts :
    (∃ (s : State) (u : PlyRx) (e : Dev), Live s ∧ s.dev.isMember = true ∧ s.dev.ply.link = .up ∧ s.dev.struckUnit = some e) ∧
    (∃ (s : State) (u : PlyRx), Live s ∧ s.dev.isMember = true ∧ s.dev.ply.link = .up ∧ s.dev.struckUnit = none ∧ goodUnit u = false) ∧
    (∃ (s : State) (u : PlyRx), Live s ∧ s.dev.isMember = true ∧ s.dev.ply.link = .up ∧ s.dev.struckUnit = none ∧ goodUnit u = true ∧ s.dev.ply.receives = true ∧ s.dev.tk.seqRun = true) ∧
    (∃ (s : State), Live s ∧ s.dev.isMember = true ∧ s.dev.ply.receives = true ∧ s.dev.tk.seqRun = true ∧ s.dev.ply.judged = false) ∧
    (∃ (s : State) (pc : Word), Live s) ∧
    (∃ (s : State) (r : Req) (d : Dev), Served 0x0401 false r s ∧ s.dev.isMember = true ∧ s.dev.ply.pstate = .init ∧ d = s.dev.modPly (fun p => { p with pstate := .candidate })) ∧
    (∃ (s : State) (r : Req), Served 0x0402 false r s ∧ s.dev.ply.role = .single ∧ s.dev.ply.held = none ∧ s.dev.ply.claimStart = false) :=
  ⟨⟨devStruck, { unit := .fill, tick := 0, ucrcOk := true }, _, by decide, by decide, by decide, rfl⟩,
   ⟨st ({ dev0 with ply := { dev0.ply with role := .memberA, link := .up } }), { unit := .fill, tick := 0, ucrcOk := false }, by decide, by decide, by decide, by decide, by decide⟩,
   ⟨st ({ dev0 with ply := { dev0.ply with role := .memberA, pstate := .standby, link := .up }, tk := { dev0.tk with seqRun := true } }), { unit := .fill, tick := 0, ucrcOk := true }, by decide, by decide, by decide, by decide, by decide, by decide, by decide⟩,
   ⟨st ({ dev0 with ply := { dev0.ply with role := .memberA, pstate := .standby }, tk := { dev0.tk with seqRun := true } }), by decide, by decide, by decide, by decide, by decide⟩,
   ⟨st dev0, 0, by decide⟩,
   ⟨st ({ dev0 with ply := { dev0.ply with role := .memberA } }), rq [], _, by decide, by decide, by decide, rfl⟩,
   ⟨st dev0, rq [0], by decide, by decide, by decide, by decide⟩⟩

theorem test_witness_referee_steps :
    (∃ (s : State) (r : Req) (d : Dev), Served 0x0403 false r s ∧ s.dev.ply.role = .referee ∧ s.dev.ref.run = false ∧ 781 ≤ (arg r 2).toNat ∧ (arg r 2).toNat ≤ 6249 ∧ d = s.dev.modRef (fun x => { x with tickSteps := (arg r 2).toNat })) ∧
    (∃ (s : State) (r : Req) (d : Dev), Served 0x0404 false r s ∧ s.dev.ply.role = .referee ∧ d = s.dev.modRef (fun x => { x with run := true })) ∧
    (∃ (s : State) (mem : Member), Live s) ∧
    (∃ (s : State) (mem : Member), Live s) ∧
    (∃ (s : State) (mem : Member), Live s) ∧
    (∃ (s : State) (mem : Member) (w0 w1 w2 w3 : Word), Live s ∧ bits w3 31 16 = healthCrc w0 w1 w2 w3) ∧
    (∃ (s : State) (mem : Member) (w0 w1 w2 w3 : Word), Live s ∧ bits w3 31 16 ≠ healthCrc w0 w1 w2 w3) ∧
    (∃ (s : State), Live s) :=
  ⟨⟨st ({ dev0 with ply := { dev0.ply with role := .referee } }), rq [6249], _, by decide, by decide, by decide, by decide, by decide, rfl⟩,
   ⟨st ({ dev0 with ply := { dev0.ply with role := .referee } }), rq [], _, by decide, by decide, rfl⟩,
   ⟨st dev0, .a, by decide⟩,
   ⟨st dev0, .a, by decide⟩,
   ⟨st dev0, .a, by decide⟩,
   ⟨st dev0, .a, 0, 0, 0, 0xA96A0000, by decide, by rw [health_crc]; decide⟩,
   ⟨st dev0, .a, 0, 0, 0, 0, by decide, by rw [health_crc_low]; decide⟩,
   ⟨st dev0, by decide⟩⟩

theorem test_witness_test_commands_served :
    (∃ (s : State) (r : Req), Served 0x0801 false r s ∧ (bit (arg r 2) 0 = true → s.dev.outputsOn = false)) ∧
    (∃ (s : State) (r : Req) (w : Word) (k : Nat) (d : Dev), Served 0x0802 false r s ∧ w = arg r 2 ∧ bits w 31 19 = 0 ∧ bits w 7 2 = 0 ∧ bits w 15 8 < s.dev.laneCount (bits w 1 0) ∧ (bits w 1 0 = 3 → bits w 17 16 ≠ 1 ∧ bits w 17 16 ≠ 2) ∧ s.dev.test.commissioning = true ∧ s.dev.outputsOn = false ∧ bit w 18 = true ∧ k = laneKey (bits w 1 0) (bits w 15 8) ∧ d = s.dev.countErrors k) ∧
    (∃ (s : State) (r : Req) (w : Word), Served 0x0802 false r s ∧ w = arg r 2 ∧ bits w 31 19 = 0 ∧ bits w 7 2 = 0 ∧ bits w 15 8 < s.dev.laneCount (bits w 1 0) ∧ (bits w 1 0 = 3 → bits w 17 16 ≠ 1 ∧ bits w 17 16 ≠ 2) ∧ s.dev.test.commissioning = true ∧ s.dev.outputsOn = false ∧ bit w 18 = false ∧ s.dev.loopbackReason r.chan.val (bits w 1 0) (bits w 15 8) = none ∧ (bits w 17 16 ≠ 0 → bits w 1 0 ≠ 3 → s.dev.injected (bits w 1 0) (bits w 15 8) = false)) ∧
    (∃ (s : State) (cls : LaneClass) (lane : Fin 256) (k : Nat), Live s ∧ k = classKey cls lane.val ∧ ((s.dev.laneTest k).mode = 1 ∨ (s.dev.laneTest k).mode = 3) ∧ (s.dev.laneTest k).prbsLock = false) ∧
    (∃ (s : State) (cls : LaneClass) (lane : Fin 256) (k : Nat) (d : Dev), Live s ∧ k = classKey cls lane.val ∧ (s.dev.laneTest k).prbsLock = true ∧ d = s.dev.countErrors k) ∧
    (∃ (s : State) (r : Req) (cls lane dir act n : Nat), Served 0x0803 false r s ∧ cls = bits (arg r 2) 1 0 ∧ lane = bits (arg r 2) 15 8 ∧ dir = bits (arg r 2) 16 16 ∧ act = bits (arg r 3) 2 0 ∧ n = bits (arg r 3) 15 8 ∧ s.dev.injectBad cls lane dir act n (arg r 4).toNat = none ∧ act ≠ 0 ∧ s.dev.test.commissioning = true ∧ s.dev.outputsOn = false ∧ s.dev.injectReady cls lane = true) ∧
    (∃ (s : State) (r : Req) (cls lane dir key : Nat) (t : Word) (e : Dev), Served 0x0803 false r s ∧ cls = bits (arg r 2) 1 0 ∧ lane = bits (arg r 2) 15 8 ∧ dir = bits (arg r 2) 16 16 ∧ bits (arg r 3) 2 0 = 0 ∧ s.dev.injectBad cls lane dir 0 (bits (arg r 3) 15 8) (arg r 4).toNat = none ∧ key = injKey cls lane dir ∧ t = s.dev.landTickOf (.inject key 0 0 0) ∧ e = ({ s.dev with test := { s.dev.test with stops := s.dev.test.stops ++ [{ req := r, key := key, tick := t }] } } : Dev)) ∧
    (∃ (d : Dev) (key : Nat) (x : StopWait) (e : Dev), d.test.stops.find? (fun y => y.key == key) = some x ∧ e = ({ d with test := { d.test with injections := tblSet {} d.test.injections key {}, stops := d.test.stops.erase x } } : Dev)) ∧
    (∃ (s : State) (r : Req), Served 0x0804 false r s) ∧
    (∃ (s : State) (r : Req), Served 0x0805 false r s ∧ 1 ≤ (arg r 3).toNat ∧ (arg r 3).toNat ≤ 3600) ∧
    (∃ (s : State) (d : Dev), Live s ∧ s.dev.eth.telePeriod ≠ 0 ∧ s.dev.eth.teleMask ≠ 0 ∧ s.dev.eth.teleDue ≤ s.dev.now ∧ d = { s.dev with eth := { s.dev.eth with teleDue := s.dev.eth.teleDue + 1250000000 * s.dev.eth.telePeriod } }) :=
  ⟨⟨st dev0, rq [1], by decide, by decide⟩,
   ⟨st ({ dev0 with test := { dev0.test with commissioning := true } }), rq [0x0004FF00], _, _, _, by decide, rfl, by decide, by decide, by decide, by decide, by decide, by decide, by decide, rfl, rfl⟩,
   ⟨st ({ dev0 with test := { dev0.test with commissioning := true } }), rq [0x0001FF00], _, by decide, rfl, by decide, by decide, by decide, by decide, by decide, by decide, by decide, by decide, by decide⟩,
   ⟨st ({ dev0 with test := { dev0.test with lanes := [(laneKey 0 0, { mode := 1 })] } }), .strand, 0, _, by decide, rfl, by decide, by decide⟩,
   ⟨st ({ dev0 with test := { dev0.test with lanes := [(laneKey 0 0, { mode := 1, prbsLock := true })] } }), .strand, 0, _, _, by decide, rfl, by decide, rfl⟩,
   ⟨st ({ dev0 with strands := [(0, { state := .active })], test := { dev0.test with commissioning := true } }), rq [0, 1, 0], _, _, _, _, _, by decide, rfl, rfl, rfl, rfl, rfl, by decide, by decide, by decide, by decide, by decide⟩,
   ⟨st dev0, rq [0, 0, 0], _, _, _, _, _, _, by decide, rfl, rfl, rfl, by decide, by decide, rfl, rfl, rfl⟩,
   ⟨{ dev0 with test := { dev0.test with stops := [{ req := rq [], key := 0, tick := 0 }] } }, 0, _, _, rfl, rfl⟩,
   ⟨st dev0, rq [], by decide⟩,
   ⟨st dev0, rq [0, 3600], by decide, by decide, by decide⟩,
   ⟨st ({ dev0 with eth := { dev0.eth with teleMask := 1, telePeriod := 1 } }), _, by decide, by decide, by decide, by decide, rfl⟩⟩

theorem test_witness_port_record_and_links :
    (∃ (s : State) (r : Req) (f : RecForm), Served 0x0030 true r s ∧ r.write = false ∧ recForm r s.dev.portCount 6 = some f) ∧
    (∃ (s : State) (r : Req) (f : RecForm), Served 0x0030 false r s ∧ r.write = true ∧ recForm r s.dev.portCount 6 = some f ∧ ((∀ w, f.wordFor 0 = some w → s.dev.portWord0Bad w = false))) ∧
    (∃ (s : State) (p : Fin 2), Live s ∧ p.val < s.dev.portCount ∧ (s.dev.portOf p.val).mode ≠ 0 ∧ s.dev.underTest 2 p.val = false) ∧
    (∃ (s : State) (p : Fin 2), Live s ∧ ((s.dev.portCount ≤ p.val ∨ (s.dev.portOf p.val).mode = 0 ∨ s.dev.underTest 2 p.val = true))) ∧
    (∃ (s : State) (p : Fin 2), Live s) ∧
    (∃ (s : State) (p : Fin 2) (e : Dev), Live s ∧ s.dev.timeUp ((s.dev.portOf p.val).idleAt + 1250 * (s.dev.portOf p.val).lpiIdle) = some e ∧ (e.portOf p.val).eeeEn = true ∧ (e.portOf p.val).linkUp = true ∧ (e.portOf p.val).second = [] ∧ (∀ f ∈ (e.portOf p.val).queue, f.base ≠ 0) ∧ e.launchSoon p.val = false) ∧
    (∃ (s : State) (p : Fin 2), Live s ∧ s.dev.timeUp ((s.dev.portOf p.val).idleAt + 1250 * (s.dev.portOf p.val).lpiIdle) = none) ∧
    (∃ (s : State) (p : Fin 2) (e : Dev), Live s ∧ s.dev.timeUp ((s.dev.portOf p.val).idleAt + 1250 * (s.dev.portOf p.val).lpiIdle) = some e ∧ ((e.portOf p.val).eeeEn = false ∨ (e.portOf p.val).linkUp = false ∨ (e.portOf p.val).second ≠ [] ∨ e.launchSoon p.val = true)) :=
  ⟨⟨st dev0, rr [0x00010006], _, by decide, by decide, rfl⟩,
   ⟨st dev0, rq [0x00010101, 0], _, by decide, by decide, rfl, fun _ h => nomatch (show (none : Option Word) = some _ from h)⟩,
   ⟨st ({ dev0 with eth := { dev0.eth with ports := [(0, { mode := 1 })] } }), 0, by decide, by decide, by decide, by decide⟩,
   ⟨st ({ dev0 with part := .t9128 }), 1, by decide, by decide⟩,
   ⟨st dev0, 0, by decide⟩,
   ⟨st ({ dev0 with eth := { dev0.eth with ports := [(0, { mode := 1, eeeEn := true, linkUp := true, lpiIdle := 0 })] } }), 0, _, by decide, rfl, by decide, by decide, by decide, by decide, by decide⟩,
   ⟨st dev0, 0, by decide, rfl⟩,
   ⟨st ({ dev0 with eth := { dev0.eth with ports := [(0, { mode := 1, lpiIdle := 0 })] } }), 0, _, by decide, rfl, by decide⟩⟩

/-- A port with one timed frame on a LOCKED TB0 at 0. -/
def launchDev (up : Bool) (t : Nat) : Dev :=
  { dev0 with clk := { dev0.clk with tb0 := { state := .locked } }
              eth := { dev0.eth with ports := [(0, { linkUp := up, queue := [{ base := 1, time := t, bytes := [] }] })] } }

/-- A launch 15 ms ahead of TB0, and what a cycle of the timestamp clock adds to TB0 before it is rounded. -/
def lateDev : Dev := launchDev true 1000000000000
def lateInc : Rat := 16 / 5 * 2 ^ 32 * (1 + ((0 : Int) : Rat) / 256000000000) + ((0 : Int) : Rat) * (2 ^ 26 : Nat) / ((12500 : Nat) : Rat)

theorem late_tick : lateDev.tickCycles = 12500 := by decide

theorem late_inc : lateDev.tbInc (lateDev.baseOf 0) (lateDev.fresh + 0) = roundTo lateInc (b1 (Config.roundsUp 0 lateInc)) := by
  unfold Dev.tbInc roundFree
  rw [late_tick]
  rfl

/-- Whichever way the increment of TB0 is rounded, that launch is not reached in this tick. -/
theorem launch_later : lateDev.atLaunch { base := 1, time := 1000000000000, bytes := [] } = none := by
  have inc : ∀ b : Bool, roundTo lateInc (b1 b) = 13743895347 ∨ roundTo lateInc (b1 b) = 13743895348 := by decide +kernel
  have go : ∀ i : Int, i = 13743895347 ∨ i = 13743895348 →
      12500 < (if ((((1000000000000 * 2 ^ 16 : Nat) : Int) - ((0 : Nat) : Int) : Int) : Rat) ≤ 0 ∨ lateDev.clk.tsRate = 0 ∨ i ≤ 0 then 0 else
      (((((((1000000000000 * 2 ^ 16 : Nat) : Int) - ((0 : Nat) : Int) : Int) : Rat) / (i : Rat)).ceil.toNat * 2 ^ 64 - lateDev.clk.tsPhase : Nat) / (lateDev.clk.tsRate : Rat) : Rat).ceil.toNat) := by
    rintro i (rfl | rfl) <;> decide +kernel
  have hc : (lateDev.baseOf 0).count = 0 := by decide
  have h : 12500 < lateDev.cyclesTo 0 ((((1000000000000 * 2 ^ 16 : Nat) : Int) - ((lateDev.baseOf 0).count : Int) : Int) : Rat) := by
    unfold Dev.cyclesTo
    rw [hc, late_inc]
    exact go _ (inc _)
  unfold Dev.atLaunch Dev.timeUp
  rw [if_neg]
  rw [late_tick]
  exact Nat.not_le.2 (lt_of_lt_of_le h (Nat.le_add_left _ _))

theorem test_witness_launch_sends_or_misses :
    (∃ (s : State) (p : Fin 2) (d e : Dev) (f : LaunchFrame) (rest : List LaunchFrame), Live s ∧ d = s.dev.atWake p.val ∧ (d.portOf p.val).queue = f :: rest ∧ f.base ≠ 0 ∧ d.launchLost f = false ∧ d.atLaunch f = some e ∧ (e.portOf p.val).linkUp = true) ∧
    (∃ (s : State) (p : Fin 2) (d : Dev) (f : LaunchFrame) (rest : List LaunchFrame), Live s ∧ d = s.dev.atWake p.val ∧ (d.portOf p.val).queue = f :: rest ∧ f.base ≠ 0 ∧ d.launchLost f = true) ∧
    (∃ (s : State) (p : Fin 2) (d e : Dev) (f : LaunchFrame) (rest : List LaunchFrame), Live s ∧ d = s.dev.atWake p.val ∧ (d.portOf p.val).queue = f :: rest ∧ f.base ≠ 0 ∧ d.launchLost f = false ∧ d.atLaunch f = some e ∧ (e.portOf p.val).linkUp = false) ∧
    (∃ (s : State) (p : Fin 2) (d : Dev) (f : LaunchFrame) (rest : List LaunchFrame), Live s ∧ d = s.dev.atWake p.val ∧ (d.portOf p.val).queue = f :: rest ∧ f.base ≠ 0 ∧ d.launchLost f = false ∧ d.atLaunch f = none) ∧
    (∃ (s : State) (p : Fin 2) (d : Dev), Live s ∧ d = s.dev.atWake p.val ∧ (d.portOf p.val).queue = []) :=
  ⟨⟨st (launchDev true 0), 0, _, _, _, _, by decide, rfl, rfl, by decide, by decide, rfl, by decide⟩,
   ⟨st ({ dev0 with eth := { dev0.eth with ports := [(0, { queue := [{ base := 1, time := 0, bytes := [] }] })] } }), 0, _, _, _, by decide, rfl, rfl, by decide, by decide⟩,
   ⟨st (launchDev false 0), 0, _, _, _, _, by decide, rfl, rfl, by decide, by decide, rfl, by decide⟩,
   ⟨st lateDev, 0, _, _, _, by decide, rfl, rfl, by decide, by decide, launch_later⟩,
   ⟨st dev0, 0, _, by decide, rfl, by decide⟩⟩

theorem test_witness_frames_and_ptp :
    (∃ (s : State) (r : Req) (p b sec : Nat) (raw sent : List Byte) (d : Dev), Served 0x0713 false r s ∧ p = bits (arg r 2) 0 0 ∧ b = bits (arg r 2) 2 1 ∧ p < s.dev.portCount ∧ b ≠ 3 ∧ (b ≠ 0 → (arg r 5).toNat < 1000000000 ∧ (s.dev.baseOf (b - 1)).valid = true) ∧ areaLo ≤ (arg r 6).toNat ∧ (arg r 6).toNat + (arg r 7).toNat ≤ areaEnd ∧ 1 ≤ (arg r 7).toNat ∧ (arg r 7).toNat ≤ 1518 ∧ (s.dev.portOf p).queue.length < 32 ∧ sec = join48 (arg r 3) (arg r 4) ∧ raw = memBytes s.dev.bar2 (arg r 6).toNat (arg r 7).toNat ∧ (sent = match ptpOf raw with | some m => if s.dev.chained && (m.typ == 1 || m.typ == 2) && decide (b ≠ 0) then setOrigin raw m sec (arg r 5).toNat else raw | none => raw) ∧ d = s.dev.enqueue p { base := b, time := (sec * 1000000000 + (arg r 5).toNat) * 2 ^ 16, bytes := sent }) ∧
    (∃ (s : State) (p : Fin 2) (f : EthFrame) (e : Dev) (i : Injection), Live s ∧ p.val < s.dev.portCount ∧ (s.dev.portOf p.val).linkUp = true ∧ s.dev.injectUnit (injKey 2 p.val 1) = (some i, e)) ∧
    (∃ (s : State) (p : Fin 2) (f : EthFrame) (e : Dev), Live s ∧ p.val < s.dev.portCount ∧ (s.dev.portOf p.val).linkUp = true ∧ s.dev.injectUnit (injKey 2 p.val 1) = (none, e) ∧ (e.portOf p.val).heldRx = none) ∧
    (∃ (s : State) (p : Fin 2) (f : EthFrame) (g : EthFrame ⊕ CoordFrame) (e : Dev), Live s ∧ p.val < s.dev.portCount ∧ (s.dev.portOf p.val).linkUp = true ∧ s.dev.injectUnit (injKey 2 p.val 1) = (none, e) ∧ (e.portOf p.val).heldRx = some g) ∧
    (∃ (s : State) (p : Fin 2) (f : CoordFrame) (e : Dev), Live s ∧ p.val < s.dev.portCount ∧ (s.dev.portOf p.val).linkUp = true ∧ s.dev.injectUnit (injKey 2 p.val 1) = (none, e) ∧ (e.portOf p.val).heldRx = none) ∧
    (∃ (d : Dev) (p : Nat) (f : CoordFrame), d.coordBad f.words = true) ∧
    (∃ (d : Dev) (p src : Nat) (f : CoordFrame), d.coordBad f.words = false ∧ src = bits (wat f.words 2) 31 16 ∧ (d.ply.role = .single ∨ d.isMember = true ∧ d.ply.pstate = .active)) ∧
    (∃ (s : State) (cause : ReportCause) (p : ReportCause × Option Nat) (d : Dev), Live s ∧ (cause = .apply ∨ cause = .discard) ∧ s.dev.owedNow cause = some p ∧ d = { s.dev with eth := { s.dev.eth with owed := s.dev.eth.owed.erase p } }) ∧
    (∃ (s : State) (d : Dev), Live s ∧ s.dev.periodicDue = true ∧ d = { s.dev with eth := { s.dev.eth with periodic := some s.dev.tk.tick } }) ∧
    (∃ (s : State), Live s) ∧
    (∃ (s : State) (cause : ReportCause), Live s ∧ (cause = .apply ∨ cause = .discard) ∧ s.dev.owedNow cause = none) ∧
    (∃ (s : State) (r : Req), Served 0x0712 false r s ∧ bits (arg r 2) 7 0 ≠ bits (arg r 2) 15 8) ∧
    (∃ (s : State) (n : Fin 2), Live s ∧ s.dev.hostServo n.val = false ∧ (s.dev.baseOf n.val).state = .locked) ∧
    (∃ (s : State) (m : Master) (p : Fin 2) (b : ReadBytes) (x : TsEntry) (rest : List TsEntry), MayRead m s ∧ s.dev.tsHidden m = false ∧ (s.dev.portOf p.val).ts = x :: rest) ∧
    (∃ (s : State) (m : Master) (p : Fin 2) (b : ReadBytes), MayRead m s ∧ s.dev.tsHidden m = false ∧ (s.dev.portOf p.val).tsLock = true) :=
  ⟨⟨st dev0, rq [0, 0, 0, 0, 0x1000000, 1518], _, _, _, _, _, _, by decide, rfl, rfl, by decide, by decide, by decide, by decide, by decide, by decide, by decide, by decide, rfl, rfl, rfl, rfl⟩,
   ⟨st ({ dev0 with eth := { dev0.eth with ports := [(0, { linkUp := true })] }, test := { dev0.test with injections := [(injKey 2 0 1, { action := 2 })] } }), 0, ef, _, _, by decide, by decide, by decide, rfl⟩,
   ⟨st ({ dev0 with eth := { dev0.eth with ports := [(0, { linkUp := true })] } }), 0, ef, _, by decide, by decide, by decide, rfl, by decide⟩,
   ⟨st ({ dev0 with eth := { dev0.eth with ports := [(0, { linkUp := true, heldRx := some (.inl ef) })] } }), 0, ef, .inl ef, _, by decide, by decide, by decide, rfl, rfl⟩,
   ⟨st ({ dev0 with eth := { dev0.eth with ports := [(0, { linkUp := true })] } }), 0, { words := [], dstMac := 0, srcMac := 0 }, _, by decide, by decide, by decide, rfl, by decide⟩,
   ⟨dev0, 0, { words := [], dstMac := 0, srcMac := 0 }, by decide⟩,
   ⟨dev0, 0, _, { words := coordWords, dstMac := 0, srcMac := 0 }, coord_good _ rfl rfl rfl, rfl, by decide⟩,
   ⟨st ({ dev0 with eth := { dev0.eth with owed := [(.apply, some 0)] } }), .apply, (.apply, some 0), _, by decide, by decide, by decide, rfl⟩,
   ⟨st ({ dev0 with tk := { dev0.tk with seqRun := true } }), _, by decide, by decide, rfl⟩,
   ⟨st dev0, by decide⟩,
   ⟨st dev0, .discard, by decide, by decide, by decide⟩,
   ⟨st dev0, rq [0x0100], by decide, by decide⟩,
   ⟨st ({ dev0 with clk := { dev0.clk with tb0 := { state := .locked } } }), 0, by decide, by decide, by decide⟩,
   ⟨st ({ dev0 with eth := { dev0.eth with ports := [(0, { ts := [{ seqId := 0, msgType := 0, tb := 0, domain := 0, count := 0 }] })] } }), .mgmt, 0, rb, _, _, by decide, by decide, rfl⟩,
   ⟨st ({ dev0 with eth := { dev0.eth with ports := [(0, { tsLock := true })] } }), .mgmt, 0, rb, by decide, by decide, by decide⟩⟩

theorem test_witness_can_host_accesses :
    (∃ (s : State) (m : Master) (c : Fin 4) (b : Fin 64) (y : ReadBytes), MayRead m s ∧ ((s.dev.canOf c.val).buf b.val).holder = none) ∧
    (∃ (s : State) (m : Master) (c : Fin 4) (b : Fin 64) (i : Fin 19) (y : ReadBytes) (x : CanBuf), MayRead m s ∧ x = (s.dev.canOf c.val).buf b.val ∧ x.holder = some (masterId m) ∧ i.val = x.elem.lastWord) ∧
    (∃ (s : State) (m : Master) (c : Fin 4) (b : Fin 64) (i : Fin 19) (y : ReadBytes) (x : CanBuf), MayRead m s ∧ x = (s.dev.canOf c.val).buf b.val ∧ (x.holder ≠ some (masterId m) ∨ i.val ≠ x.elem.lastWord)) ∧
    (∃ (s : State) (m : Master) (c : Fin 4) (half : Fin 2) (v : Word), MayWrite m canBlock s) ∧
    (∃ (s : State) (m : Master) (c : Fin 4) (f : Fin 2) (v : Word), MayWrite m canBlock s) ∧
    (∃ (s : State) (m : Master) (c : Fin 4) (v : Word) (p d : Dev), MayWrite m canBlock s ∧ p = s.dev.modCan c.val Can.push ∧ d = p.modCan c.val Can.dropTx) ∧
    (∃ (s : State) (m : Master) (c : Fin 4) (v : Word) (d : Dev), MayWrite m canBlock s ∧ d = s.dev.modCan c.val Can.dropTx) ∧
    (∃ (s : State) (m : Master) (c : Fin 4) (v : Word), MayWrite m canBlock s) ∧
    (∃ (s : State) (m : Master) (c : Fin 4) (v : Word), MayWrite m canBlock s) :=
  ⟨⟨st dev0, .mgmt, 0, 0, rb, by decide, by decide⟩,
   ⟨st ({ dev0 with cans := [(0, { bufs := [(0, { holder := some 0x20 })] })] }), .mgmt, 0, 0, Fin.ofNat 19 (({ holder := some 0x20 } : CanBuf).elem.lastWord), rb, _, by decide, rfl, by decide, by decide⟩,
   ⟨st dev0, .mgmt, 0, 0, 0, rb, _, by decide, rfl, by decide⟩,
   ⟨st dev0, .mgmt, 0, 0, 0, by decide⟩,
   ⟨st dev0, .mgmt, 0, 0, 0, by decide⟩,
   ⟨st dev0, .mgmt, 0, 0, _, _, by decide, rfl, rfl⟩,
   ⟨st dev0, .mgmt, 0, 0, _, by decide, rfl⟩,
   ⟨st dev0, .mgmt, 0, 0, by decide⟩,
   ⟨st dev0, .mgmt, 0, 0, by decide⟩⟩

theorem test_witness_can_bus_events :
    (∃ (s : State) (c : Fin 4) (age : Nat), Live s ∧ (s.dev.canOf c.val).onBus = true ∧ (s.dev.canOf c.val).corrupt = false) ∧
    (∃ (s : State) (c : Fin 4) (age : Nat), Live s ∧ (s.dev.canOf c.val).onBus = true ∧ (s.dev.canOf c.val).corrupt = true) ∧
    (∃ (s : State) (c : Fin 4), Live s ∧ (s.dev.canOf c.val).onBus = true) ∧
    (∃ (s : State) (c : Fin 4) (e : CanErr) (dataPhase : Bool) (w : TecCase), Live s ∧ (s.dev.canOf c.val).onBus = true) ∧
    (∃ (s : State) (c : Fin 4), Live s ∧ (s.dev.canOf c.val).boff = true ∧ 128 ≤ (s.dev.canOf c.val).recov) ∧
    (∃ (s : State) (c : Fin 4) (f : CanFrame) (e : Dev), Live s ∧ (s.dev.canOf c.val).joined s.dev.now f.age = true ∧ (s.dev.canOf c.val).exception f = false ∧ s.dev.injectUnit (injKey 3 c.val 1) = (none, e)) ∧
    (∃ (s : State) (c : Fin 4) (f : CanFrame), Live s ∧ (s.dev.canOf c.val).joined s.dev.now f.age = true ∧ f.fd = true ∧ (f.res = true ∨ (s.dev.canOf c.val).fdEn = false)) ∧
    (∃ (s : State) (c : Fin 4) (f : CanFrame) (e : Dev) (i : Injection), Live s ∧ (s.dev.canOf c.val).joined s.dev.now f.age = true ∧ (s.dev.canOf c.val).exception f = false ∧ s.dev.injectUnit (injKey 3 c.val 1) = (some i, e)) ∧
    (∃ (s : State) (c : Fin 4) (e : CanRxErr) (dataPhase : Bool), Live s ∧ (s.dev.canOf c.val).joined s.dev.now e.age = true) ∧
    (∃ (s : State) (c : Fin 4), Live s ∧ (s.dev.canOf c.val).config = false ∧ (s.dev.canOf c.val).boff = false ∧ (s.dev.canOf c.val).act = 0) ∧
    (∃ (s : State) (c : Fin 4), Live s ∧ (s.dev.canOf c.val).boff = false ∧ (s.dev.canOf c.val).config = true) ∧
    (∃ (s : State) (c : Fin 4), Live s ∧ (s.dev.canOf c.val).boff = true) :=
  ⟨⟨st ({ dev0 with cans := [(0, { onBus := true })] }), 0, 0, by decide, by decide, by decide⟩,
   ⟨st ({ dev0 with cans := [(0, { onBus := true, corrupt := true })] }), 0, 0, by decide, by decide, by decide⟩,
   ⟨st ({ dev0 with cans := [(0, { onBus := true })] }), 0, by decide, by decide⟩,
   ⟨st ({ dev0 with cans := [(0, { onBus := true })] }), 0, .ack, true, .passiveAck, by decide, by decide⟩,
   ⟨st ({ dev0 with cans := [(0, { boff := true, recov := 128 })] }), 0, by decide, by decide, by decide⟩,
   ⟨st ({ dev0 with cans := [(0, { act := 1 })] }), 0, cf, _, by decide, by decide, by decide, rfl⟩,
   ⟨st ({ dev0 with cans := [(0, { act := 1 })] }), 0, { cf with fd := true }, by decide, by decide, by decide, by decide⟩,
   ⟨st ({ dev0 with cans := [(0, { act := 1 })], test := { dev0.test with injections := [(injKey 3 0 1, { action := 3 })] } }), 0, cf, _, _, by decide, by decide, by decide, rfl⟩,
   ⟨st ({ dev0 with cans := [(0, { act := 1 })] }), 0, { kind := .crc }, true, by decide, by decide⟩,
   ⟨st ({ dev0 with cans := [(0, { config := false })] }), 0, by decide, by decide, by decide, by decide⟩,
   ⟨st dev0, 0, by decide, by decide, by decide⟩,
   ⟨st ({ dev0 with cans := [(0, { boff := true })] }), 0, by decide, by decide⟩⟩

/-- A recessive res bit ends an FD frame in a protocol exception though FD_EN is set, and nothing is stored (R370). -/
theorem test_can_res :
    let c : Can := { act := 1, fdEn := true, config := false, ruleCfg := 0 }
    (match exec (.canFrameReceived 0 { cf with fd := true, res := true }) (st { dev0 with cans := [(0, c)] }) with
     | .next t => (t.dev.canOf 0).act == 0 && (t.dev.canOf 0).rx0.fill == 0
     | _ => false) = true := by decide

/-- An own frame is sent with ESI from the error-passive state, trimmed to its length (R370, R374). -/
theorem test_can_head_frame :
    let c : Can := { passive := true, fdEn := true, fastEn := true, txElems := [(0, { id := 5, ctl := 0xC0300000, data := [0x44332211] })] }
    c.headFrame = { id := 5, xtd := false, rmt := false, fd := true, fast := true, epass := true, dlc := 3
                    data := [0x11, 0x22, 0x33] } := by decide

theorem test_witness_resets_and_releases :
    (∃ (s : State) (dom : Domain), (dom = .vspin ∨ dom = .vmem ∨ dom = .vpll ∨ dom = .vana ∨ dom = .vio18 ∨ dom = .vio33)) ∧
    (∃ (s : State), Live s) ∧
    (∃ (s : State), Live s) ∧
    (∃ (s : State), Live s) ∧
    (∃ (s : State), Live s) ∧
    (∃ (s : State) (n : Nat) (l : List Nat), Live s ∧ (List.range 32).filter (fun n => !(s.dev.trimOf n).bstUv) = n :: l) ∧
    (∃ (s : State), Live s ∧ (List.range 32).filter (fun n => !(s.dev.trimOf n).bstUv) = []) ∧
    (∃ (s : State), s.dev.pwr.held = true) ∧
    (∃ (s : State) (c : CollapseCause), ((c = .thermal → s.dev.therm.shutdown = true))) ∧
    (∃ (s : State), s.dev.therm.shutdown = false) ∧
    (∃ (s : State) (c : CloseRec) (d : Dev), s.dev.pwr.closeWriting = some c ∧ d = s.dev.mainReset .collapse) ∧
    (∃ (s : State) (t : Nat) (d : Dev), Live s ∧ s.dev.cfg.wdogReset = true ∧ s.dev.pwr.wdogAt = some t ∧ s.dev.timeUp (1250000000 + t) = some d) ∧
    (∃ (s : State), Live s ∧ ((s.dev.cfg.wdogReset = false ∨ s.dev.pwr.wdogAt = none))) ∧
    (∃ (s : State) (x : ReleaseIn) (low held : Bool), s.dev.pwr.held = true ∧ (∀ dom ∈ s.dev.pwr.out, dom ∈ x.back) ∧
      x.resetHigh = true ∧ x.pfailHigh = true ∧ s.dev.therm.shutdown = false ∧ s.dev.pwr.closeWriting = none) ∧
    (∃ (s : State) (x : ReleaseIn) (low held : Bool) (dom : Domain), dom ∈ s.dev.pwr.out ∧ dom ∉ x.back) ∧
    (∃ (s : State) (x : ReleaseIn) (low held : Bool), ((s.dev.pwr.held = false ∨ x.resetHigh = false ∨ x.pfailHigh = false ∨ s.dev.therm.shutdown = true ∨ s.dev.pwr.closeWriting ≠ none))) ∧
    (∃ (s : State) (r : Req), Served 0x00FE false r s ∧ arg r 2 = 0x00009256) :=
  ⟨⟨st dev0, .vspin, by decide⟩,
   ⟨st dev0, by decide⟩,
   ⟨st dev0, by decide⟩,
   ⟨st dev0, by decide⟩,
   ⟨st dev0, by decide⟩,
   ⟨st ({ dev0 with trims := [(0, { bstUv := false })] }), _, _, by decide, rfl⟩,
   ⟨st dev0, by decide, by decide⟩,
   ⟨st ({ dev0 with pwr := { dev0.pwr with held := true } }), by decide⟩,
   ⟨st dev0, .vcoreUv, by decide⟩,
   ⟨st dev0, by decide⟩,
   ⟨st ({ dev0 with pwr := { dev0.pwr with closeWriting := some {} } }), _, _, rfl, rfl⟩,
   ⟨st ({ dev0 with now := 1250000000, cfg := { dev0.cfg with wdogReset := true }, pwr := { dev0.pwr with wdogAt := some 0 } }), _, _, by decide, by decide, rfl, rfl⟩,
   ⟨st dev0, by decide, by decide⟩,
   ⟨st ({ dev0 with pwr := { dev0.pwr with held := true, out := [.vpll] } }), { role := .single, back := [.vpll] }, true, true, by decide, by decide, by decide,
     by decide, by decide, by decide⟩,
   ⟨st ({ dev0 with pwr := { dev0.pwr with held := true, out := [.vpll] } }), { role := .single }, true, true, .vpll, by decide, by decide⟩,
   ⟨st ({ dev0 with pwr := { dev0.pwr with held := true, closeWriting := some {} } }), { role := .single }, true, true, by decide⟩,
   ⟨st dev0, rq [0x00009256], by decide, by decide⟩⟩

theorem test_witness_firmware_images_and_start :
    (∃ (s : State) (r : Req), Served 0x0F01 false r s ∧ arg r 2 = 0 ∧ imgArgs r none = none ∧ LongFree 0x0F01 r s.dev) ∧
    (∃ (d : Dev) (r : Req) (img : List Byte), img = wordsBytes (d.image r) ∧ crc32 img = arg r 5) ∧
    (∃ (s : State) (r : Req), Served 0x0F02 false r s ∧ s.dev.flash.staged = true) ∧
    (∃ (s : State), Live s ∧ s.dev.host.bootStage = 1 ∧ s.dev.flash.bootSlot = none) ∧
    (∃ (s : State) (n : Nat) (h : HostIf) (p : Power), Live s ∧ s.dev.host.bootStage = 1 ∧ s.dev.flash.bootSlot = some n ∧ h = ({ s.dev.host with authOk := true, fwVersion := (s.dev.flash.slot n).version } : HostIf) ∧ p = ({ s.dev.pwr with fwSlot := n, slotFallback := decide (n ≠ s.dev.flash.activeSlot) } : Power)) ∧
    (∃ (s : State) (m : Master) (space : Space) (off : BitVec 28) (data : List Byte) (b : Byte) (l : List Byte), data = b :: l ∧ Live s ∧ s.dev.asleep m = true) ∧
    (∃ (s : State) (m : Master) (space : Space) (off : BitVec 28) (data : List Byte) (b : Byte) (l : List Byte), data = b :: l ∧ Live s ∧ s.dev.asleep m = false ∧ masterId m = 0x10) ∧
    (∃ (s : State) (m : Master) (off : BitVec 28) (data : List Byte) (b : Byte) (l : List Byte), data = b :: l ∧ Live s ∧ s.dev.asleep m = false ∧ masterId m ≠ 0x10 ∧ ((fnOfId (masterId m)).isSome = true → bar0Served off.toNat data.length = true)) ∧
    (∃ (s : State) (m : Master) (off : BitVec 28) (data : List Byte) (b : Byte) (l : List Byte), data = b :: l ∧ Live s ∧ s.dev.asleep m = false ∧ masterId m ≠ 0x10 ∧ (fnOfId (masterId m)).isSome = true ∧ bar0Served off.toNat data.length = false ∧ data.length ≤ 256) ∧
    (∃ (s : State) (m : Master) (space : Space) (off : BitVec 28) (data : List Byte) (b : Byte) (l : List Byte), data = b :: l ∧ Live s ∧ s.dev.asleep m = false ∧ (fnOfId (masterId m)).isSome = true ∧ 256 < data.length) ∧
    (∃ (s : State) (m : Master) (off : BitVec 28) (data : List Byte) (b : Byte) (l : List Byte), data = b :: l ∧ Live s ∧ s.dev.asleep m = false ∧ masterId m ≠ 0x10 ∧ ((fnOfId (masterId m)).isSome = true → data.length ≤ 256)) :=
  ⟨⟨st dev0, rq [0, 0x1000000, 4, 0], by decide, by decide, by decide, by decide⟩,
   ⟨dev0, rq [0, 0x1000000, 4, crc32 (wordsBytes [0])], wordsBytes [0], by decide, rfl⟩,
   ⟨st ({ dev0 with flash := { dev0.flash with staged := true } }), rq [], by decide, by decide⟩,
   ⟨st ({ dev0 with host := { dev0.host with bootStage := 1 }, flash := { dev0.flash with slot0 := {} } }), by decide, by decide, by decide⟩,
   ⟨st ({ dev0 with host := { dev0.host with bootStage := 1 } }), _, _, _, by decide, by decide, rfl, rfl, rfl⟩,
   ⟨st ({ dev0 with host := { dev0.host with pcie := [(0, { d3hot := true })] } }), .pcie0, .bar2, 0, [1, 2, 3, 4], _, _, rfl, by decide, by decide⟩,
   ⟨st dev0, .qspi, .bar2, 0, [1, 2, 3, 4], _, _, rfl, by decide, by decide, by decide⟩,
   ⟨st dev0, .pcie0, 0, [1, 2, 3, 4], _, _, rfl, by decide, by decide, by decide, by decide⟩,
   ⟨st dev0, .pcie0, 61, [1, 2, 3, 4], _, _, rfl, by decide, by decide, by decide, by decide, by decide, by decide⟩,
   ⟨st dev0, .pcie0, .bar2, 0, 1 :: List.replicate 256 0, _, _, rfl, by decide, by decide, by decide, by
     rw [List.length_cons, List.length_replicate]; decide⟩,
   ⟨st dev0, .mgmt, 0, [1, 2, 3, 4], _, _, rfl, by decide, by decide, by decide, by decide⟩⟩

theorem test_witness_opcode_names_its_command :
    (∃ (c : Instr) (op : Nat) (read : Bool) (r : Req), requestOf c = some (op, read, r) ∧ op ≠ 0x0710) ∧
    (∃ (c : Instr) (op : Nat) (r : Req), commandOf op r = some c) ∧
    (∃ (s : State) (m : Master) (ch : Fin 32) (r : Req) (op : Nat), BoxSide m ch Chan.rspId s ∧ masterId m = 0x20 ∧ s.dev.host.bootStage = 3 ∧ (s.dev.boxOf ch.val).go = true ∧ (s.dev.boxOf ch.val).picked = false ∧ s.dev.hasTurn ch.val = true ∧ r = Req.ofBlock ch true (s.dev.boxOf ch.val).req ∧ op = opcodeOf (s.dev.boxOf ch.val).req ∧ commandOf op r = none ∧ s.dev.storedReply r = none ∧ (0x1000 ≤ op ∨ nbit (s.dev.boxOf ch.val).groups (op / 256) = true)) ∧
    (∃ (c : Instr) (s : State) (op : Nat) (read : Bool) (r : Req), requestOf c = some (op, read, r) ∧ Live s ∧ (s.dev.boxOf r.chan.val).go = true ∧ (s.dev.boxOf r.chan.val).rspId = 0x20 ∧ ((s.dev.boxOf r.chan.val).picked = false ∨ opcodeOf (s.dev.boxOf r.chan.val).req ≠ op ∨ wat (s.dev.boxOf r.chan.val).req 1 ≠ r.w1)) :=
  ⟨⟨.nop (rq []), _, _, _, rfl, by decide⟩,
   ⟨_, 0x0101, rq [], rfl⟩,
   ⟨st ({ dev0 with host := { dev0.host with chans := [(0, { bind0 := 0x80002020, bind1 := 0xFFFF, go := true, req := 0x0003 :: List.replicate 15 0 })] } }), .mgmt, 0, _, _,
     by decide, by decide, by decide, by decide, by decide, by decide, rfl, rfl, by decide, by decide, by decide⟩,
   ⟨.cut (rq []), st ({ dev0 with host := { dev0.host with chans := [(0, { bind0 := 0x80002020, bind1 := 0xFFFF, go := true, picked := true })] } }),
     _, _, _, rfl, by decide, by decide, by decide, by decide⟩⟩

/-- OPCODE 0x0003 is in no group table, and 0x0710 with kind 1 is a step (R414, R422, R429). -/
theorem test_opcodes : commandOf 0x0003 (rq []) = none ∧ commandOf 0x0710 (rq [1]) = some (.tbStep (rq [1])) ∧
    commandOf 0x0706 (rq [1]) = some (.unstage (rq [1])) := by decide

theorem test_witness_query_reply :
    (∃ (s : State) (r : Req), Served 0x0002 true r s ∧ s.dev.named r = none) ∧
    (∃ (s : State) (r : Req) (x : LongRun), Served 0x0002 true r s ∧ s.dev.named r = some x ∧ x.state = .running) ∧
    (∃ (s : State) (r : Req) (x : LongRun) (st : Nat) (ws : List Word), Served 0x0002 true r s ∧ s.dev.named r = some x ∧ x.state = .complete st ws) :=
  ⟨⟨st dev0, rq [0], by decide, by decide⟩,
   ⟨st ({ dev0 with host := { dev0.host with longs := [{ op := 0x0101, req := rq [0], state := .running }] } }), rq [0], _, by decide, rfl, by decide⟩,
   ⟨st ({ dev0 with host := { dev0.host with longs := [{ op := 0x0101, req := rq [0], state := .complete 0 [] }] } }), rq [0], _, _, _, by decide, rfl, rfl⟩⟩

theorem test_witness_step_runs_front_command :
    (∃ (s : State) (c : Instr) (rest : List Instr), s.pending = c :: rest) ∧
    (∃ s : State, s.pending = []) :=
  ⟨⟨{ pending := [.cutIn] }, .cutIn, [], rfl⟩,
   ⟨st dev0, rfl⟩⟩

theorem test_witness_memories_stay_canonical :
    ∃ s t : State, memOk s = true ∧ step s = .next t :=
  ⟨st dev0, _, by decide, rfl⟩

theorem test_witness_commands_leave_the_queue :
    ∃ (c : Instr) (s t : State), exec c s = .next t :=
  ⟨.maskApply ⟨0, false⟩, { dev0St with pending := [.cutIn] }, _, rfl⟩

theorem test_witness_held_main_logic_is_inert :
    ∃ (c : Instr) (s : State), s.dev.pwr.held = true ∧ runsHeld c = false :=
  ⟨.cutIn, st { dev0 with pwr := { dev0.pwr with held := true } }, by decide, by decide⟩

theorem test_witness_repeated_request_is_not_executed_again :
    (∃ (d : Dev) (op : Nat) (r : Req) (p : Rep), p.status ≠ 0x0201 ∧ p.status ≠ 0x0001) ∧
    (∃ (d : Dev) (op : Nat) (r : Req) (p : Rep) (x : Word × List Word), (p.status = 0x0201 ∨ p.status = 0x0001) ∧ (d.boxOf r.chan.val).stored = some x) ∧
    (∃ (c : Instr) (s : State) (op : Nat) (read : Bool) (r : Req) (b : List Word), requestOf c = some (op, read, r) ∧ Live s ∧ s.dev.host.bootStage = 3 ∧ s.dev.carries op r = true ∧ (s.dev.boxOf r.chan.val).stored = some (r.w1, b)) :=
  ⟨⟨stored0, 0, rq [], .ok [], by decide, by decide⟩,
   ⟨stored0, 0, rq [], ⟨0x0001, []⟩, _, by decide, rfl⟩,
   ⟨.cut (rq [3]), st stored0, _, _, _, _, rfl, by decide, by decide, by decide, rfl⟩⟩

theorem test_witness_refused_requests_only_answer :
    (∃ (c : Instr) (s : State) (op : Nat) (read : Bool) (r : Req) (p : Rep), requestOf c = some (op, read, r) ∧ Live s ∧ s.dev.host.bootStage = 3 ∧ s.dev.carries op r = true ∧ s.dev.storedReply r = none ∧ s.dev.refusal op read r = some p) ∧
    (∃ (c : Instr) (s : State) (op : Nat) (read : Bool) (r : Req), requestOf c = some (op, read, r) ∧ Live s ∧ s.dev.host.bootStage ≠ 3) :=
  ⟨⟨.cut { rq [3] with chan := 31 }, st dev0, _, _, _, _, rfl, by decide, by decide, by decide, by decide, rfl⟩,
   ⟨.fwActivate (rq []), st { dev0 with host := { dev0.host with bootStage := 2 } }, _, _, _, rfl, by decide, by decide⟩⟩

/-- A device whose access table permits no host any block. -/
def noWrites : Dev := { dev0 with host := { dev0.host with wrEn := [] } }

theorem test_witness_unpermitted_writes_only_count :
    (∃ (c : Instr) (s : State) (m : Master) (b : Nat), writeOf c = some (m, b) ∧ Live s ∧ s.dev.asleep m = true) ∧
    (∃ (c : Instr) (s : State) (m : Master) (b : Nat), writeOf c = some (m, b) ∧ Live s ∧ s.dev.asleep m = false ∧ s.dev.mayWrite m b = false) ∧
    (∃ (s : State) (m : Master) (off : BitVec 28) (data : List Byte) (b : Byte) (l : List Byte) (blk : Nat), data = b :: l ∧ Live s ∧ s.dev.asleep m = false ∧ (masterId m = 0x10 → off.toNat % 4 = 0) ∧ ((hostIndex (masterId m)).isSome = true → off.toNat % 64 + data.length ≤ 64) ∧ (∀ p ∈ wordsCovered off.toNat data, guardBlock p.1 = some blk) ∧ s.dev.mayWrite m blk = false) ∧
    (∃ (s : State) (m : Master) (off : BitVec 28) (data : List Byte) (b : Byte) (l : List Byte), data = b :: l ∧ Live s ∧ s.dev.asleep m = false ∧ (masterId m = 0x10 → off.toNat % 4 = 0 ∧ 4 ≤ data.length) ∧ data.length ≤ 256 ∧ areaLo ≤ off.toNat ∧ off.toNat < areaEnd ∧ s.dev.mayWrite m 5 = false) :=
  ⟨⟨.cutFire .pcie0 1, st { dev0 with host := { dev0.host with pcie := [(0, { d3hot := true })] } }, _, _, rfl, by decide, by decide⟩,
   ⟨.intCauseClear .partner 1, st dev0, _, _, rfl, by decide, by decide, by decide⟩,
   ⟨st noWrites, .qspi, 0x4FFFC, [1, 2, 3, 4], _, _, 2, rfl, by decide, by decide, by decide, by decide, by decide, by decide⟩,
   ⟨st noWrites, .pcie0, BitVec.ofNat 28 (areaEnd - 1), [1, 2], _, _, rfl, by decide, by decide, by decide, by decide, by decide, by decide, by decide⟩⟩

theorem test_witness_bar2_write_frame :
    (∃ (m : Master) (off : BitVec 28) (data : List Byte) (b : Byte) (l : List Byte) (s : State) (k : Nat), data = b :: l ∧ memOk s = true ∧ Live s ∧ s.dev.asleep m = false ∧
    k = (if tooLarge m data.length then 0 else if masterId m = 0x10 then qspiKept .bar2 off.toNat data.length / 4 * 4 else data.length) ∧ s.dev.mayWrite m 5 = true ∧
    0 < k ∧ off.toNat + k = areaEnd + 1) ∧
    (∃ (m : Master) (off : BitVec 28) (data : List Byte) (b : Byte) (l : List Byte) (s : State) (k : Nat), data = b :: l ∧ memOk s = true ∧ Live s ∧ s.dev.asleep m = false ∧
    k = (if tooLarge m data.length then 0 else if masterId m = 0x10 then qspiKept .bar2 off.toNat data.length / 4 * 4 else data.length) ∧ masterId m = 0x10 ∧
    0 < k ∧ off.toNat + 4 = areaLo) :=
  ⟨⟨.mgmt, BitVec.ofNat 28 (areaEnd - 3), [1, 2, 3, 4], _, _, st dev0, _, rfl, by decide, by decide, by decide, rfl, by decide, by decide, by decide⟩,
   ⟨.qspi, BitVec.ofNat 28 (areaLo - 4), List.replicate 9 7, _, _, st dev0, _, rfl, by decide, by decide, by decide, rfl, by decide, by decide, by decide⟩⟩

theorem test_witness_discard_keeps_recipes :
    (∃ d : Dev, ∀ l ∈ d.host.longs, l.state = .running → l.op ≠ 0x0201) ∧
    (∃ d : Dev, ∀ ch, ch < 32 → (d.boxOf ch).go = true → (d.boxOf ch).landed = true ∨ (d.boxOf ch).picked = false) ∧
    (∃ (d : Dev) (l : LongRun), d.discarding = false ∧ l ∈ d.host.longs ∧ l.state = .running) :=
  ⟨⟨dev0, by decide⟩,
   ⟨dev0, by decide⟩,
   ⟨{ dev0 with host := { dev0.host with longs := [{ op := 0x0201, req := rq [0], state := .running }] } }, _, by decide, List.mem_singleton.2 rfl, rfl⟩⟩

theorem test_witness_guard_window_writes_wait :
    ∃ (c : Instr) (s : State) (op : Nat) (read : Bool) (r : Req), requestOf c = some (op, read, r) ∧ Live s ∧
    s.dev.host.bootStage = 3 ∧ s.dev.carries op r = true ∧ s.dev.storedReply r = none ∧ s.dev.refusal op read r = none ∧
    s.dev.defers op read = true :=
  ⟨.cutRelease (rq [3]), st inGuard, _, _, _, rfl, by decide, by decide, by decide, rfl, by decide, by decide⟩

theorem test_witness_sequencer_never_stops :
    ∃ (c : Instr) (s t : State), s.dev.tk.seqRun = true ∧ exec c s = .next t :=
  ⟨.maskApply ⟨0, false⟩, st { dev0 with tk := { dev0.tk with seqRun := true } }, _, by decide, rfl⟩

/-! The spec's worked examples. Each expected value is one that the named example writes out. -/

/-- The edges of a leg of the example cell of chapter 6: POS 13 of 78, tick 16,000,001. -/
def exLeg (m : Rat) : LegOut :=
  selectEdges 800000 20000 (crossings 800000 (13 * 800000 / 156 : Rat) (16000001 * 800000) 800000 820000 m m) (some true) (-100000)

theorem test_example_edges :
    edgeWords (exLeg (1 / 2)).edges = [0x05984B00, 0x08A58B80, 0, 0, 0, 0, 0, 0] ∧
    edgeWords (exLeg (-1 / 2)).edges = [0x028B0B00, 0x0BB2CB80, 0, 0, 0, 0, 0, 0] ∧
    (exLeg (99 / 100)).edges = [] ∧ (exLeg (99 / 100)).swallowed = 1 := by decide +kernel

/-- The fault collector of the example of chapter 10: two trips in one core cycle, and two SRAM errors in another. -/
def exFaults : Dev :=
  let d : Dev := { dev0 with now := 3875, tk := { dev0.tk with seqRun := true, tick := 16000000 }
                             flt := { dev0.flt with lastSeq := 0x116 }
                             trims := [(4, { gateH := true }), (9, { gateH := true })] }
  match execShortTrip { chan := 4, didt := 0xFFFF } [{ chan := 9, didt := 0xFFFF }] (st d) with
  | .next s => (({ s.dev with now := 4250 }).events [(0x070, 0x00120040), (0x071, 0x00804A38)]).hankStep.hankStep.hankStep.hankStep
  | _ => d

theorem test_example_hank_and_first_error :
    (List.range 16).map (fun i => exFaults.faultWord (0x570 + 4 * i)) =
      [0x01170F23, 0x00F42400, 0x20480000, 0x00000204, 0x01180F25, 0x00F42400, 0x20400000, 0x2004FFFF,
       0x0119109A, 0x00F42400, 0x80710000, 0x00804A38, 0x011A109A, 0x00F42400, 0x20700000, 0x00120040] ∧
    [0x10, 0x14, 0x18].map exFaults.faultWord = [0x00F42400, 0x90480000, 0x00000204] := by decide +kernel

/-- The step ticks of the example of chapter 12, with the fault step between them. -/
def exSteps (temps : List Int) : Dev :=
  temps.foldl (fun d t => ({ d with therm := { d.therm with tj := t } }).stepTick)
    { dev0 with tk := { dev0.tk with seqRun := true, tick := 16000000 } }

theorem test_example_thermal_steps :
    [[14758], [14758, 14848], [14758, 14848, 14490], [14758, 14848, 14490, 14054], [14758, 14848, 14490, 14054, 13824]].map
      (fun l => (exSteps l).therm.steps) = [1, 2, 2, 1, 0] ∧
    (exSteps [14758]).therm.limit = 0xF00 ∧ (exSteps [14758, 14848]).therm.limit = 0xE00 := by decide

/-- The save gap of the example of chapter 13. -/
theorem test_example_save_gap :
    let d := dev0.saveGap { rating := 7488000, limit := 0xE00, interval := 60, etaMax := 222822 }
    (d.meter.gapS, d.meter.uncertWh, d.meter.uncertMol) = (60, 109200, 1337) := by decide

/-- The notch of the example of chapter 3: the close is bumpless, and the next tick writes the same output. -/
def exNotch : Inst :=
  { coef := [0x7C7CD967, 0x844EC03D, 0x7C7CD967, 0x844EC03D, 0x78F9B2CD, 0x7FFFFFFF, 0x80000000, 0, 0, 0, 0, 0, 0x8020, 0] }

theorem test_example_notch_close :
    let o := preloadLane 0x03 exNotch {} 0x20000000 0 0 0x20000000
    o.outs = [0x20000000] ∧ o.lane.s1 = o.lane.s2 ∧ (evalBiquad exNotch o.lane 0x20000000 0 0).outs = [0x20000000] := by
  decide

/-- An arm of the example of chapter 5 (the constants of the run), with the demands per cell of deep red, far red, blue
and white. -/
def exArm (p : List Nat) : AArm :=
  { num := 0, usPu := 0, us := 24320, rating := 2496000, pmaxSq := 10 ^ 20
    cells := (List.range 78).map (fun k =>
      let c := if k < 24 then 0 else if k < 45 then 1 else if k < 57 then 2 else 3
      { k := k, ch := c, pr := 32000, p := p.getD c 0, h := 1, tau := 11200, v := 608 }) }
def exFound (p : List Nat) : Found := runStages [exArm p] 10000000 (fun c => [4, 2, 6, 6].getD c 15) 8

theorem test_example_allocator :
    let r := ((exArm [8000, 30000, 6000, 10000]).results fullGrants 8 false).getD 24 (0, [])
    (exFound [8000, 30000, 6000, 10000]).g.take 4 = [1, 1, 1, 1] ∧
    r.2.getD 0 0 = 0x03333333 ∧ r.2.getD 1 0 = 0x0999999A ∧ r.2.getD 3 0 = 0b1011 ∧
    toQ31 (grantOf (exFound [1500, 32000, 1000, 3000]).f3 1) = 0x75800000 := by decide +kernel

theorem test_example_derate_after_cut : ({ minRatio := 0x75800000 } : Channel).stepDerate.derate = 0x7580 := by decide

/-- The doorbell of the example of chapter 18. -/
def exBell (l : List (Dev → Dev)) : Word :=
  ((l.foldl (fun (d : Dev) (f : Dev → Dev) => f d) { dev0 with host := { dev0.host with chans := [(3, { bind0 := 0x80000120, bind1 := 0xFF, seq := 4 })] } }
    ).boxOf 3).doorWord

theorem test_example_doorbell :
    exBell [] = 0x00000004 ∧ exBell [fun d => d.doorbell 3 0x80000000] = 0x80000005 ∧
    exBell [fun d => d.doorbell 3 0x80000000, Dev.discardBoxes] = 0x14000005 ∧
    (let l : List (Dev → Dev) := [fun d => d.doorbell 3 0x80000000, Dev.discardBoxes, fun d => d.doorbell 3 0x80000000,
      fun d => d.pickUp 3, fun d => d.doorbell 3 0, fun d => d.complete 3]
    [3, 4, 5, 6].map (fun n => exBell (l.take n)) = [0x80000006, 0xC0000006, 0xC2000006, 0x12000006]) := by decide

/-- The arm of the example of chapter 2, and the refusals that its bounds name (R55). -/
def exArmed : Dev :=
  { dev0 with tk := { dev0.tk with seqRun := true, tick := 16000000, appliedEpoch := 0x212, commitGuard := 100 }
              recipes := { dev0.recipes with staged := some 1 } }

theorem test_example_arm :
    (exArmed.judgeArm 0x213 16050000 8 false).1 = { status := 0, result := 1 } ∧
    (exArmed.judgeArm 0x213 16000101 8 false).1 = { status := 0, result := 1 } ∧
    (exArmed.judgeArm 0x213 16000100 8 false).1 = { status := 0x0102, reason := 1 } ∧
    (exArmed.judgeArm 0x212 16050000 8 false).1 = { status := 0x0102, reason := 3 } := by decide

/-- The reply delay of device 1,500 in the example of chapter 16: 4.284 ms. -/
theorem test_example_reply_delay :
    ({ dev0 with cfg := { dev0.cfg with devId := 1500 } } : Dev).coordDelay * 8 = 42840000 := by decide

/-- The frame of the example of chapter 17, in buffer 5. -/
theorem test_example_can_frame :
    let e := canElem { cf with id := 0x1A3, fd := true, fast := true, dlc := 9, data := List.replicate 12 0 } 0 0
    e.id = 0x000001A3 ∧ e.ctl = 0xC0900000 ∧ e.lastWord = 5 ∧ ruleDest 0x88050000 = .buffer 5 := by decide

/-- The phase words of the frame of chapter 7, and entry 18 of the table of chapter 2. -/
theorem test_example_phase_words : (phaseWords 12500 0x4000 0x0CCDFF9E 0x00008000).1 = [0x0CCDFF9E, 0x00008000] := by
  decide

theorem test_example_alloc_entry :
    (entryOf [0x30000960, 0, 0, 0]).cls = 3 ∧ (entryOf [0x30000960, 0, 0, 0]).budget = 2400 ∧
    (entryOf [0x30000960, 0, 0, 0]).unit = 0 := by decide

end Sys2Proof.Tests
end

section
/-!
PROOFS. How a command reaches its meaning: the rules for a live main logic, for a register access that reaches its
register, and for an Iapin request that the firmware takes. The proofs about single commands rest on these rules.
-/

namespace Sys2Proof.Proofs

open Sys2Proof.Machine Sys2Proof.Safety

variable {s : State} {m : Master} {f : Dev → Dev}

/-- A meaning of the main logic acts on the device when the main logic runs (R436). -/
theorem onMain_of_live (hlive : Live s) : onMain f s = .next (withDev s (f s.dev)) := by
  have hheld : ¬ s.dev.pwr.held = true := by simp [hlive]
  simp only [onMain, onDev, withDev, if_neg hheld]

/-- The test for a sleeping port passes an access of a master that is awake (R392). -/
theorem onMain_of_awake (hlive : Live s) (hawake : s.dev.asleep m = false) :
    onMain (fun d => if d.asleep m then d.unsupported m else f d) s = .next (withDev s (f s.dev)) := by
  rw [onMain_of_live hlive, hawake]
  rfl

/-- A register read of a master that is awake is served (R392, R397). -/
theorem onMain_served (hread : MayRead m s) : onMain (fun d => d.served m f) s = .next (withDev s (f s.dev)) :=
  onMain_of_awake hread.1 hread.2

/-- A register write that the access table permits acts (R392, R397). -/
theorem onMain_guarded {block : Nat} (hwrite : MayWrite m block s) :
    onMain (fun d => d.guarded m block f) s = .next (withDev s (f s.dev)) := by
  obtain ⟨hlive, hawake, hperm⟩ := hwrite
  have hguard : s.dev.guarded m block f = f s.dev := by simp [Dev.guarded, hawake, hperm]
  rw [onMain_of_live hlive, hguard]

/-- A served request is taken with the reply and the device that its body gives (R411, R413, R430, R432). -/
theorem onMain_iapin_served {op : Nat} {b : Bool} {r : Req} {read : Req → Bool} {body : Body} {p : Rep} {d : Dev}
    (hserved : Served op b r s) (hread : read r = b) (hbody : body r s.dev = (p, d)) :
    onMain (iapin op read body r) s = .next (taken op b r p d s) := by
  obtain ⟨hlive, hstage, hstored, hrefusal, hdefers, hcarries⟩ := hserved
  have htaken : iapin op read body r s.dev = (d.give op b r p).logWrite op b r p := by
    simp [iapin, carryOut, iapinBody, hread, hstage, hcarries, hstored, hrefusal, hdefers, hbody]
  rw [onMain_of_live hlive, htaken, taken]

/-- Two changes of a mailbox channel that agree on the channel as it stands make the same device. -/
theorem modBox_congr {d : Dev} {ch : Nat} {f g : Chan → Chan} (h : f (d.boxOf ch) = g (d.boxOf ch)) :
    d.modBox ch f = d.modBox ch g := by
  have hchan : f (tblGet {} d.host.chans ch) = g (tblGet {} d.host.chans ch) := h
  simp only [Dev.modBox, tblMod, hchan]

end Sys2Proof.Proofs
end

section
/-!
PROOFS. SEVERITY, STOP_TH and THERMAL with operands in their ranges (R242, R285).
-/

namespace Sys2Proof.Proofs

open Sys2Proof.Machine Sys2Proof.Safety

theorem exec_severity (r : Req) (s : State) : exec (.severity r) s = onMain (iapin 0x0010 writes bodySeverity r) s := rfl

theorem exec_stopTh (r : Req) (s : State) : exec (.stopTh r) s = onMain (iapin 0x0011 writes bodyStopTh r) s := rfl

theorem exec_thermal (r : Req) (s : State) : exec (.thermal r) s = onMain (iapin 0x0012 writes bodyThermal r) s := rfl

/-- A severity between the least that the source allows and 5 waits for the boundary (R242). -/
theorem bodySeverity_in_range {r : Req} {dflt lo : Nat} (d : Dev)
    (hsrc : sevDefault (bits (arg r 2) 8 0) = some (dflt, lo)) (hlo : lo ≤ bits (arg r 3) 2 0)
    (hhi : bits (arg r 3) 2 0 ≤ 5) :
    bodySeverity r d = d.doneAtTick r (.severity (bits (arg r 2) 8 0) (bits (arg r 3) 2 0)) := by
  have hrange : ¬ (5 < bits (arg r 3) 2 0 ∨ bits (arg r 3) 2 0 < lo) := by omega
  simp only [bodySeverity, hsrc, if_neg hrange]

/-- A stop threshold from 1 to 5 waits for the boundary (R242). -/
theorem bodyStopTh_in_range {r : Req} (d : Dev) (hlo : 1 ≤ bits (arg r 2) 2 0) (hhi : bits (arg r 2) 2 0 ≤ 5) :
    bodyStopTh r d = d.doneAtTick r (.stopTh (bits (arg r 2) 2 0)) := by
  have hrange : ¬ (bits (arg r 2) 2 0 = 0 ∨ 5 < bits (arg r 2) 2 0) := by omega
  simp only [bodyStopTh, if_neg hrange]

/-- A thermal parameter in the range of its row waits for the boundary (R285). -/
theorem bodyThermal_in_range {r : Req} {lo hi : Int} (d : Dev)
    (hrow : thermalRange (bits (arg r 2) 2 0) = some (lo, hi)) (hlo : lo ≤ sval (arg r 3)) (hhi : sval (arg r 3) ≤ hi) :
    bodyThermal r d = d.doneAtTick r (.thermal (bits (arg r 2) 2 0) (sval (arg r 3))) := by
  have hrange : ¬ (sval (arg r 3) < lo ∨ hi < sval (arg r 3)) := by omega
  simp only [bodyThermal, hrow, if_neg hrange]

/-- Settles O2: each body passes its range checks and hands its operands to the list that lands at tick. -/
theorem faultSettingsLandAtTick : Obligations.FaultSettingsLandAtTick := by
  refine ⟨?severity, ?stopTh, ?thermal⟩
  case severity =>
    intro s r dflt lo hserved hsrc hlo hhi
    rw [exec_severity]
    exact onMain_iapin_served hserved rfl (bodySeverity_in_range s.dev hsrc hlo hhi)
  case stopTh =>
    intro s r hserved hlo hhi
    rw [exec_stopTh]
    exact onMain_iapin_served hserved rfl (bodyStopTh_in_range s.dev hlo hhi)
  case thermal =>
    intro s r lo hi hserved hrow hlo hhi
    rw [exec_thermal]
    exact onMain_iapin_served hserved rfl (bodyThermal_in_range s.dev hrow hlo hhi)

end Sys2Proof.Proofs
end

section
/-!
PROOFS. ARM, ABORT, UNSTAGE and the read of TICK_LO (R52 to R60, R429).
-/

namespace Sys2Proof.Proofs

open Sys2Proof.Machine Sys2Proof.Safety

variable {r : Req} {d : Dev}

theorem exec_arm (r : Req) (s : State) : exec (.arm r) s = onMain (iapin 0x0701 writes bodyArm r) s := rfl

theorem exec_abort (r : Req) (s : State) : exec (.abort r) s = onMain (iapin 0x0702 writes bodyAbort r) s := rfl

theorem exec_unstage (r : Req) (s : State) : exec (.unstage r) s = onMain (iapin 0x0706 writes bodyUnstage r) s := rfl

theorem exec_tickLoRead (m : Master) (b : ReadBytes) (s : State) :
    exec (.tickLoRead ⟨m, b⟩) s = onMain (fun d => d.served m (Dev.readTickLo b)) s := rfl

/-- An arm that nothing refuses is pending with its epoch, target, set and campus bit, and with the staged slot (R55, R56). -/
theorem bodyArm_armed (hset : bits (arg r 5) 31 6 = 0)
    (hnone : d.armRefusal (arg r 2).toNat (join48 (arg r 3) (arg r 4)) (arg r 5).toNat (bit (arg r 6) 0) = none) :
    bodyArm r d = (d.judgeReply { status := 0, result := 1 },
      { d with tk := { d.tk with
          commit := .armed, epoch := arg r 2, target := join48 (arg r 3) (arg r 4), set := (arg r 5).toNat
          campus := bit (arg r 6) 0 }, recipes := { d.recipes with armed := d.recipes.staged } }) := by
  have hepoch : word (arg r 2).toNat = arg r 2 := by rw [word, BitVec.ofNat_toNat, BitVec.setWidth_eq]
  simp [bodyArm, Dev.judgeArm, hset, hnone, hepoch]

/-- An arm that is refused answers the first reason of R55 and arms nothing. -/
theorem bodyArm_refused {reason status : Nat} (hset : bits (arg r 5) 31 6 = 0)
    (hsome : d.armRefusal (arg r 2).toNat (join48 (arg r 3) (arg r 4)) (arg r 5).toNat (bit (arg r 6) 0)
      = some (reason, status)) :
    bodyArm r d = (d.judgeReply { status := status, reason := reason }, d) := by
  simp [bodyArm, Dev.judgeArm, hset, hsome]

/-- With no commit pending there is nothing to abort (R56). -/
theorem judgeAbort_idle (e : Nat) (hidle : d.tk.commit = .idle) : d.judgeAbort e = ({ status := 0, result := 3 }, d) := by
  simp [Dev.judgeAbort, hidle]

/-- Before the commit guard of its target an armed epoch is disarmed (R56). -/
theorem judgeAbort_in_time (harmed : d.tk.commit = .armed) (htime : d.tk.tick + d.tk.commitGuard < d.tk.target) :
    d.judgeAbort d.tk.epoch.toNat = ({ status := 0, result := 2 }, { d with tk := d.tk.disarm }) := by
  simp [Dev.judgeAbort, harmed, htime]

/-- An abort that names another epoch than the armed one is a bad argument (R56). -/
theorem judgeAbort_other_epoch {e : Nat} (harmed : d.tk.commit = .armed) (hepoch : d.tk.epoch.toNat ≠ e) :
    d.judgeAbort e = ({ status := 0x0102 }, d) := by
  simp [Dev.judgeAbort, harmed, hepoch]

/-- From the commit guard of its target on the armed epoch stays armed (R56). -/
theorem judgeAbort_late (harmed : d.tk.commit = .armed) (htime : d.tk.target ≤ d.tk.tick + d.tk.commitGuard) :
    d.judgeAbort d.tk.epoch.toNat = ({ status := 0x0103, result := 4 }, d) := by
  have hlate : ¬ d.tk.tick + d.tk.commitGuard < d.tk.target := by omega
  simp [Dev.judgeAbort, harmed, hlate]

/-- A commit that is under way is not aborted (R56). -/
theorem judgeAbort_committed (e : Nat) (hcommitted : d.tk.commit = .committed) :
    d.judgeAbort e = ({ status := 0x0103, result := 4 }, d) := by
  simp [Dev.judgeAbort, hcommitted]

/-- An ABORT answers its judgement and leaves the device that the judgement leaves (R429). -/
theorem bodyAbort_of_judgeAbort {j : Judgement} {d' : Dev} (hjudge : d.judgeAbort (arg r 2).toNat = (j, d')) :
    bodyAbort r d = (d.judgeReply j, d') := by
  simp only [bodyAbort, hjudge]

/-- Staged contents that no pending commit names, and the warp bank only of a running sequencer, are dropped at once (R429). -/
theorem bodyUnstage_drops (hset : (arg r 2).toNat < 64)
    (hfree : d.tk.commit = .idle ∨ d.tk.set &&& (arg r 2).toNat = 0)
    (hbank : nbit (arg r 2).toNat 0 = true → d.tk.seqRun = true) :
    bodyUnstage r d = (.ok [(d.dropStaged (arg r 2).toNat).nowTick], d.dropStaged (arg r 2).toNat) := by
  have hrange : ¬ 64 ≤ (arg r 2).toNat := by omega
  have hunarmed : (d.tk.commit != .idle && decide (d.tk.set &&& (arg r 2).toNat ≠ 0)) = false := by
    rcases hfree with h | h <;> simp [h]
  have hrun : (nbit (arg r 2).toNat 0 && !d.tk.seqRun) = false := by
    cases hb : nbit (arg r 2).toNat 0 with
    | false => rfl
    | true => simp [hbank hb]
  simp only [bodyUnstage, if_neg hrange, hunarmed, hrun, Dev.doneNow, Bool.false_eq_true, if_false]

/-- Settles O6: each reply and each device left is that of the judgement of R55, R56 or R429 that the premises choose. -/
theorem modeCommitCommands : Obligations.ModeCommitCommands := by
  refine ⟨?armed, ?refused, ?idle, ?inTime, ?otherEpoch, ?tooLate, ?unstage, ?tickLo⟩
  case armed =>
    intro s r hserved hset hnone
    rw [exec_arm]
    exact onMain_iapin_served hserved rfl (bodyArm_armed hset hnone)
  case refused =>
    intro s r reason status hserved hset hsome
    rw [exec_arm]
    exact onMain_iapin_served hserved rfl (bodyArm_refused hset hsome)
  case idle =>
    intro s r hserved hidle
    rw [exec_abort]
    exact onMain_iapin_served hserved rfl (bodyAbort_of_judgeAbort (judgeAbort_idle _ hidle))
  case inTime =>
    intro s r hserved harmed hepoch htime
    rw [exec_abort]
    exact onMain_iapin_served hserved rfl (bodyAbort_of_judgeAbort (hepoch ▸ judgeAbort_in_time harmed htime))
  case otherEpoch =>
    intro s r hserved harmed hepoch
    have hother : s.dev.tk.epoch.toNat ≠ (arg r 2).toNat := fun h => hepoch (BitVec.eq_of_toNat_eq h)
    rw [exec_abort]
    exact onMain_iapin_served hserved rfl (bodyAbort_of_judgeAbort (judgeAbort_other_epoch harmed hother))
  case tooLate =>
    intro s r hserved hlate
    have hjudge : s.dev.judgeAbort (arg r 2).toNat = ({ status := 0x0103, result := 4 }, s.dev) := by
      obtain ⟨harmed, hepoch, htime⟩ | hcommitted := hlate
      · exact hepoch ▸ judgeAbort_late harmed htime
      · exact judgeAbort_committed _ hcommitted
    rw [exec_abort]
    exact onMain_iapin_served hserved rfl (bodyAbort_of_judgeAbort hjudge)
  case unstage =>
    intro s r d hserved hset hfree hbank hd
    subst hd
    rw [exec_unstage]
    exact onMain_iapin_served hserved rfl (bodyUnstage_drops hset hfree hbank)
  case tickLo =>
    intro s m b hread
    rw [exec_tickLoRead, onMain_served hread]
    rfl

end Sys2Proof.Proofs
end

section
/-!
PROOFS. BIND_LOCK and the fallback queues (R398, R406, R407, R443).
-/

namespace Sys2Proof.Proofs

open Sys2Proof.Machine Sys2Proof.Safety

theorem exec_bindLock (m : Master) (s : State) : exec (.bindLock m) s = onMain (fun d =>
    if d.asleep m then d.unsupported m else if masterId m = 0x20 then d.lockBinding else d.violation m) s := rfl

theorem exec_fwdDataPush (m : Master) (ch : Fin 32) (v : Word) (s : State) :
    exec (.fwdDataPush m ch v) s = onMain (fun d => if d.asleep m then d.unsupported m else
      if (d.requesters ch.val).contains (masterId m) then d.pushFwd ch.val v else d.violation m) s := rfl

theorem exec_backDataPush (m : Master) (ch : Fin 32) (v : Word) (s : State) :
    exec (.backDataPush m ch v) s = onMain (fun d => if d.asleep m then d.unsupported m else
      if (d.responders ch.val).contains (masterId m) then d.pushBack ch.val v else d.violation m) s := rfl

theorem exec_fwdDataPop (m : Master) (b : ReadBytes) (ch : Fin 32) (s : State) :
    exec (.fwdDataPop ⟨m, b⟩ ch) s =
      onMain (fun d => if d.asleep m then d.unsupported m else d.popFwd ⟨m, b⟩ ch.val) s := rfl

theorem exec_backDataPop (m : Master) (b : ReadBytes) (ch : Fin 32) (s : State) :
    exec (.backDataPop ⟨m, b⟩ ch) s =
      onMain (fun d => if d.asleep m then d.unsupported m else d.popBack ⟨m, b⟩ ch.val) s := rfl

variable {s : State} {m : Master} {ch : Fin 32}

/-- Out of recovery the first lock takes, and a device in boot stage 2 goes on to stage 3 (R398, R443). -/
theorem lockBinding_first {d : Dev} (hopen : d.host.bindLocked = false) (hstage : d.host.bootStage ≠ 0xF) :
    d.lockBinding =
      if d.host.bootStage = 2 then (d.edge { d with host := { d.host with bindLocked := true } } 3).setStage 3
      else d.edge { d with host := { d.host with bindLocked := true } } 3 := by
  simp [Dev.lockBinding, hopen, hstage]

/-- In recovery the table is not locked (R398). -/
theorem lockBinding_recovery {d : Dev} (hstage : d.host.bootStage = 0xF) : d.lockBinding = d := by
  simp [Dev.lockBinding, hstage]

/-- The management processor's BIND_LOCK locks the table (R398). -/
theorem bindLock_of_mgmt (hlive : Live s) (hawake : s.dev.asleep m = false) (hmgmt : masterId m = 0x20) :
    exec (.bindLock m) s = .next (withDev s s.dev.lockBinding) := by
  rw [exec_bindLock, onMain_of_awake hlive hawake, if_pos hmgmt]

/-- A responder takes the head of FWD, or zero from an empty queue, whatever stands behind it (R406, R407). -/
theorem fwdDataPop_of_responder {b : ReadBytes} {w : Word} {rest : List Word} (hlive : Live s)
    (hawake : s.dev.asleep m = false) (hside : (s.dev.responders ch.val).contains (masterId m) = true)
    (hhead : (s.dev.boxOf ch.val).fwd.headD 0 = w) (htail : (s.dev.boxOf ch.val).fwd.tail = rest) :
    exec (.fwdDataPop ⟨m, b⟩ ch) s = .next (withDev s
      (((s.dev.modBox ch.val (fun c => { c with fwd := rest })).recoveryWord ch.val w).giveBytes b w)) := by
  have hbox : s.dev.modBox ch.val (fun c => { c with fwd := c.fwd.tail }) =
      s.dev.modBox ch.val (fun c => { c with fwd := rest }) := modBox_congr (by rw [htail])
  rw [exec_fwdDataPop, onMain_of_awake hlive hawake, Dev.popFwd, if_pos hside, hhead, hbox]

/-- A requester takes the head of BACK, or zero from an empty queue (R406). -/
theorem backDataPop_of_requester {b : ReadBytes} {w : Word} {rest : List Word} (hlive : Live s)
    (hawake : s.dev.asleep m = false) (hside : (s.dev.requesters ch.val).contains (masterId m) = true)
    (hhead : (s.dev.boxOf ch.val).back.headD 0 = w) (htail : (s.dev.boxOf ch.val).back.tail = rest) :
    exec (.backDataPop ⟨m, b⟩ ch) s = .next (withDev s
      ((s.dev.modBox ch.val (fun c => { c with back := rest })).giveBytes b w)) := by
  have hbox : s.dev.modBox ch.val (fun c => { c with back := c.back.tail }) =
      s.dev.modBox ch.val (fun c => { c with back := rest }) := modBox_congr (by rw [htail])
  rw [exec_backDataPop, onMain_of_awake hlive hawake, Dev.popBack, if_pos hside, hhead, hbox]

/-- Settles O11: the lock acts for the management processor alone, and each queue for the side that the binding names. -/
theorem mailboxQueuesAndLock : Obligations.MailboxQueuesAndLock := by
  refine ⟨?lock, ?recovery, ?pushFwd, ?pushBack, ?popFwd, ?popFwdEmpty, ?popBack, ?popBackEmpty⟩
  case lock =>
    intro s m d hlive hawake hmgmt hopen hstage hd
    rw [bindLock_of_mgmt hlive hawake hmgmt, lockBinding_first hopen hstage, hd]
  case recovery =>
    intro s m hlive hawake hmgmt hstage
    rw [bindLock_of_mgmt hlive hawake hmgmt, lockBinding_recovery hstage]
  case pushFwd =>
    intro s m ch v hlive hawake hside
    rw [exec_fwdDataPush, onMain_of_awake hlive hawake, if_pos hside]
  case pushBack =>
    intro s m ch v hlive hawake hside
    rw [exec_backDataPush, onMain_of_awake hlive hawake, if_pos hside]
  case popFwd =>
    intro s m ch b w rest hlive hawake hside hqueue
    exact fwdDataPop_of_responder hlive hawake hside (by rw [hqueue]; rfl) (by rw [hqueue]; rfl)
  case popFwdEmpty =>
    intro s m ch b hlive hawake hside hqueue
    exact fwdDataPop_of_responder hlive hawake hside (by rw [hqueue]; rfl) (by rw [hqueue]; rfl)
  case popBack =>
    intro s m ch b w rest hlive hawake hside hqueue
    exact backDataPop_of_requester hlive hawake hside (by rw [hqueue]; rfl) (by rw [hqueue]; rfl)
  case popBackEmpty =>
    intro s m ch b hlive hawake hside hqueue
    exact backDataPop_of_requester hlive hawake hside (by rw [hqueue]; rfl) (by rw [hqueue]; rfl)

end Sys2Proof.Proofs
end

section
/-!
PROOFS. TICK_SYNC pulses (R36, R151), the hold limit (R339, R340), and the captures of the time bases (R345).
-/

namespace Sys2Proof.Proofs

open Sys2Proof.Machine Sys2Proof.Safety

theorem exec_tickSyncIn (fine : Fin 64) (s : State) : exec (.tickSyncIn fine) s = onMain (fun d =>
    if d.tk.alignSrc ≠ 3 then d else if d.tk.seqRun then d.syncPulse fine.val else d.startPulse) s := rfl

theorem exec_holdLimitExpiry (n : Fin 2) (s : State) : exec (.holdLimitExpiry n) s = onMain (fun d =>
    if (d.baseOf n.val).state == .holdover && decide ((d.baseOf n.val).holdLimit ≠ 0) &&
        decide ((d.baseOf n.val).holdLimit < (d.baseOf n.val).holdCount / 1250000000) then
      forEach (List.range d.portCount) (fun p d => d.settlePort p) ((d.invalidate n.val).markBases d)
    else d) s := rfl

theorem exec_tbRecordRead (m : Master) (b : ReadBytes) (n : Fin 4) (s : State) :
    exec (.tbRecordRead ⟨m, b⟩ n) s = onMain (fun d => d.served m (Dev.readTb ⟨m, b⟩ n.val)) s := rfl

theorem exec_tbSnapReq (m : Master) (v : Word) (s : State) : exec (.tbSnapReq m v) s =
    onMain (fun d => d.guarded m 4 (fun d => if bit v 0 then d.snapTb else d)) s := rfl

variable {s : State} {fine : Fin 64}

/-- A pulse of a running sequencer that is aligned by TICK_SYNC is measured (R151). -/
theorem tickSyncIn_running (hlive : Live s) (hsrc : s.dev.tk.alignSrc = 3) (hrun : s.dev.tk.seqRun = true) :
    exec (.tickSyncIn fine) s = .next (withDev s (s.dev.syncPulse fine.val)) := by
  rw [exec_tickSyncIn, onMain_of_live hlive, if_neg (not_not_intro hsrc), if_pos hrun]

/-- A pulse while the sequencer does not run may be the first boundary (R36). -/
theorem tickSyncIn_stopped (hlive : Live s) (hsrc : s.dev.tk.alignSrc = 3) (hrun : s.dev.tk.seqRun = false) :
    exec (.tickSyncIn fine) s = .next (withDev s s.dev.startPulse) := by
  rw [exec_tickSyncIn, onMain_of_live hlive, if_neg (not_not_intro hsrc), hrun, if_neg Bool.false_ne_true]

/-- Distance of a pulse from its expected place, in sixty-fourths of a core cycle (R151). -/
def pulseError (d : Dev) (fine : Nat) : Int :=
  centred ((64 * d.cyc + fine : Nat) - (64 * d.tk.syncDelay : Nat)) (64 * d.tickCycles)

/-- Before a first alignment, or within 1 us of its place, a pulse sets the offset (R151). -/
theorem syncPulse_taken {d : Dev} {fine : Nat} (hnear : d.tk.alignEver = false ∨ (pulseError d fine).natAbs ≤ 80000) :
    d.syncPulse fine = { d with tk := { d.tk with
      syncNew := true, syncSeen := true, syncMiss := 0, syncOffset := -pulseError d fine } } := by
  have hstray : ¬ (d.tk.alignEver && decide (80000 < (pulseError d fine).natAbs)) = true := by
    rcases hnear with h | h <;> simp [h]
  exact if_neg hstray

/-- After a first alignment a pulse more than 1 us off its place is a stray one (R151). -/
theorem syncPulse_stray {d : Dev} {fine : Nat} (hever : d.tk.alignEver = true) (hfar : 80000 < (pulseError d fine).natAbs) :
    d.syncPulse fine = { d with tk := { d.tk with
      syncStray := true, strayCount := satInc 16 d.tk.strayCount } } := by
  have hstray : (d.tk.alignEver && decide (80000 < (pulseError d fine).natAbs)) = true := by simp [hever, hfar]
  exact if_pos hstray

/-- The first pulse at least 1 ms after the start is kept with its tick (R36). -/
theorem startPulse_first {d : Dev} (hstarting : d.tk.starting.isSome = true) (hfirst : d.tk.firstPulse = none)
    (hwait : d.tk.startAt + startWait ≤ d.now) :
    d.startPulse = { d with tk := { d.tk with firstPulse := some (d.now, d.firstTick) } } := by
  simp [Dev.startPulse, hstarting, hfirst, hwait]

/-- Settles O20: pulses by the measure of R151, the hold limit by the test of R340, and the captures by R345. -/
theorem tickSyncAndTimeBases : Obligations.TickSyncAndTimeBases := by
  refine ⟨?taken, ?stray, ?first, ?holdLimit, ?record, ?snapshot⟩
  case taken =>
    intro s fine x hlive hsrc hrun hx hnear
    subst hx
    rw [tickSyncIn_running hlive hsrc hrun, syncPulse_taken hnear, pulseError]
  case stray =>
    intro s fine hlive hsrc hrun hever hfar
    rw [tickSyncIn_running hlive hsrc hrun, syncPulse_stray hever hfar]
  case first =>
    intro s fine hlive hsrc hrun hstarting hfirst hwait
    rw [tickSyncIn_stopped hlive hsrc hrun, startPulse_first hstarting hfirst hwait]
  case holdLimit =>
    intro s n hlive hstate hset hover
    rw [exec_holdLimitExpiry, onMain_of_live hlive, if_pos (by simp [hstate, hset, hover])]
  case record =>
    intro s m n b hread
    rw [exec_tbRecordRead, onMain_served hread]
    rfl
  case snapshot =>
    intro s m v hwrite
    rw [exec_tbSnapReq, onMain_guarded hwrite]

end Sys2Proof.Proofs
end

section
/-!
PROOFS. The hosts' accesses of the CAN controllers (R378 to R383, R387, R388).
-/

namespace Sys2Proof.Proofs

open Sys2Proof.Machine Sys2Proof.Safety

theorem exec_bufferLockRead (m : Master) (y : ReadBytes) (c : Fin 4) (b : Fin 64) (s : State) :
    exec (.bufferLockRead ⟨m, y⟩ c b) s = onMain (fun d => d.served m (Dev.readBufferHead ⟨m, y⟩ c.val b.val)) s := rfl

theorem exec_bufferReleaseRead (m : Master) (y : ReadBytes) (c : Fin 4) (b : Fin 64) (i : Fin 19) (s : State) :
    exec (.bufferReleaseRead ⟨m, y⟩ c b i) s =
      onMain (fun d => d.served m (Dev.readBufferWord ⟨m, y⟩ c.val b.val i.val)) s := rfl

theorem exec_lockedForceRelease (m : Master) (c : Fin 4) (half : Fin 2) (v : Word) (s : State) :
    exec (.lockedForceRelease m c half v) s = onMain (fun d => d.guarded m canBlock (fun d =>
      forEach (maskBits 32 v.toNat) (fun i d => d.modCan c.val (fun k => k.modBuf (32 * half.val + i) (fun x =>
        if x.holder.isSome then x.unlock false else x))) d)) s := rfl

theorem exec_rxqRelease (m : Master) (c : Fin 4) (f : Fin 2) (v : Word) (s : State) :
    exec (.rxqRelease m c f v) s = onMain (fun d => d.guarded m canBlock (fun d =>
      d.modCan c.val (fun k => k.setFifo f.val ((k.fifo f.val).release (bits v 6 0))))) s := rfl

theorem exec_txPush (m : Master) (c : Fin 4) (v : Word) (s : State) :
    exec (.txPush m c v) s = onMain (fun d => d.guarded m canBlock (fun d => d.txPush c.val v)) s := rfl

theorem exec_txFlush (m : Master) (c : Fin 4) (v : Word) (s : State) :
    exec (.txFlush m c v) s = onMain (fun d => d.guarded m canBlock (fun d => d.txFlush c.val v)) s := rfl

theorem exec_configSet (m : Master) (c : Fin 4) (v : Word) (s : State) : exec (.configSet m c v) s =
    onMain (fun d => d.guarded m canBlock (fun d =>
      d.modCan c.val (fun x => x.writeModeCtrl d.now (v ||| 0x80000000)))) s := rfl

theorem exec_configClear (m : Master) (c : Fin 4) (v : Word) (s : State) : exec (.configClear m c v) s =
    onMain (fun d => d.guarded m canBlock (fun d =>
      d.modCan c.val (fun x => x.writeModeCtrl d.now (v &&& 0x7FFFFFFF)))) s := rfl

variable {m : Master} {y : ReadBytes} {c n i : Nat} {v : Word} {d : Dev}

/-- The holder's read of the last word releases the buffer (R378, R379). -/
theorem readBufferWord_last (hholder : ((d.canOf c).buf n).holder = some (masterId m))
    (hlast : i = ((d.canOf c).buf n).elem.lastWord) :
    Dev.readBufferWord ⟨m, y⟩ c n i d = (d.modCan c (fun k => k.modBuf n (fun x => x.unlock true))).giveBytes y
      (wat ((d.canOf c).buf n).elem.words i) := by
  simp [Dev.readBufferWord, hholder, ← hlast]

/-- A read of another word, or by a master that does not hold the buffer, changes no lock (R378). -/
theorem readBufferWord_other (hother : ((d.canOf c).buf n).holder ≠ some (masterId m) ∨
      i ≠ ((d.canOf c).buf n).elem.lastWord) :
    Dev.readBufferWord ⟨m, y⟩ c n i d = d.giveBytes y (wat ((d.canOf c).buf n).elem.words i) := by
  have hkeep : (((d.canOf c).buf n).holder == some (masterId m) && i == ((d.canOf c).buf n).elem.lastWord) = false := by
    rcases hother with h | h <;> simp [h]
  simp only [Dev.readBufferWord, hkeep, Bool.false_eq_true, if_false]

/-- A push appends the transmit buffer and may start the bus, and goes with the rest while a discard is open (R382, R388). -/
theorem txPush_eq : d.txPush c v =
    if bit v 0 = false then d
    else if d.discardOpen then (d.modCan c Can.push).emptyTx c
    else (d.modCan c Can.push).kickCan c := by
  cases hbit : bit v 0 <;> simp [Dev.txPush, hbit]

/-- A flush drops the frames that wait (R383). -/
theorem txFlush_eq : d.txFlush c v = if bit v 0 = false then d else d.emptyTx c := by
  cases hbit : bit v 0 <;> simp [Dev.txFlush, hbit]

/-- Settles O42: reads by the holder's rule of R378, writes that the access table permits by R380 to R387. -/
theorem canHostAccesses : Obligations.CanHostAccesses := by
  refine ⟨?lock, ?lastWord, ?otherWord, ?forceRelease, ?release, ?push, ?flush, ?configSet, ?configClear⟩
  case lock =>
    intro s m c b y hread _
    rw [exec_bufferLockRead, onMain_served hread]
    rfl
  case lastWord =>
    intro s m c b i y x hread hx hholder hlast
    subst hx
    rw [exec_bufferReleaseRead, onMain_served hread, readBufferWord_last hholder hlast]
  case otherWord =>
    intro s m c b i y x hread hx hother
    subst hx
    rw [exec_bufferReleaseRead, onMain_served hread, readBufferWord_other hother]
  case forceRelease =>
    intro s m c half v hwrite
    rw [exec_lockedForceRelease, onMain_guarded hwrite]
  case release =>
    intro s m c f v hwrite
    rw [exec_rxqRelease, onMain_guarded hwrite]
  case push =>
    intro s m c v p d hwrite hp hd
    subst hp hd
    rw [exec_txPush, onMain_guarded hwrite, txPush_eq]
    rfl
  case flush =>
    intro s m c v d hwrite hd
    subst hd
    rw [exec_txFlush, onMain_guarded hwrite, txFlush_eq]
    rfl
  case configSet =>
    intro s m c v hwrite
    rw [exec_configSet, onMain_guarded hwrite]
  case configClear =>
    intro s m c v hwrite
    rw [exec_configClear, onMain_guarded hwrite]

end Sys2Proof.Proofs
end

section
/-!
PROOFS. The state after reset (R14, R395).
-/

namespace Sys2Proof.Proofs

open Sys2Proof.Machine Sys2Proof.Safety

/-- A memory that lists no byte is in canonical form. -/
theorem memory_wf_nil : Memory.wf [] = true := rfl

/-- After reset neither memory lists a byte. -/
theorem memOk_reset : memOk State.reset = true :=
  Bool.and_eq_true_iff.mpr ⟨memory_wf_nil, memory_wf_nil⟩

/-- Settles O48: the reset state is the one whose fields stand at their defaults. -/
theorem memoriesCanonicalAtReset : Obligations.MemoriesCanonicalAtReset :=
  ⟨memOk_reset, rfl, rfl, rfl⟩

end Sys2Proof.Proofs
end

section
/-!
PROOFS. The boundaries of the tick, the counted period before the first boundary, and the guard window (R28, R34 to R39).
-/

namespace Sys2Proof.Proofs

open Sys2Proof.Machine Sys2Proof.Safety

theorem exec_tickBoundary (b : BoundaryIn) (s : State) : exec (.tickBoundary b) s = execTickBoundary b s := rfl

theorem exec_firstBoundary (b : BoundaryIn) (s : State) : exec (.firstBoundary b) s = execFirstBoundary b s := rfl

theorem exec_tickPeriodEnd (s : State) : exec .tickPeriodEnd s = execTickPeriodEnd s := rfl

theorem exec_guardWindow (g : GuardIn) (s : State) : exec (.guardWindow g) s = execGuardWindow g s := rfl

variable {s : State} {b : BoundaryIn} {k : Nat}

/-- The boundary of a running sequencer ends its tick, judges the frames of that tick, and opens the next (R28, R35). -/
theorem tickBoundary_running {d : Dev} (hlive : Live s) (hrun : s.dev.tk.seqRun = true)
    (hd : d = (s.dev.advanceTo s.dev.tickCycles).judgeWaiting) :
    exec (.tickBoundary b) s = .next (withDev s
      (((d.openTick (d.tk.tick + 1) d.now).atBoundary b).takeDeferred)) := by
  rw [exec_tickBoundary, execTickBoundary, onMain_of_live hlive, if_pos hrun, hd]

/-- A start without an alignment source begins its ticks at once (R36). -/
theorem firstBoundary_unaligned (hlive : Live s) (hstart : s.dev.tk.starting = some k) (hsrc : s.dev.tk.alignSrc = 0) :
    exec (.firstBoundary b) s = .next (withDev s (s.dev.beginTicks k s.dev.firstTick s.dev.now b)) := by
  have hpulse : ¬ s.dev.tk.alignSrc = 3 := by omega
  rw [exec_firstBoundary, execFirstBoundary, onMain_of_live hlive]
  simp only [hstart, if_neg hpulse, if_pos hsrc]

/-- A start aligned to a time base begins its ticks where that base reaches a multiple of the tick length (R36). -/
theorem firstBoundary_timeBase (hlive : Live s) (hstart : s.dev.tk.starting = some k)
    (hsrc : s.dev.tk.alignSrc = 1 ∨ s.dev.tk.alignSrc = 2) :
    exec (.firstBoundary b) s =
      .next (withDev s (s.dev.toFirst.2.beginTicks k s.dev.toFirst.1 s.dev.toFirst.2.now b)) := by
  have hpulse : ¬ s.dev.tk.alignSrc = 3 := by omega
  have hbase : ¬ s.dev.tk.alignSrc = 0 := by omega
  rw [exec_firstBoundary, execFirstBoundary, onMain_of_live hlive]
  simp only [hstart, if_neg hpulse, if_neg hbase]

/-- A start aligned by TICK_SYNC begins its ticks at the pulse that has come, with the tick of that pulse (R36). -/
theorem firstBoundary_pulse {p : Nat × Nat} (hlive : Live s) (hstart : s.dev.tk.starting = some k)
    (hsrc : s.dev.tk.alignSrc = 3) (hpulse : s.dev.tk.firstPulse = some p) :
    exec (.firstBoundary b) s = .next (withDev s (s.dev.beginTicks k p.2 p.1 b)) := by
  rw [exec_firstBoundary, execFirstBoundary, onMain_of_live hlive]
  simp only [hstart, if_pos hsrc, hpulse]

/-- While the sequencer does not run, the end of a counted period starts the next and lands what waits for tick (R486). -/
theorem tickPeriodEnd_stopped {a e : Dev} {q : List Landing × Dev} (hlive : Live s) (hrun : s.dev.tk.seqRun = false)
    (ha : a = s.dev.advanceTo s.dev.tickCycles) (he : e = { a with tk := { a.tk with tickStart := a.now } })
    (hq : q = (e.flushReplies.openAdcWindows).takeDue) :
    exec .tickPeriodEnd s = .next (withDev s
      (q.2.oneCycle (([2, 3, 4, 5].foldl (fun d n => landPlace q.1 n d)
        (((q.2.landBases q.1).markBases q.2).slewPlls.notePlls)).landReleases.adcBoundary.portsBoundary))) := by
  have hstopped : ¬ s.dev.tk.seqRun = true := by simp [hrun]
  rw [exec_tickPeriodEnd, execTickPeriodEnd, onMain_of_live hlive, if_neg hstopped, hq, he, ha]

/-- The first GUARD_WINDOW of a tick does the window's work and latches the status words (R38, R39). -/
theorem guardWindow_first {g : GuardIn} {a e x : Dev} (hlive : Live s) (hrun : s.dev.tk.seqRun = true)
    (hfirst : s.dev.tk.guardDone = false) (ha : a = s.dev.advanceTo (s.dev.tickCycles - s.dev.tk.guardLen))
    (he : e = ({ a with tk := { a.tk with guardDone := true } } : Dev).calibrate g.calOk)
    (hx : x = (((((e.probe false g.railA.val g.abortA).probe true g.railB.val g.abortB).landWaiting).sealStep).sendTransfer).scrub
      g.eccFixed g.eccBad) :
    exec (.guardWindow g) s = .next (withDev s { x with tk := x.tk.latch }) := by
  have hopen : (s.dev.tk.seqRun && !s.dev.tk.guardDone) = true := by simp [hrun, hfirst]
  rw [exec_guardWindow, execGuardWindow, onMain_of_live hlive, if_pos hopen, hx, he, ha]

/-- Settles O14: the sequencer's state and the alignment source choose the branch, and its device is the one stated; in
the counted period the places 2 to 5 land one after another. -/
theorem tickBoundariesRun : Obligations.TickBoundariesRun := by
  refine ⟨?boundary, ?unaligned, ?timeBase, ?pulse, ?period, ?guardWindow⟩
  case boundary =>
    intro s b d hlive hrun hd
    exact tickBoundary_running hlive hrun hd
  case unaligned =>
    intro s b k hlive hstart hsrc
    exact firstBoundary_unaligned hlive hstart hsrc
  case timeBase =>
    intro s b k q hlive hstart hsrc hq
    rw [hq, firstBoundary_timeBase hlive hstart hsrc]
  case pulse =>
    intro s b k p hlive hstart hsrc hpulse
    exact firstBoundary_pulse hlive hstart hsrc hpulse
  case period =>
    intro s a e q hlive hrun ha he hq
    rw [tickPeriodEnd_stopped hlive hrun ha he hq]
    rfl
  case guardWindow =>
    intro s g a e x hlive hrun hfirst ha he hx
    exact guardWindow_first hlive hrun hfirst ha he hx

end Sys2Proof.Proofs
end

section
/-!
PROOFS. WARP_LOAD with the images that its checks refuse, TICK_CONFIG and SEQ_START (R33, R36, R50, R53, R418, R421).
-/

namespace Sys2Proof.Proofs

open Sys2Proof.Machine Sys2Proof.Safety

theorem exec_warpLoad (r : Req) (s : State) : exec (.warpLoad r) s = onMain (iapin 0x0704 writes bodyWarpLoad r) s := rfl

theorem exec_tickConfig (r : Req) (s : State) :
    exec (.tickConfig r) s = onMain (iapin 0x0703 writes bodyTickConfig r) s := rfl

theorem exec_seqStart (r : Req) (s : State) : exec (.seqStart r) s = onMain (iapin 0x0705 writes bodySeqStart r) s := rfl

variable {d : Dev} {r : Req}

/-- A long-running command that finds a place joins the running ones and is answered ACCEPTED (R416). -/
theorem beginLong_free {op : Nat} (hfree : LongFree op r d) : d.beginLong op r = (.accepted r, begun op r d) := by
  obtain ⟨hplaces, hobject⟩ := hfree
  have hroom : ¬ 8 ≤ d.running.length := by omega
  simp [Dev.beginLong, hroom, hobject, begun]

/-- An image load of an allowed target whose offset and length pass, and whose target is free, begins (R411, R418). -/
theorem imgStart_free {op : Nat} {size : Option Nat} {target : Word → Bool} {taken : Req → Dev → Bool}
    (htarget : target (arg r 2) = true) (hargs : imgArgs r size = none) (huntaken : taken r d = false) :
    imgStart op size target taken r d = d.beginLong op r := by
  simp [imgStart, htarget, hargs, huntaken]

/-- An image load of a target that may not be loaded now answers WRONG_STATE (R418). -/
theorem imgStart_taken {op : Nat} {size : Option Nat} {target : Word → Bool} {taken : Req → Dev → Bool}
    (htarget : target (arg r 2) = true) (hargs : imgArgs r size = none) (htaken : taken r d = true) :
    imgStart op size target taken r d = (.wrongState, d) := by
  simp [imgStart, htarget, hargs, htaken, Dev.say]

/-- A warp load of a free bank begins and takes the bank's VALID away, unless it only checks (R50, R418). -/
theorem bodyWarpLoad_free (hargs : imgArgs r none = none) (hbank : (arg r 2).toNat ≤ 1)
    (hfree : d.bankTaken (arg r 2).toNat = false) (hlong : LongFree 0x0704 r d) :
    bodyWarpLoad r d = (.accepted r,
      if checkOnly r then begun 0x0704 r d
      else (begun 0x0704 r d).modBank (arg r 2).toNat (fun k => { k with valid := false })) := by
  have hbegin : imgStart 0x0704 none (fun w => decide (w.toNat ≤ 1)) (fun r d => d.bankTaken (arg r 2).toNat) r d =
      (.accepted r, begun 0x0704 r d) := by
    rw [imgStart_free (decide_eq_true hbank) hargs hfree, beginLong_free hlong]
  have haccepted : (Rep.accepted r).status = 1 := rfl
  cases hcheck : checkOnly r <;> simp [bodyWarpLoad, hbegin, haccepted, hcheck]

/-- A warp load of a bank that runs, starts or is named by an arm answers WRONG_STATE (R50). -/
theorem bodyWarpLoad_taken (hargs : imgArgs r none = none) (hbank : (arg r 2).toNat ≤ 1)
    (htaken : d.bankTaken (arg r 2).toNat = true) : bodyWarpLoad r d = (.wrongState, d) := by
  have hrefused : imgStart 0x0704 none (fun w => decide (w.toNat ≤ 1)) (fun r d => d.bankTaken (arg r 2).toNat) r d =
      (.wrongState, d) :=
    imgStart_taken (decide_eq_true hbank) hargs htaken
  have hstatus : Rep.wrongState.status ≠ 1 := by decide
  simp [bodyWarpLoad, hrefused, hstatus]

/-- The image whose words give another length than word 4 states (R411, R418). -/
theorem imgFinish_bad_length {size : List Word → Option Nat} {act : List Word → Body} {n : Nat}
    (hsize : size (d.image r) = some n) (hlen : (arg r 4).toNat ≠ n) : imgFinish size act r d = (.badArg 4, d) := by
  simp [imgFinish, hsize, Ne.symm hlen, Dev.say]

/-- The image whose CRC is not that of word 5 (R411, R418). -/
theorem imgFinish_bad_crc {size : List Word → Option Nat} {act : List Word → Body}
    (hsize : size (d.image r) = some (arg r 4).toNat) (hcrc : crc32 (wordsBytes (d.image r)) ≠ arg r 5) :
    imgFinish size act r d = (.badArg 5, d) := by
  simp [imgFinish, hsize, Dev.imageCrcOk, hcrc, Dev.say]

/-- The image whose length and CRC hold comes to its own checks (R418). -/
theorem imgFinish_good {size : List Word → Option Nat} {act : List Word → Body}
    (hsize : size (d.image r) = some (arg r 4).toNat) (hcrc : crc32 (wordsBytes (d.image r)) = arg r 5) :
    imgFinish size act r d = act (d.image r) r d := by
  simp [imgFinish, hsize, Dev.imageCrcOk, hcrc]

/-- The length that the header of a warp image gives (R421). -/
def warpLength (ws : List Word) : Nat := 16 + 16 * (wat ws 0).toNat + (wat ws 1).toNat

/-- What the end of a warp load does with an image whose length and CRC hold (R50, R421). -/
def warpAct (ws : List Word) : Body := fun r d =>
  match warpHeaderBad ws with
  | some i => d.say ⟨0x0102, [0, 0xFFFFFFFF, word i]⟩
  | none =>
    let q := d.warpBank ws
    match q.2 with
    | some f => d.say ⟨0x0102, [word q.1.span, word f.1, word f.2]⟩
    | none => if checkOnly r then d.doneStaged else (d.placeBank (bits (arg r 2) 0 0) q.1).doneStaged

theorem finishWarpLoad_eq : finishWarpLoad = imgFinish (fun ws => some (warpLength ws)) warpAct := rfl

/-- A warp image whose length and CRC hold goes on to its header and its table (R50). -/
theorem finishWarpLoad_good (hlen : (arg r 4).toNat = warpLength (d.image r))
    (hcrc : crc32 (wordsBytes (d.image r)) = arg r 5) : finishWarpLoad r d = warpAct (d.image r) r d := by
  rw [finishWarpLoad_eq, imgFinish_good (congrArg some hlen.symm) hcrc]

variable {ws : List Word}

/-- A right header and a right table place the image's bank, unless the load only checks (R50, R421). -/
theorem warpAct_placed (hheader : warpHeaderBad ws = none) (htable : (d.warpBank ws).2 = none) :
    warpAct ws r d =
      (.ok [0xFFFFFFFF], if checkOnly r then d else d.placeBank (bits (arg r 2) 0 0) (d.warpBank ws).1) := by
  cases hcheck : checkOnly r <;> simp [warpAct, hheader, htable, hcheck, Dev.doneStaged]

/-- A wrong header word is named in the reply (R50). -/
theorem warpAct_bad_header {i : Nat} (hheader : warpHeaderBad ws = some i) :
    warpAct ws r d = (⟨0x0102, [0, 0xFFFFFFFF, word i]⟩, d) := by
  simp [warpAct, hheader, Dev.say]

/-- A wrong table answers its span and the entry and check that failed (R50). -/
theorem warpAct_bad_table {x : Nat × Nat} (hheader : warpHeaderBad ws = none) (htable : (d.warpBank ws).2 = some x) :
    warpAct ws r d = (⟨0x0102, [word (d.warpBank ws).1.span, word x.1, word x.2]⟩, d) := by
  simp [warpAct, hheader, htable, Dev.say]

/-- TICK_CONFIG in range before the sequencer starts sets its seven values and checks both banks again (R33). -/
theorem bodyTickConfig_in_range {e : Dev} (hrange : tickConfigBad r = none) (hrun : d.tk.seqRun = false)
    (hstart : d.tk.starting = none) (he : e = (({ d with tk := { d.tk with
      tickSteps := (arg r 2).toNat, guardLen := (arg r 3).toNat, alignSrc := bits (arg r 4) 1 0
      alignOrigin := join48 (arg r 5) (arg r 6), syncDelay := (arg r 7).toNat
      commitGuard := (arg r 8).toNat, startTick := join48 (arg r 9) (arg r 10) } }).recheck 0).recheck 1) :
    bodyTickConfig r d = (.ok [e.nowTick, pack [(1, b1 e.tk.bank1.valid), (0, b1 e.tk.bank0.valid)]], e) := by
  simp [bodyTickConfig, hrange, hrun, hstart, he]

/-- SEQ_START with a valid bank and a ready alignment source puts the sequencer into start with that bank (R36, R53). -/
theorem bodySeqStart_ready (hrun : d.tk.seqRun = false) (hstart : d.tk.starting = none)
    (hbank : d.bankValid (bits (arg r 2) 0 0) = true) (hready : d.alignReady = true) :
    bodySeqStart r d = (.ok [0],
      { d with tk := { d.tk with starting := some (bits (arg r 2) 0 0), startAt := d.now, firstPulse := none } }) := by
  simp [bodySeqStart, hrun, hstart, hbank, hready, Dev.doneNow, Dev.nowTick]

/-- Settles O13: the load by the checks that it passes or fails in their order, the other two by their bodies. -/
theorem warpLoadAndSequencerStart : Obligations.WarpLoadAndSequencerStart := by
  refine ⟨?begin, ?placed, ?badLength, ?badCrc, ?badHeader, ?badTable, ?bankTaken, ?tickConfig, ?seqStart⟩
  case begin =>
    intro s r b hserved hargs hb hbank hfree hlong
    subst hb
    rw [exec_warpLoad]
    exact onMain_iapin_served hserved rfl (bodyWarpLoad_free hargs hbank hfree hlong)
  case placed =>
    intro d r ws hws hcrc hheader hlen htable
    subst hws
    rw [finishWarpLoad_good hlen hcrc, warpAct_placed hheader htable]
  case badLength =>
    intro d r ws hws hlen
    subst hws
    rw [finishWarpLoad_eq]
    exact imgFinish_bad_length rfl hlen
  case badCrc =>
    intro d r ws hws hlen hcrc
    subst hws
    rw [finishWarpLoad_eq]
    exact imgFinish_bad_crc (congrArg some hlen.symm) hcrc
  case badHeader =>
    intro d r ws i hws hcrc hlen hheader
    subst hws
    rw [finishWarpLoad_good hlen hcrc, warpAct_bad_header hheader]
  case badTable =>
    intro d r ws x hws hcrc hlen hheader htable
    subst hws
    rw [finishWarpLoad_good hlen hcrc, warpAct_bad_table hheader htable]
  case bankTaken =>
    intro s r b hserved hargs hb hbank htaken
    subst hb
    rw [exec_warpLoad]
    exact onMain_iapin_served hserved rfl (bodyWarpLoad_taken hargs hbank htaken)
  case tickConfig =>
    intro s r d hserved hrange hrun hstart hd
    rw [exec_tickConfig]
    exact onMain_iapin_served hserved rfl (bodyTickConfig_in_range hrange hrun hstart hd)
  case seqStart =>
    intro s r hserved hrun hstart hbank hready
    rw [exec_seqStart]
    exact onMain_iapin_served hserved rfl (bodySeqStart_ready hrun hstart hbank hready)

end Sys2Proof.Proofs
end

section
/-!
PROOFS. The entries of the running warp table (R42 to R48, R51): each goes through the one rule for an entry that may run
now, and what is left is the work of its class.
-/

namespace Sys2Proof.Proofs

open Sys2Proof.Machine Sys2Proof.Safety

variable {s : State} {i : Nat} {e : Entry} {t0 : Nat} {a d : Dev}

/-- The device in which an entry does its work: the clock stands at the entry's start, and the entry is the last one run (R42). -/
theorem runEntry_at {cls : Nat} {f : Entry → Nat → Dev → Dev} (hat : s.dev.entryAt cls i = some (e, t0))
    (ha : a = s.dev.advance (t0 - s.dev.cyc))
    (hd : d = { a with tk := { a.tk with nextEntry := i + 1, entryEnd := t0 + e.budget } }) :
    s.dev.runEntry cls i f = f e t0 d := by
  subst ha hd
  simp only [Dev.runEntry, hat]

/-- An entry that may run now does the work of its class and nothing else (R42). -/
theorem onMain_runEntry {cls : Nat} {f : Entry → Nat → Dev → Dev} (hlive : Live s)
    (hat : s.dev.entryAt cls i = some (e, t0)) (ha : a = s.dev.advance (t0 - s.dev.cyc))
    (hd : d = { a with tk := { a.tk with nextEntry := i + 1, entryEnd := t0 + e.budget } }) :
    onMain (fun d => d.runEntry cls i f) s = .next (withDev s (f e t0 d)) := by
  rw [onMain_of_live hlive, runEntry_at hat ha hd]

/-- What an INTAKE entry does (R45, R122, R224, R259). -/
def intakeWork (e : Entry) (_ : Nat) (d : Dev) : Dev :=
  let ks := (List.range e.count).map (16 * e.unit + ·)
  let x := d.intake e
  let y := forEach ks (fun k x => (x.digest k).seeFloor k)
    { x with isl := { x.isl with updated := x.isl.updated || ks.any (fun k => (x.strandOf k).fresh) } }
  y.allocEntries.foldl Dev.allocService y

theorem exec_intakeEntry (i : Fin 4096) (s : State) :
    exec (.intakeEntry i) s = onMain (fun d => d.runEntry clsIntake i.val intakeWork) s := rfl

theorem exec_spinEntry (i : Fin 4096) (fault : Option (Fin 2048 × Fin 32)) (s : State) :
    exec (.spinEntry i fault) s = onMain (fun d => d.runEntry clsSpin i.val (fun e _ d =>
      (d.runSpin d.running? e (fault.map (fun f => (f.1.val, f.2.val)))).shareStage i.val)) s := rfl

theorem exec_allocEntry (i : Fin 4096) (s : State) :
    exec (.allocEntry i) s = onMain (fun d => d.runEntry clsAlloc i.val (fun e _ d => d.runAlloc e)) s := rfl

/-- Settles O16: each entry runs by the one rule, with the work of its class. -/
theorem intakeSpinAndAllocRun : Obligations.IntakeSpinAndAllocRun := by
  refine ⟨?intake, ?spin, ?alloc⟩
  case intake =>
    intro s i e t0 a d ks x y hlive hat ha hd hks hx hy
    rw [exec_intakeEntry, onMain_runEntry hlive hat ha hd, hy, hx, hks]
    rfl
  case spin =>
    intro s i e t0 a d fault hlive hat ha hd
    rw [exec_spinEntry, onMain_runEntry hlive hat ha hd]
  case alloc =>
    intro s i e t0 a d hlive hat ha hd
    rw [exec_allocEntry, onMain_runEntry hlive hat ha hd]

theorem exec_meterEntry (i : Fin 4096) (s : State) :
    exec (.meterEntry i) s = onMain (fun d => d.runEntry clsMeter i.val (fun e _ d => d.meterRun e)) s := rfl

theorem exec_deliverEntry (i : Fin 4096) (s : State) : exec (.deliverEntry i) s =
    onMain (fun d => d.runEntry clsDeliver i.val (fun e start d => (d.deliver e start).placeCrossings)) s := rfl

/-- An entry of the running table overruns, and it and those after it are abandoned for this tick (R51). -/
theorem exec_tickOverrun (i : Fin 4096) (s : State) : exec (.tickOverrun i) s = onMain (fun d =>
    if d.tk.seqRun && !d.tk.noBank && d.tk.abandoned.isNone && decide (i.val < d.running?.entries.length) then
      ({ d with tk := { d.tk with
        overrun := true, overrunCnt := satInc 16 d.tk.overrunCnt, abandoned := some i.val } }).event 0x000 (word i.val)
    else d) s := rfl

/-- Settles O17: the two entries by the one rule, the overrun by the test that finds its entry in the running table. -/
theorem meterDeliverAndOverrunRun : Obligations.MeterDeliverAndOverrunRun := by
  refine ⟨?meter, ?deliver, ?overrun⟩
  case meter =>
    intro s i e t0 a d hlive hat ha hd
    rw [exec_meterEntry, onMain_runEntry hlive hat ha hd]
  case deliver =>
    intro s i e t0 a d hlive hat ha hd
    rw [exec_deliverEntry, onMain_runEntry hlive hat ha hd]
  case overrun =>
    intro s i hlive hrun hbank hfirst hentry
    rw [exec_tickOverrun, onMain_of_live hlive, if_pos (by simp [hrun, hbank, hfirst, hentry])]

theorem exec_copyEntry (i : Fin 4096) (s : State) :
    exec (.copyEntry i) s = onMain (fun d => d.runEntry clsCopy i.val (fun e _ d =>
      forEach (List.range e.count) (fun j x => { x with weft := memPutBytes x.weft (e.dst + 64 * j) (x.block e j) }) d)) s := rfl

theorem exec_xdieEntry (i : Fin 4096) (s : State) :
    exec (.xdieEntry i) s = onMain (fun d => d.runEntry clsXdie i.val (fun e _ d =>
      ((List.range e.count).map (fun j => bytesWords (d.block e j))).foldl Dev.xdieBlock
        { d with weft := memPutWords d.weft e.dst d.converterBlock })) s := rfl

theorem exec_captureEntry (i : Fin 4096) (s : State) :
    exec (.captureEntry i) s = onMain (fun d => d.runEntry clsCapture i.val (fun e _ d =>
      if d.capturing then ((List.range e.count).flatMap (d.block e)).foldl Dev.poolPut d else d)) s := rfl

/-- The TABLE units in which a MIRROR entry sends its blocks (R44, R219). -/
def mirrorUnits (e : Entry) (d : Dev) : List PlyUnit :=
  (List.range e.count).map (fun j => PlyUnit.table (BitVec.ofNat 23 (e.src + 64 * j)) (d.block e j)
    (BitVec.ofNat 16 (tableUcrc (e.src + 64 * j) d.tk.tick (d.block e j))))

theorem exec_mirrorEntry (i : Fin 4096) (s : State) :
    exec (.mirrorEntry i) s = onMain (fun d => d.runEntry clsMirror i.val (fun e start d =>
      if d.isMember && d.ply.pstate == .active then
        d.modPly (fun p => { p with
          txUnits := p.txUnits ++ mirrorUnits e d, linkBusy := max p.linkBusy (start + 12) + 18 * e.count })
      else d)) s := rfl

/-- Settles O18: each entry runs by the one rule; CAPTURE by whether the pool is frozen, MIRROR by whether the member is the
active. -/
theorem blockEntriesMoveBytes : Obligations.BlockEntriesMoveBytes := by
  refine ⟨?copy, ?xdie, ?capture, ?frozen, ?mirror, ?standby⟩
  case copy =>
    intro s i e t0 a d hlive hat ha hd
    rw [exec_copyEntry, onMain_runEntry hlive hat ha hd]
  case xdie =>
    intro s i e t0 a d hlive hat ha hd
    rw [exec_xdieEntry, onMain_runEntry hlive hat ha hd]
  case capture =>
    intro s i e t0 a d hlive hat ha hd hcapturing
    rw [exec_captureEntry, onMain_runEntry hlive hat ha hd, if_pos hcapturing]
  case frozen =>
    intro s i e t0 a d hlive hat ha hd hfrozen
    rw [exec_captureEntry, onMain_runEntry hlive hat ha hd, if_neg (by simp [hfrozen])]
  case mirror =>
    intro s i e t0 a d us hlive hat ha hd hmember hactive hus
    rw [exec_mirrorEntry, onMain_runEntry hlive hat ha hd, if_pos (by simp [hmember, hactive]), hus]
    rfl
  case standby =>
    intro s i e t0 a d hlive hat ha hd hinactive
    have hno : ¬ (d.isMember && d.ply.pstate == .active) = true := by
      rcases hinactive with h | h <;> simp [h]
    rw [exec_mirrorEntry, onMain_runEntry hlive hat ha hd, if_neg hno]

end Sys2Proof.Proofs
end

section
/-!
PROOFS. What no step of the device may lose (R34, R41, R395, R439): the two addressed memories, whether the sequencer runs
and whether the main logic is held in reset, taken together as the device's core.
-/

namespace Sys2Proof.Machine

/-- The addressed memories, whether the sequencer runs, and whether the main logic is held in reset. -/
structure Core where
  weft : Mem
  bar2 : Mem
  run : Bool
  held : Bool

/-- The core of a device. -/
def Dev.core (d : Dev) : Core := ⟨d.weft, d.bar2, d.tk.seqRun, d.pwr.held⟩

/-- The core of a device is read off its four fields. -/
@[simp] theorem Core.mk_fields (d : Dev) : (⟨d.weft, d.bar2, d.tk.seqRun, d.pwr.held⟩ : Core) = d.core := rfl

/-- A device written out field by field has the core that its weft region, BAR2 window, tick part and power part give. -/
@[simp] theorem Dev.core_mk (part : Part) (now fresh : Nat) (host : HostIf) (tk : TickSt)
    (landing : List (Landing × Accepted)) (spin : Spindle) (recipes : Recipes) (secs : Tbl Section)
    (mapForce mapStaged : Option (List Word)) (strands : Tbl Strand) (skeins : Tbl Skein) (cells : Tbl Cell)
    (trims : Tbl Trim) (cut : CutPath) (ply : Ply) (ref : Referee) (flt : Faults) (isl : Island) (therm : Thermal)
    (meter : Meter) (fram : Fram) (adcs : Adcs) (clk : Clocks) (eth : Eth) (cans : Tbl Can) (pwr : Power) (flash : Flash)
    (cfg : SignedCfg) (test : TestSt) (weft bar2 : Mem) :
    Dev.core { part, now, fresh, host, tk, landing, spin, recipes, secs, mapForce, mapStaged, strands, skeins, cells, trims
               cut, ply, ref, flt, isl, therm, meter, fram, adcs, clk, eth, cans, pwr, flash, cfg, test, weft, bar2 } =
      ⟨weft, bar2, tk.seqRun, pwr.held⟩ := rfl

/-- A choice between two devices is a choice between their cores. -/
@[simp] theorem Dev.core_ite (c : Prop) [Decidable c] (d e : Dev) :
    (if c then d else e).core = if c then d.core else e.core :=
  apply_ite Dev.core c d e

/-- Steps that each keep the core keep it together. -/
@[simp] theorem foldl_core {α : Type} {f : Dev → α → Dev} (h : ∀ d a, (f d a).core = d.core) (l : List α) (d : Dev) :
    (l.foldl f d).core = d.core := by
  induction l generalizing d with
  | nil => rfl
  | cons a l ih => rw [List.foldl_cons, ih, h]

/-- Steps for the numbers of a list that each keep the core keep it together. -/
@[simp] theorem forEach_core {f : Nat → Dev → Dev} (h : ∀ i d, (f i d).core = d.core) (l : List Nat) (d : Dev) :
    (forEach l f d).core = d.core :=
  foldl_core (fun d i => h i d) l d

/-- A choice between two replies with their devices is a choice between the cores of the devices. -/
@[simp] theorem snd_core_ite {α : Type} (c : Prop) [Decidable c] (p q : α × Dev) :
    (if c then p else q).2.core = if c then p.2.core else q.2.core :=
  apply_ite (fun x : α × Dev => x.2.core) c p q

/-- A choice between two devices with what they report is a choice between the cores of the devices. -/
@[simp] theorem fst_core_ite {α : Type} (c : Prop) [Decidable c] (p q : Dev × α) :
    (if c then p else q).1.core = if c then p.1.core else q.1.core :=
  apply_ite (fun x : Dev × α => x.1.core) c p q

/-- Steps that each keep the core of the device and gather what they report keep the core together. -/
theorem foldl_fst_core {α β : Type} {f : Dev × β → α → Dev × β} (h : ∀ p a, (f p a).1.core = p.1.core) (l : List α)
    (p : Dev × β) : (l.foldl f p).1.core = p.1.core := by
  induction l generalizing p with
  | nil => rfl
  | cons a l ih => rw [List.foldl_cons, ih, h]

/-! ### Ops -/

@[simp] theorem Dev.modStrand_core (d : Dev) (k : Nat) (f : Strand → Strand) : (d.modStrand k f).core = d.core := by
  simp [Dev.modStrand]

@[simp] theorem Dev.modSkein_core (d : Dev) (s : Nat) (f : Skein → Skein) : (d.modSkein s f).core = d.core := by
  simp [Dev.modSkein]

@[simp] theorem Dev.modCell_core (d : Dev) (k : Nat) (f : Cell → Cell) : (d.modCell k f).core = d.core := by
  simp [Dev.modCell]

@[simp] theorem Dev.modTrim_core (d : Dev) (n : Nat) (f : Trim → Trim) : (d.modTrim n f).core = d.core := by
  simp [Dev.modTrim]

@[simp] theorem Dev.modSec_core (d : Dev) (s : Nat) (f : Section → Section) : (d.modSec s f).core = d.core := by
  simp [Dev.modSec]

@[simp] theorem Dev.modChan_core (d : Dev) (n : Nat) (f : Channel → Channel) : (d.modChan n f).core = d.core := by
  simp [Dev.modChan]

@[simp] theorem Dev.modInst_core (d : Dev) (i : Nat) (f : Inst → Inst) : (d.modInst i f).core = d.core := by
  simp [Dev.modInst]

@[simp] theorem Dev.modBox_core (d : Dev) (ch : Nat) (f : Chan → Chan) : (d.modBox ch f).core = d.core := by
  simp [Dev.modBox]

@[simp] theorem Dev.modInt_core (d : Dev) (id : Nat) (f : IntBank → IntBank) : (d.modInt id f).core = d.core := by
  simp [Dev.modInt]

@[simp] theorem Dev.modFn_core (d : Dev) (n : Nat) (f : PcieFn → PcieFn) : (d.modFn n f).core = d.core := by
  simp [Dev.modFn]

@[simp] theorem Dev.modSrc_core (d : Dev) (n : Nat) (f : FaultSrc → FaultSrc) : (d.modSrc n f).core = d.core := by
  simp [Dev.modSrc]

@[simp] theorem Dev.modCan_core (d : Dev) (c : Nat) (f : Can → Can) : (d.modCan c f).core = d.core := by
  simp [Dev.modCan]

@[simp] theorem Dev.modPort_core (d : Dev) (p : Nat) (f : EthPort → EthPort) : (d.modPort p f).core = d.core := by
  simp [Dev.modPort]

@[simp] theorem Dev.modAdc_core (d : Dev) (c : Nat) (f : Adc → Adc) : (d.modAdc c f).core = d.core := by
  simp [Dev.modAdc]

@[simp] theorem Dev.modAcc_core (d : Dev) (q : Nat) (f : Acc → Acc) : (d.modAcc q f).core = d.core := by
  simp [Dev.modAcc]

@[simp] theorem Dev.modZone_core (d : Dev) (z : Nat) (f : Zone → Zone) : (d.modZone z f).core = d.core := by
  simp [Dev.modZone]

@[simp] theorem Dev.land_core (d : Dev) (l : Landing) : (d.land l).core = d.core := by simp [Dev.land]

@[simp] theorem Dev.landFor_core (d : Dev) (r : Req) (l : Landing) : (d.landFor r l).core = d.core := by
  simp [Dev.landFor]

@[simp] theorem Dev.useFresh_core (d : Dev) : d.useFresh.core = d.core := by simp [Dev.useFresh]

@[simp] theorem Dev.message_core (d : Dev) (id b : Nat) : (d.message id b).core = d.core := by
  unfold Dev.message
  split <;> simp

@[simp] theorem Dev.raise_core (d : Dev) (id b : Nat) : (d.raise id b).core = d.core := by simp [Dev.raise]
@[simp] theorem Dev.raiseAll_core (d : Dev) (b : Nat) : (d.raiseAll b).core = d.core := by simp [Dev.raiseAll]
@[simp] theorem Dev.levelUp_core (d : Dev) (b : Nat) : (d.levelUp b).core = d.core := by simp [Dev.levelUp]

@[simp] theorem Dev.edge_core (before after : Dev) (b : Nat) : (before.edge after b).core = after.core :=
  foldl_core (fun d id => by simp) _ after

@[simp] theorem Dev.pushBack_core (d : Dev) (ch : Nat) (w : Word) : (d.pushBack ch w).core = d.core := by
  simp [Dev.pushBack]

@[simp] theorem Dev.pushFwd_core (d : Dev) (ch : Nat) (w : Word) : (d.pushFwd ch w).core = d.core := by
  simp [Dev.pushFwd]

@[simp] theorem Dev.setStage_core (d : Dev) (n : Nat) : (d.setStage n).core = d.core := by simp [Dev.setStage]
@[simp] theorem Dev.holdTargets_core (d : Dev) (g : Nat) : (d.holdTargets g).core = d.core := by simp [Dev.holdTargets]

@[simp] theorem Dev.cutGroups_core (d : Dev) (cls idx groups : Nat) : (d.cutGroups cls idx groups).core = d.core := by
  simp [Dev.cutGroups]

@[simp] theorem Dev.recordOcc_core (d : Dev) (o : Occ) : (d.recordOcc o).core = d.core := by simp [Dev.recordOcc]
@[simp] theorem Dev.setRaw_core (d : Dev) (n : Nat) (b : Bool) : (d.setRaw n b).core = d.core := by simp [Dev.setRaw]
@[simp] theorem Dev.noteStop_core (was : Bool) (d : Dev) : (Dev.noteStop was d).core = d.core := by simp [Dev.noteStop]
@[simp] theorem Dev.reactOcc_core (d : Dev) (o : Occ) : (d.reactOcc o).core = d.core := by simp [Dev.reactOcc]

@[simp] theorem Dev.oneCycle_core (before d : Dev) : (before.oneCycle d).core = d.core := by
  simp [Dev.oneCycle]

@[simp] theorem Dev.dropCal_core (d : Dev) (input : Nat) : (d.dropCal input).core = d.core := by simp [Dev.dropCal]

@[simp] theorem Dev.abandonLoad_core (d : Dev) (op : Nat) (r : Req) : (d.abandonLoad op r).core = d.core := by
  simp [Dev.abandonLoad]

@[simp] theorem Dev.notice_core (d : Dev) (ch tag status op : Nat) : (d.notice ch tag status op).core = d.core := by
  simp [Dev.notice]

@[simp] theorem Dev.discardLongs_core (d : Dev) : d.discardLongs.core = d.core := by simp [Dev.discardLongs]
@[simp] theorem Dev.dropAsked_core (d : Dev) (a : Nat × Word) : (d.dropAsked a).core = d.core := by simp [Dev.dropAsked]
@[simp] theorem Dev.discardBox_core (d : Dev) (ch : Nat) : (d.discardBox ch).core = d.core := by simp [Dev.discardBox]
@[simp] theorem Dev.discardBoxes_core (d : Dev) : d.discardBoxes.core = d.core := by simp [Dev.discardBoxes]
@[simp] theorem Dev.canEvent_core (d : Dev) (c m : Nat) : (d.canEvent c m).core = d.core := by simp [Dev.canEvent]
@[simp] theorem Dev.discardCan_core (d : Dev) (c : Nat) : (d.discardCan c).core = d.core := by simp [Dev.discardCan]

@[simp] theorem Dev.owe_core (d : Dev) (c : ReportCause) (at_ : Option Nat) : (d.owe c at_).core = d.core := by
  simp [Dev.owe]

@[simp] theorem Dev.oweFrom_core (d : Dev) (t : Nat) : (d.oweFrom t).core = d.core := by simp [Dev.oweFrom]
@[simp] theorem Dev.owedFromTick_core (d : Dev) : d.owedFromTick.core = d.core := by simp [Dev.owedFromTick]
@[simp] theorem Dev.discardWork_core (d : Dev) : d.discardWork.core = d.core := by simp [Dev.discardWork]
@[simp] theorem Dev.discard_core (d : Dev) : d.discard.core = d.core := by simp [Dev.discard]
@[simp] theorem Dev.discardHere_core (d : Dev) : d.discardHere.core = d.core := by simp [Dev.discardHere]

@[simp] theorem Dev.fireBase_core (d : Dev) (cls idx groups : Nat) : (d.fireBase cls idx groups).1.core = d.core := by
  simp [Dev.fireBase]

@[simp] theorem Dev.fireSev5_core (d : Dev) (os : List Occ) : (d.fireSev5 os).1.core = d.core :=
  foldl_fst_core (fun p o => by simp) os (d, [])

@[simp] theorem Dev.react_core (d : Dev) (os : List Occ) : (d.react os).core = d.core := by simp [Dev.react]

@[simp] theorem Dev.setDetail_core (d : Dev) (src : Nat) (old new : Word) : (d.setDetail src old new).core = d.core := by
  simp [Dev.setDetail]

@[simp] theorem Dev.lowerDetail_core (d : Dev) (p : Nat × Word) : (d.lowerDetail p).core = d.core := by
  simp only [Dev.lowerDetail]
  split <;> simp

@[simp] theorem Dev.events_core (d : Dev) (l : List (Nat × Word)) : (d.events l).core = d.core := by simp [Dev.events]

@[simp] theorem Dev.event_core (d : Dev) (src : Nat) (detail : Word) : (d.event src detail).core = d.core := by
  simp [Dev.event]

@[simp] theorem Dev.level_core (d : Dev) (src : Nat) (detail : Word) : (d.level src detail).core = d.core := by
  simp [Dev.level]

@[simp] theorem Dev.reoccur_core (d : Dev) (src : Nat) (detail : Word) : (d.reoccur src detail).core = d.core := by
  simp [Dev.reoccur]

@[simp] theorem Dev.fire_core (d : Dev) (cls idx groups : Nat) : (d.fire cls idx groups).core = d.core := by
  simp [Dev.fire]

@[simp] theorem Dev.cutFire_core (d : Dev) (g : Nat) : (d.cutFire g).core = d.core := by simp [Dev.cutFire]

/-! ### Operands -/

@[simp] theorem Dev.say_core (d : Dev) (p : Rep) : (d.say p).2.core = d.core := by simp [Dev.say]
@[simp] theorem Dev.doneNow_core (d : Dev) : (d.doneNow).2.core = d.core := by simp [Dev.doneNow]

@[simp] theorem Dev.doneAtTick_core (d : Dev) (r : Req) (l : Landing) : (d.doneAtTick r l).2.core = d.core := by
  simp [Dev.doneAtTick]

@[simp] theorem Dev.doneStaged_core (d : Dev) : (d.doneStaged).2.core = d.core := by simp [Dev.doneStaged]

@[simp] theorem Dev.answer_core (d : Dev) (op : Nat) (r : Req) (p : Rep) : (d.answer op r p).core = d.core := by
  simp [Dev.answer]

@[simp] theorem Dev.repeatReply_core (d : Dev) (r : Req) (b : List Word) : (d.repeatReply r b).core = d.core := by
  simp [Dev.repeatReply]

@[simp] theorem Dev.give_core (d : Dev) (op : Nat) (read : Bool) (r : Req) (p : Rep) :
    (d.give op read r p).core = d.core := by
  simp [Dev.give]

@[simp] theorem Dev.closeLong_core (d : Dev) (op : Nat) (r : Req) (p : Rep) : (d.closeLong op r p).core = d.core := by
  simp [Dev.closeLong]

@[simp] theorem Dev.giveAnswers_core (d : Dev) : d.giveAnswers.core = d.core := by simp [Dev.giveAnswers]

@[simp] theorem Dev.logWrite_core (d : Dev) (op : Nat) (read : Bool) (r : Req) (p : Rep) :
    (d.logWrite op read r p).core = d.core := by
  simp [Dev.logWrite]

@[simp] theorem iapinBody_core (op : Nat) (read : Bool) {body : Body} (h : ∀ r d, (body r d).2.core = d.core) (r : Req)
    (d : Dev) : (iapinBody op read body r d).core = d.core := by
  simp [iapinBody, h]

@[simp] theorem carryOut_core (op : Nat) (read : Req → Bool) {body : Body} (h : ∀ r d, (body r d).2.core = d.core) (r : Req)
    (d : Dev) : (carryOut op read body r d).core = d.core := by
  unfold carryOut
  split
  · simp
  · split <;> simp [h]

@[simp] theorem iapin_core (op : Nat) (read : Req → Bool) {body : Body} (h : ∀ r d, (body r d).2.core = d.core) (r : Req)
    (d : Dev) : (iapin op read body r d).core = d.core := by
  simp [iapin, h]

@[simp] theorem recRead_core (objs size : Nat) (words : Dev → Nat → List Word) (r : Req) (d : Dev) :
    (recRead objs size words r d).2.core = d.core := by
  unfold recRead
  split <;> simp

@[simp] theorem Dev.beginLong_core (d : Dev) (op : Nat) (r : Req) : (d.beginLong op r).2.core = d.core := by
  simp [Dev.beginLong]

@[simp] theorem imgStart_core (op : Nat) (size : Option Nat) (target : Word → Bool) (taken : Req → Dev → Bool)
    (r : Req) (d : Dev) :
    (imgStart op size target taken r d).2.core = d.core := by
  unfold imgStart
  split
  · simp
  · split <;> simp

@[simp] theorem imgFinish_core (size : List Word → Option Nat) {act : List Word → Body}
    (h : ∀ ws r d, (act ws r d).2.core = d.core) (r : Req) (d : Dev) : (imgFinish size act r d).2.core = d.core := by
  unfold imgFinish
  dsimp only
  split
  · simp
  · split <;> simp [h]

/-! ### Access -/

@[simp] theorem Dev.retrainPcie_core (d : Dev) : d.retrainPcie.core = d.core := by simp [Dev.retrainPcie]

@[simp] theorem Dev.unsupported_core (d : Dev) (m : Master) : (d.unsupported m).core = d.core := by
  unfold Dev.unsupported
  split <;> simp

@[simp] theorem Dev.malformed_core (d : Dev) (m : Master) : (d.malformed m).core = d.core := by
  unfold Dev.malformed
  split <;> simp

@[simp] theorem Dev.violation_core (d : Dev) (m : Master) : (d.violation m).core = d.core := by simp [Dev.violation]

@[simp] theorem Dev.guarded_core (d : Dev) (m : Master) (block : Nat) {f : Dev → Dev} (h : ∀ d, (f d).core = d.core) :
    (d.guarded m block f).core = d.core := by
  simp [Dev.guarded, h]

@[simp] theorem Dev.served_core (d : Dev) (m : Master) {f : Dev → Dev} (h : ∀ d, (f d).core = d.core) :
    (d.served m f).core = d.core := by
  simp [Dev.served, h]

@[simp] theorem Dev.giveRead_core (d : Dev) (w : Word) : (d.giveRead w).core = d.core := by simp [Dev.giveRead]

@[simp] theorem Dev.giveBytes_core (d : Dev) (b : ReadBytes) (w : Word) : (d.giveBytes b w).core = d.core := by
  simp [Dev.giveBytes]

/-! ### FaultCut -/

@[simp] theorem bodySeverity_core (r : Req) (d : Dev) : (bodySeverity r d).2.core = d.core := by
  simp only [bodySeverity]
  split <;> simp

@[simp] theorem bodyStopTh_core (r : Req) (d : Dev) : (bodyStopTh r d).2.core = d.core := by simp [bodyStopTh]
@[simp] theorem Dev.clearStatus_core (d : Dev) (n : Nat) : (d.clearStatus n).core = d.core := by simp [Dev.clearStatus]
@[simp] theorem Dev.ackHank_core (d : Dev) (a : Nat) : (d.ackHank a).core = d.core := by simp [Dev.ackHank]

@[simp] theorem Dev.hankStep_core (d : Dev) : d.hankStep.core = d.core := by
  unfold Dev.hankStep
  split <;> simp

@[simp] theorem bodyCut_core (r : Req) (d : Dev) : (bodyCut r d).2.core = d.core := by simp [bodyCut]

@[simp] theorem bodyCutRelease_core (r : Req) (d : Dev) : (bodyCutRelease r d).2.core = d.core := by
  simp [bodyCutRelease]

@[simp] theorem bodyCutMatrix_core (r : Req) (d : Dev) : (bodyCutMatrix r d).2.core = d.core := by
  unfold bodyCutMatrix
  split <;> simp

/-! ### Clocks -/

@[simp] theorem Dev.modPll_core (d : Dev) (p : PllId) (f : Pll → Pll) : (d.modPll p f).core = d.core := by
  unfold Dev.modPll
  split <;> simp

@[simp] theorem Dev.startPll_core (d : Dev) (p : PllId) : (d.startPll p).core = d.core := by simp [Dev.startPll]

@[simp] theorem Dev.unlockEvent_core (d : Dev) (p : PllId) : (d.unlockEvent p).core = d.core := by
  simp [Dev.unlockEvent]

@[simp] theorem Dev.firstLock_core (d : Dev) (p : PllId) : (d.firstLock p).core = d.core := by
  unfold Dev.firstLock
  split
  · simp
  · split <;> simp

@[simp] theorem Dev.lockPll_core (d : Dev) (p : PllId) : (d.lockPll p).core = d.core := by simp [Dev.lockPll]
@[simp] theorem Dev.notePlls_core (d : Dev) : d.notePlls.core = d.core := by simp [Dev.notePlls]
@[simp] theorem Dev.slewPlls_core (d : Dev) : d.slewPlls.core = d.core := by simp [Dev.slewPlls]
@[simp] theorem Dev.alignLost_core (d : Dev) : d.alignLost.core = d.core := by simp [Dev.alignLost]
@[simp] theorem Dev.steer_core (d : Dev) : d.steer.core = d.core := by simp [Dev.steer]

@[simp] theorem Dev.alignMeasured_core (d : Dev) (off : Int) : (d.alignMeasured off).core = d.core := by
  simp [Dev.alignMeasured]

@[simp] theorem Dev.modBase_core (d : Dev) (n : Nat) (f : TimeBase → TimeBase) : (d.modBase n f).core = d.core := by
  simp [Dev.modBase]

@[simp] theorem Dev.alignBoundary_core (d : Dev) : d.alignBoundary.core = d.core := by
  unfold Dev.alignBoundary
  split
  · simp
  · split
    · simp
    · split <;> simp

@[simp] theorem Dev.invalidate_core (d : Dev) (n : Nat) : (d.invalidate n).core = d.core := by simp [Dev.invalidate]
@[simp] theorem Dev.takeSlew_core (d : Dev) (n : Nat) : (d.takeSlew n).core = d.core := by simp [Dev.takeSlew]
@[simp] theorem Dev.advance_core (d : Dev) (n : Nat) : (d.advance n).core = d.core := by simp [Dev.advance]

@[simp] theorem Dev.advanceUntil_core (d : Dev) (t : Nat) : (d.advanceUntil t).core = d.core := by
  simp [Dev.advanceUntil]

theorem Dev.timeUp_core {d e : Dev} {t : Nat} (h : d.timeUp t = some e) : e.core = d.core := by
  unfold Dev.timeUp at h
  split at h
  · cases h; exact Dev.advanceUntil_core d t
  · cases h

@[simp] theorem Dev.startPulse_core (d : Dev) : d.startPulse.core = d.core := by simp [Dev.startPulse]
@[simp] theorem Dev.syncPulse_core (d : Dev) (fine : Nat) : (d.syncPulse fine).core = d.core := by simp [Dev.syncPulse]

@[simp] theorem Dev.tb2Boundary_core (d : Dev) : d.tb2Boundary.core = d.core := by
  unfold Dev.tb2Boundary
  split <;> simp

@[simp] theorem Dev.markBases_core (d old : Dev) : (d.markBases old).core = d.core := by simp [Dev.markBases]
@[simp] theorem landTbSet_core (n sec ns : Nat) (d : Dev) : (landTbSet n sec ns d).core = d.core := by simp [landTbSet]

@[simp] theorem landTbStep_core (n : Nat) (off : Int) (d : Dev) : (landTbStep n off d).core = d.core := by
  simp [landTbStep]

@[simp] theorem landTbSlew_core (n : Nat) (v : Int) (d : Dev) : (landTbSlew n v d).core = d.core := by simp [landTbSlew]
@[simp] theorem landTbRate_core (n : Nat) (v : Int) (d : Dev) : (landTbRate n v d).core = d.core := by simp [landTbRate]

@[simp] theorem landTbHoldLimit_core (n v : Nat) (d : Dev) : (landTbHoldLimit n v d).core = d.core := by
  simp [landTbHoldLimit]

@[simp] theorem landTbState_core (n code : Nat) (d : Dev) : (landTbState n code d).core = d.core := by
  simp [landTbState]

@[simp] theorem landTb2Lane_core (inst lane : Nat) (d : Dev) : (landTb2Lane inst lane d).core = d.core := by
  simp [landTb2Lane]

@[simp] theorem tbBody_core {f : Nat → Body} (h : ∀ n r d, (f n r d).2.core = d.core) (r : Req) (d : Dev) :
    (tbBody f r d).2.core = d.core := by
  unfold tbBody
  split <;> simp [h]

@[simp] theorem bodyTbSet_core (r : Req) (d : Dev) : (bodyTbSet r d).2.core = d.core :=
  tbBody_core (fun n r d => by simp) r d

/-- The range checks of TB_STEP for a time base, and its landing (R341). -/
def tbStepAct (n : Nat) : Body := fun r d =>
  if 2 ^ 31 < (signed 48 (join48 (arg r 3) (arg r 4))).natAbs then d.say (.badArg 3)
  else if 1000000000 ≤ (arg r 5).toNat then d.say (.badArg 5)
  else if tbCount (2 ^ 31) 0 < (stepOffset r).natAbs then d.say (.badArg 3)
  else if d.aligned n then d.say .wrongState
  else d.doneAtTick r (.tbStep n (stepOffset r))

theorem bodyTbStep_eq : bodyTbStep = tbBody tbStepAct := rfl

theorem tbStepAct_core (n : Nat) (r : Req) (d : Dev) : (tbStepAct n r d).2.core = d.core := by
  simp [tbStepAct]

@[simp] theorem bodyTbStep_core (r : Req) (d : Dev) : (bodyTbStep r d).2.core = d.core := by
  rw [bodyTbStep_eq]
  exact tbBody_core tbStepAct_core r d

@[simp] theorem bodyTbSlew_core (r : Req) (d : Dev) : (bodyTbSlew r d).2.core = d.core :=
  tbBody_core (fun n r d => by simp) r d

@[simp] theorem bodyTbRate_core (r : Req) (d : Dev) : (bodyTbRate r d).2.core = d.core :=
  tbBody_core (fun n r d => by simp) r d

@[simp] theorem bodyTbState_core (r : Req) (d : Dev) : (bodyTbState r d).2.core = d.core :=
  tbBody_core (fun n r d => by simp) r d

@[simp] theorem bodyTbHoldLimit_core (r : Req) (d : Dev) : (bodyTbHoldLimit r d).2.core = d.core :=
  tbBody_core (fun n r d => by simp) r d

@[simp] theorem bodyTb2Lane_core (r : Req) (d : Dev) : (bodyTb2Lane r d).2.core = d.core := by simp [bodyTb2Lane]
@[simp] theorem Dev.captureTb_core (d : Dev) (n : Nat) : (d.captureTb n).core = d.core := by simp [Dev.captureTb]

@[simp] theorem Dev.readTb_core (m : WordRead) (n : Nat) (d : Dev) : (Dev.readTb m n d).core = d.core := by
  simp [Dev.readTb]

@[simp] theorem Dev.snapTb_core (d : Dev) : d.snapTb.core = d.core := by simp [Dev.snapTb]

/-! ### MapTable -/

@[simp] theorem finishMapLoad_core (r : Req) (d : Dev) : (finishMapLoad r d).2.core = d.core := by
  refine imgFinish_core _ (fun ws r d => ?_) r d
  split <;> simp

@[simp] theorem bodyMapRead_core (r : Req) (d : Dev) : (bodyMapRead r d).2.core = d.core := by simp [bodyMapRead]

/-! ### Strand -/

@[simp] theorem Dev.kickPll_core (d : Dev) : d.kickPll.core = d.core := by
  unfold Dev.kickPll
  split
  · rfl
  · split <;> simp

@[simp] theorem Dev.rawStrands_core (d : Dev) : d.rawStrands.core = d.core := by simp [Dev.rawStrands]

@[simp] theorem Dev.reportDown_core (d : Dev) (ks : List Nat) : (d.reportDown ks).core = d.core := by
  simp [Dev.reportDown]

@[simp] theorem Dev.markLost_core (d : Dev) (k why : Nat) : (d.markLost k why).core = d.core := by simp [Dev.markLost]

@[simp] theorem Dev.enter_core (d : Dev) (k : Nat) (st : StrandState) (reason : Nat) :
    (d.enter k st reason).core = d.core := by
  simp [Dev.enter]

@[simp] theorem Dev.toDetect_core (d : Dev) (k : Nat) : (d.toDetect k).core = d.core := by simp [Dev.toDetect]

@[simp] theorem Dev.retryStrand_core (d : Dev) (k reason : Nat) : (d.retryStrand k reason).core = d.core := by
  simp [Dev.retryStrand]

@[simp] theorem Dev.dropLinks_core (d : Dev) (act : List Nat) : (d.dropLinks act).core = d.core := by
  simp [Dev.dropLinks]

@[simp] theorem Dev.linkLost_core (d : Dev) (ks : List Nat) : (d.linkLost ks).core = d.core := by simp [Dev.linkLost]

@[simp] theorem Dev.setDomain_core (d : Dev) (dom : StrandSupply) (on : Bool) : (d.setDomain dom on).core = d.core := by
  unfold Dev.setDomain
  split <;> simp

@[simp] theorem Dev.domainUp_core (d : Dev) (dom : StrandSupply) : (d.domainUp dom).core = d.core := by
  simp [Dev.domainUp]

@[simp] theorem Dev.domainOff_core (d : Dev) (dom : StrandSupply) : (d.domainOff dom).core = d.core := by
  simp [Dev.domainOff]

@[simp] theorem Dev.capsExchange_core (d : Dev) (k : Nat) (w0 w1 w2 w3 : Word) (rtt : Nat) :
    (d.capsExchange k w0 w1 w2 w3 rtt).core = d.core := by
  simp [Dev.capsExchange]

@[simp] theorem Dev.refreshCell_core (d : Dev) (k : Nat) : (d.refreshCell k).core = d.core := by
  unfold Dev.refreshCell
  split <;> simp

@[simp] theorem Dev.activate_core (d : Dev) (k : Nat) : (d.activate k).core = d.core := by simp [Dev.activate]

@[simp] theorem Dev.markBoundary_core (d : Dev) (k comp : Nat) : (d.markBoundary k comp).core = d.core := by
  simp [Dev.markBoundary]

@[simp] theorem Dev.strandBoundary_core (d : Dev) (k : Nat) : (d.strandBoundary k).core = d.core := by
  simp only [Dev.strandBoundary]
  split <;> simp

@[simp] theorem Dev.scan_core (d : Dev) (s : Nat) (inp : Word) : (d.scan s inp).core = d.core := by simp [Dev.scan]

@[simp] theorem landSeverity_core (src sev : Nat) (d : Dev) : (landSeverity src sev d).core = d.core := by
  simp [landSeverity]

@[simp] theorem Dev.strandsBoundary_core (d : Dev) (sideband : List Word) : (d.strandsBoundary sideband).core = d.core := by
  simp [Dev.strandsBoundary]

@[simp] theorem bodyStrand_core (r : Req) (d : Dev) : (bodyStrand r d).2.core = d.core := by
  unfold bodyStrand
  split
  · simp
  · split
    · simp
    · split <;> simp

@[simp] theorem landStrandFields_core (k : Nat) (w : Word) (d : Dev) : (landStrandFields k w d).core = d.core := by
  simp [landStrandFields]

@[simp] theorem bodyAuxOut_core (r : Req) (d : Dev) : (bodyAuxOut r d).2.core = d.core := by simp [bodyAuxOut]

@[simp] theorem bodyReturnCell_core (r : Req) (d : Dev) : (bodyReturnCell r d).2.core = d.core := by
  simp [bodyReturnCell]

@[simp] theorem landReturnCell_core (k : Nat) (d : Dev) : (landReturnCell k d).core = d.core := by simp [landReturnCell]
@[simp] theorem bodyDeepRest_core (r : Req) (d : Dev) : (bodyDeepRest r d).2.core = d.core := by simp [bodyDeepRest]
@[simp] theorem landDeepRest_core (k : Nat) (d : Dev) : (landDeepRest k d).core = d.core := by simp [landDeepRest]
@[simp] theorem bodyWake_core (r : Req) (d : Dev) : (bodyWake r d).2.core = d.core := by simp [bodyWake]
@[simp] theorem landWake_core (k : Nat) (d : Dev) : (landWake k d).core = d.core := by simp [landWake]

@[simp] theorem bodyEndpointCmd_core (r : Req) (d : Dev) : (bodyEndpointCmd r d).2.core = d.core := by
  simp [bodyEndpointCmd]

@[simp] theorem bodyBulkRing_core (r : Req) (d : Dev) : (bodyBulkRing r d).2.core = d.core := by simp [bodyBulkRing]

@[simp] theorem landBulkRing_core (k : Nat) (up : Bool) (off len : Nat) (d : Dev) :
    (landBulkRing k up off len d).core = d.core := by
  simp [landBulkRing]

@[simp] theorem bodyEncoder_core (r : Req) (d : Dev) : (bodyEncoder r d).2.core = d.core := by
  unfold bodyEncoder
  split <;> simp

/-! ### Encoder -/

@[simp] theorem Dev.injectUnit_core (d : Dev) (key : Nat) : (d.injectUnit key).2.core = d.core := by
  simp [Dev.injectUnit]

/-! ### Alloc -/

@[simp] theorem Dev.commitAlloc_core (d : Dev) : d.commitAlloc.core = d.core :=
  foldl_core (fun d p => by split <;> simp) d.spin.stagedAlloc d

@[simp] theorem Dev.mapToSections_core (d : Dev) (m : List Word) : (d.mapToSections m).core = d.core := by
  simp [Dev.mapToSections]

@[simp] theorem bodyAllocStage_core (r : Req) (d : Dev) : (bodyAllocStage r d).2.core = d.core := by
  simp [bodyAllocStage]

@[simp] theorem bodySectionStatus_core (r : Req) (d : Dev) : (bodySectionStatus r d).2.core = d.core := by
  unfold bodySectionStatus
  split <;> simp

/-! ### ModeCommit -/

@[simp] theorem Dev.judgeArm_core (d : Dev) (e t set : Nat) (campus : Bool) :
    (d.judgeArm e t set campus).2.core = d.core := by
  unfold Dev.judgeArm
  split <;> simp

@[simp] theorem Dev.judgeAbort_core (d : Dev) (e : Nat) : (d.judgeAbort e).2.core = d.core := by
  unfold Dev.judgeAbort
  split <;> simp [TickSt.disarm]

@[simp] theorem bodyArm_core (r : Req) (d : Dev) : (bodyArm r d).2.core = d.core := by simp [bodyArm]
@[simp] theorem bodyAbort_core (r : Req) (d : Dev) : (bodyAbort r d).2.core = d.core := by simp [bodyAbort]

@[simp] theorem Dev.dropKind_core (d : Dev) (n : Nat) : (d.dropKind n).core = d.core := by
  unfold Dev.dropKind
  split <;> simp

@[simp] theorem Dev.dropStaged_core (d : Dev) (set : Nat) : (d.dropStaged set).core = d.core := by simp [Dev.dropStaged]
@[simp] theorem bodyUnstage_core (r : Req) (d : Dev) : (bodyUnstage r d).2.core = d.core := by simp [bodyUnstage]

@[simp] theorem Dev.readTickLo_core (b : ReadBytes) (d : Dev) : (Dev.readTickLo b d).core = d.core := by
  simp [Dev.readTickLo]

/-! ### Spindle -/

@[simp] theorem bodyCoefWrite_core (r : Req) (d : Dev) : (bodyCoefWrite r d).2.core = d.core := by
  unfold bodyCoefWrite
  split <;> simp

@[simp] theorem bodyCoefRead_core (r : Req) (d : Dev) : (bodyCoefRead r d).2.core = d.core := by simp [bodyCoefRead]
@[simp] theorem bodyOpenClose_core (r : Req) (d : Dev) : (bodyOpenClose r d).2.core = d.core := by simp [bodyOpenClose]

@[simp] theorem landOpenClose_core (n : Nat) (close : Bool) (d : Dev) : (landOpenClose n close d).core = d.core := by
  simp [landOpenClose]

@[simp] theorem bodyHold_core (r : Req) (d : Dev) : (bodyHold r d).2.core = d.core := by simp [bodyHold]

@[simp] theorem landHold_core (n : Nat) (sel : Bool) (manual : Word) (d : Dev) :
    (landHold n sel manual d).core = d.core := by
  simp [landHold]

@[simp] theorem bodyFlagClear_core (r : Req) (d : Dev) : (bodyFlagClear r d).2.core = d.core := by simp [bodyFlagClear]

@[simp] theorem finishCoefStage_core (r : Req) (d : Dev) : (finishCoefStage r d).2.core = d.core := by
  refine imgFinish_core _ (fun ws r d => ?_) r d
  split <;> simp

@[simp] theorem Dev.commitCoef_core (d : Dev) : d.commitCoef.core = d.core := by simp [Dev.commitCoef]

/-! ### Warp -/

@[simp] theorem Dev.modBank_core (d : Dev) (b : Nat) (f : Bank → Bank) : (d.modBank b f).core = d.core := by
  simp [Dev.modBank]

@[simp] theorem bodyWarpLoad_core (r : Req) (d : Dev) : (bodyWarpLoad r d).2.core = d.core := by simp [bodyWarpLoad]

@[simp] theorem Dev.recheck_core (d : Dev) (b : Nat) : (d.recheck b).core = d.core := by
  unfold Dev.recheck
  dsimp only
  split
  · simp
  · split <;> simp

@[simp] theorem bodyTickConfig_core (r : Req) (d : Dev) : (bodyTickConfig r d).2.core = d.core := by
  unfold bodyTickConfig
  split <;> simp

@[simp] theorem bodySeqStart_core (r : Req) (d : Dev) : (bodySeqStart r d).2.core = d.core := by simp [bodySeqStart]

/-! ### Frames -/

@[simp] theorem Dev.bookFresh_core (d : Dev) (k : Nat) (u : Uplink) : (d.bookFresh k u).core = d.core := by
  simp [Dev.bookFresh]

@[simp] theorem Dev.bookMiss_core (d : Dev) (k : Nat) (crc : Bool) : (d.bookMiss k crc).core = d.core := by
  simp [Dev.bookMiss]

@[simp] theorem Dev.book_core (d : Dev) (k : Nat) : (d.book k).core = d.core := by
  unfold Dev.book
  dsimp only
  split
  · simp
  · split <;> simp

@[simp] theorem Dev.sendBulk_core (d : Dev) (k : Nat) : (d.sendBulk k).core = d.core := by
  unfold Dev.sendBulk
  split
  · simp
  · split <;> simp

@[simp] theorem Dev.putFrame_core (d : Dev) (k : Nat) (f : List Word) (i : Option Injection)
    (behind : Option (List Word)) (at_ : Nat) : (d.putFrame k f i behind at_).core = d.core := by
  simp [Dev.putFrame]

@[simp] theorem Dev.sendFrame_core (d : Dev) (k : Nat) (control : List Word) (at_ : Nat) :
    (d.sendFrame k control at_).core = d.core := by
  simp only [Dev.sendFrame]
  split <;> simp

@[simp] theorem Dev.deliverStrand_core (d : Dev) (e : Entry) (start j : Nat) :
    (d.deliverStrand e start j).core = d.core := by
  simp [Dev.deliverStrand]

@[simp] theorem Dev.deliver_core (d : Dev) (e : Entry) (start : Nat) : (d.deliver e start).core = d.core := by
  simp only [Dev.deliver]
  split <;> simp

/-! ### Meter -/

@[simp] theorem Dev.modOut_core (d : Dev) (j : Nat) (f : PulseOut → PulseOut) : (d.modOut j f).core = d.core := by
  simp [Dev.modOut]

@[simp] theorem Dev.modIn_core (d : Dev) (i : Nat) (f : PulseIn → PulseIn) : (d.modIn i f).core = d.core := by
  simp [Dev.modIn]

@[simp] theorem Dev.feedPulses_core (d : Dev) (q inc : Nat) : (d.feedPulses q inc).core = d.core := by
  simp [Dev.feedPulses]

@[simp] theorem Dev.gain_core (d : Dev) (q inc : Nat) : (d.gain q inc).core = d.core := by
  unfold Dev.gain
  split <;> simp

@[simp] theorem Dev.meterChannel_core (d : Dev) (e : Entry) (c : Nat) : (d.meterChannel e c).core = d.core := by
  simp [Dev.meterChannel]

@[simp] theorem Dev.noteTruth_core (d : Dev) (m : List Word) : (d.noteTruth m).core = d.core :=
  forEach_core (fun p e => by split <;> simp) _ d

@[simp] theorem Dev.gainRaw_core (d : Dev) (q : Nat) (raw : Rat) : (d.gainRaw q raw).core = d.core := by
  simp [Dev.gainRaw]

@[simp] theorem Dev.meterIntake_core (d : Dev) : d.meterIntake.core = d.core := by
  unfold Dev.meterIntake
  split
  · simp
  · split <;> simp

@[simp] theorem Dev.meterRun_core (d : Dev) (e : Entry) : (d.meterRun e).core = d.core := by simp [Dev.meterRun]

@[simp] theorem bodyMeterParam_core (r : Req) (d : Dev) : (bodyMeterParam r d).2.core = d.core := by
  simp only [bodyMeterParam]
  split <;> simp

@[simp] theorem landMeterParam_core (kind i : Nat) (v : Word) (d : Dev) : (landMeterParam kind i v d).core = d.core := by
  simp [landMeterParam]

@[simp] theorem bodyPulseIn_core (r : Req) (d : Dev) : (bodyPulseIn r d).2.core = d.core := by simp [bodyPulseIn]

@[simp] theorem landPulseIn_core (i : Nat) (w3 w4 w5 : Word) (d : Dev) : (landPulseIn i w3 w4 w5 d).core = d.core := by
  simp [landPulseIn]

@[simp] theorem bodyPulseOut_core (r : Req) (d : Dev) : (bodyPulseOut r d).2.core = d.core := by simp [bodyPulseOut]

@[simp] theorem landPulseOut_core (j : Nat) (w3 w4 : Word) (d : Dev) : (landPulseOut j w3 w4 d).core = d.core := by
  simp [landPulseOut]

@[simp] theorem bodyMeterClear_core (r : Req) (d : Dev) : (bodyMeterClear r d).2.core = d.core := by
  simp [bodyMeterClear]

@[simp] theorem Dev.writeMeter0_core (d : Dev) (v : Word) : (d.writeMeter0 v).core = d.core := by simp [Dev.writeMeter0]
@[simp] theorem landSnapReq_core (d : Dev) : (landSnapReq d).core = d.core := by simp [landSnapReq]
@[simp] theorem Dev.rawStuck_core (d : Dev) : d.rawStuck.core = d.core := by simp [Dev.rawStuck]

@[simp] theorem Dev.judgeWindows_core (d : Dev) : d.judgeWindows.core = d.core := by
  simp only [Dev.judgeWindows]
  split <;> simp

@[simp] theorem Dev.openWindows_core (d : Dev) : d.openWindows.core = d.core := by simp [Dev.openWindows]
@[simp] theorem Dev.latchImage_core (d : Dev) : d.latchImage.core = d.core := by simp [Dev.latchImage]

@[simp] theorem Dev.closeRecord_core (d : Dev) (cause sensor : Nat) : (d.closeRecord cause sensor).core = d.core := by
  simp [Dev.closeRecord]

@[simp] theorem Dev.outOfRange_core (d : Dev) (dom : Domain) : (d.outOfRange dom).core = d.core := by
  simp [Dev.outOfRange]

@[simp] theorem Dev.collapse_core (d : Dev) (c : CollapseCause) (sensor : Nat) : (d.collapse c sensor).core = d.core := by
  simp [Dev.collapse]

@[simp] theorem Dev.saveGap_core (d : Dev) (i : MeterImage) : (d.saveGap i).core = d.core := by simp [Dev.saveGap]

@[simp] theorem Dev.meterRestore_core (d : Dev) : d.meterRestore.core = d.core := by
  simp only [Dev.meterRestore]
  split <;> simp

@[simp] theorem Dev.truthResult_core (d : Dev) (input range : Nat) (code : Int) (len : Nat) :
    (d.truthResult input range code len).core = d.core := by
  simp [Dev.truthResult]

/-! ### Adc -/

@[simp] theorem Dev.startWith_core (d : Dev) (c : Nat) (kind input range : Nat) (least : Nat) (tmode ncyc tfix : Nat) :
    (d.startWith c kind input range least tmode ncyc tfix).core = d.core := by
  simp [Dev.startWith]

@[simp] theorem Dev.startConv_core (d : Dev) (c : Nat) (kind input range : Nat) (least : Nat) :
    (d.startConv c kind input range least).core = d.core := by
  simp [Dev.startConv]

@[simp] theorem Dev.openWindow_core (d : Dev) (c : Nat) : (d.openWindow c).core = d.core := by simp [Dev.openWindow]
@[simp] theorem Dev.openAdcWindows_core (d : Dev) : d.openAdcWindows.core = d.core := by simp [Dev.openAdcWindows]
@[simp] theorem Dev.startMode_core (d : Dev) (c : Nat) : (d.startMode c).core = d.core := by simp [Dev.startMode]

@[simp] theorem Dev.startNext_core (d : Dev) (c : Nat) : (d.startNext c).core = d.core := by
  unfold Dev.startNext
  split
  · dsimp only
    split <;> simp
  · dsimp only
    split
    · simp
    · split
      · simp
      · split <;> simp

@[simp] theorem Dev.feedCal_core (d : Dev) (c : Nat) (v : AdcConv) (raw : Int) : (d.feedCal c v raw).core = d.core := by
  simp only [Dev.feedCal]
  split <;> simp

@[simp] theorem Dev.adcBoundary_core (d : Dev) : d.adcBoundary.core = d.core := by simp [Dev.adcBoundary]

@[simp] theorem bodyAdc_core (r : Req) (d : Dev) : (bodyAdc r d).2.core = d.core := by
  unfold bodyAdc
  split
  · split <;> simp
  · split
    · simp
    · split
      · simp
      · split <;> simp

@[simp] theorem landAdc_core (c first : Nat) (words : List Word) (d : Dev) : (landAdc c first words d).core = d.core := by
  simp [landAdc]

@[simp] theorem bodyAdcUrgent_core (r : Req) (d : Dev) : (bodyAdcUrgent r d).2.core = d.core := by simp [bodyAdcUrgent]
@[simp] theorem bodyAdcCal_core (r : Req) (d : Dev) : (bodyAdcCal r d).2.core = d.core := by simp [bodyAdcCal]
@[simp] theorem bodyAdcCoef_core (r : Req) (d : Dev) : (bodyAdcCoef r d).2.core = d.core := by simp [bodyAdcCoef]

theorem Dev.urgentDone_core {d : Dev} {r : Req} {q : Rep × Dev} (h : d.urgentDone r = some q) : q.2.core = d.core := by
  unfold Dev.urgentDone at h
  dsimp only at h
  split at h
  · obtain ⟨w, -, rfl⟩ := Option.map_eq_some_iff.mp h
    simp
  · cases h

theorem Dev.calDone_core {d : Dev} {r : Req} {q : Rep × Dev} (h : d.calDone r = some q) : q.2.core = d.core := by
  unfold Dev.calDone at h
  dsimp only at h
  repeat' split at h
  all_goals cases h
  all_goals simp

/-! ### TrimDrv -/

@[simp] theorem Dev.modDrive_core (d : Dev) (n : Nat) (f : Trim → Trim) : (d.modDrive n f).core = d.core := by
  simp [Dev.modDrive]

@[simp] theorem Dev.setEn_core (d : Dev) (n : Nat) (en : Bool) : (d.setEn n en).core = d.core := by simp [Dev.setEn]

theorem Dev.maskEvent_core {d : Dev} {t : Trim} {q : Nat × Dev} (h : d.maskEvent t = some q) : q.2.core = d.core := by
  unfold Dev.maskEvent at h
  dsimp only at h
  split at h
  · cases h; rfl
  · split at h
    · cases h; simp
    · cases h

@[simp] theorem Dev.bothRise_core (d : Dev) (n : Nat) : (d.bothRise n).core = d.core := by simp [Dev.bothRise]
@[simp] theorem Dev.placeCrossings_core (d : Dev) : d.placeCrossings.core = d.core := by simp [Dev.placeCrossings]
@[simp] theorem Dev.bstLow_core (d : Dev) (n : Nat) : (d.bstLow n).core = d.core := by simp [Dev.bstLow]
@[simp] theorem Dev.vdrvLow_core (d : Dev) (n : Nat) : (d.vdrvLow n).core = d.core := by simp [Dev.vdrvLow]
@[simp] theorem Dev.takeTrims_core (d : Dev) : d.takeTrims.core = d.core := by simp [Dev.takeTrims]
@[simp] theorem Dev.dropTrims_core (d : Dev) : d.dropTrims.core = d.core := by simp [Dev.dropTrims]

@[simp] theorem bodyTrim_core (r : Req) (d : Dev) : (bodyTrim r d).2.core = d.core := by
  unfold bodyTrim
  split
  · simp
  · dsimp only
    split
    · simp
    · split
      · simp
      · split
        · simp
        · split <;> simp

@[simp] theorem landTrim_core (n : Nat) (w : Word) (d : Dev) : (landTrim n w d).core = d.core := by simp [landTrim]
@[simp] theorem bodyTrimPair_core (r : Req) (d : Dev) : (bodyTrimPair r d).2.core = d.core := by simp [bodyTrimPair]
@[simp] theorem bodyTrimStage_core (r : Req) (d : Dev) : (bodyTrimStage r d).2.core = d.core := by simp [bodyTrimStage]

@[simp] theorem bodyTrimDriver_core (r : Req) (d : Dev) : (bodyTrimDriver r d).2.core = d.core := by
  unfold bodyTrimDriver
  split
  · simp
  · split
    · simp
    · split
      · split
        · dsimp only
          split <;> simp
        · dsimp only
          split <;> simp
      · simp

@[simp] theorem bodyLockoutClear_core (r : Req) (d : Dev) : (bodyLockoutClear r d).2.core = d.core := by
  simp [bodyLockoutClear]

@[simp] theorem landLockoutClear_core (n : Nat) (d : Dev) : (landLockoutClear n d).core = d.core := by
  simp [landLockoutClear]

@[simp] theorem Dev.commitTrim_core (d : Dev) : d.commitTrim.core = d.core := by
  refine forEach_core (fun n d => ?_) _ d
  dsimp only
  split
  · split <;> simp
  · split <;> simp

@[simp] theorem Dev.trimBoundary_core (d : Dev) : d.trimBoundary.core = d.core := by simp [Dev.trimBoundary]
@[simp] theorem Dev.releaseTrim_core (d : Dev) (n : Nat) : (d.releaseTrim n).core = d.core := by simp [Dev.releaseTrim]
@[simp] theorem Dev.regroup_core (d : Dev) : d.regroup.core = d.core := by simp [Dev.regroup]

@[simp] theorem bodyCutGroup_core (r : Req) (d : Dev) : (bodyCutGroup r d).2.core = d.core := by
  unfold bodyCutGroup
  split <;> simp

@[simp] theorem Dev.xdieChannel_core (d : Dev) (n : Nat) (period duty ctl : Word) :
    (d.xdieChannel n period duty ctl).core = d.core := by
  simp [Dev.xdieChannel]

@[simp] theorem Dev.xdieBlock_core (d : Dev) (ws : List Word) : (d.xdieBlock ws).core = d.core := by
  simp [Dev.xdieBlock]

/-! ### Ply -/

@[simp] theorem Dev.modPly_core (d : Dev) (f : Ply → Ply) : (d.modPly f).core = d.core := by simp [Dev.modPly]
@[simp] theorem Dev.recordClaims_core (d : Dev) : d.recordClaims.core = d.core := by simp [Dev.recordClaims]

theorem Dev.takeClaim_core {d e : Dev} (h : d.takeClaim = some e) : e.core = d.core := by
  unfold Dev.takeClaim at h
  dsimp only at h
  split at h
  · cases h
  · cases h; simp

@[simp] theorem Dev.exhausted_core (d : Dev) : d.exhausted.core = d.core := by simp [Dev.exhausted]
@[simp] theorem bodyPlyStart_core (r : Req) (d : Dev) : (bodyPlyStart r d).2.core = d.core := by simp [bodyPlyStart]

@[simp] theorem bodyClaimStart_core (r : Req) (d : Dev) : (bodyClaimStart r d).2.core = d.core := by
  simp [bodyClaimStart]

@[simp] theorem Dev.plyLinkDown_core (d : Dev) : d.plyLinkDown.core = d.core := by simp [Dev.plyLinkDown]

@[simp] theorem Dev.askTransfer_core (d : Dev) (h : Hello) : (d.askTransfer h).core = d.core := by
  simp [Dev.askTransfer]

@[simp] theorem Dev.keepHello_core (d : Dev) (h : Hello) : (d.keepHello h).core = d.core := by simp [Dev.keepHello]
@[simp] theorem Dev.takeHello_core (d : Dev) (h : Hello) : (d.takeHello h).core = d.core := by simp [Dev.takeHello]
@[simp] theorem Dev.badUnit_core (d : Dev) : d.badUnit.core = d.core := by simp [Dev.badUnit]

theorem Dev.struckUnit_core {d e : Dev} (h : d.struckUnit = some e) : e.core = d.core := by
  unfold Dev.struckUnit at h
  split at h
  · cases h; simp
  · split at h
    · cases h; simp
    · cases h

@[simp] theorem Dev.onUnit_core (d : Dev) (good : Bool) {f : Dev → Dev} (h : ∀ d, (f d).core = d.core) :
    (d.onUnit good f).core = d.core := by
  unfold Dev.onUnit
  split
  · exact Dev.struckUnit_core ‹_›
  · simp [h]

@[simp] theorem Dev.sayHello_core (d : Dev) : d.sayHello.core = d.core := by simp [Dev.sayHello]

@[simp] theorem Dev.becomeActive_core (d : Dev) : d.becomeActive.core = d.core := by
  unfold Dev.becomeActive
  dsimp only
  split
  · simp
  · rename_i e hclaim
    simp [Dev.takeClaim_core hclaim]

@[simp] theorem Dev.adoptTick_core (d : Dev) (h : Hello) : (d.adoptTick h).core = d.core := by simp [Dev.adoptTick]

@[simp] theorem Dev.fromTb2Src_core (d : Dev) (n : Nat) (src : Bool) : (d.fromTb2Src n src).core = d.core := by
  simp [Dev.fromTb2Src]

@[simp] theorem Dev.toStart_core (d : Dev) (s : StartState) : (d.toStart s).core = d.core := by simp [Dev.toStart]

@[simp] theorem Dev.mirrorStart_core (d : Dev) (code reason : Nat) (pre main : Bool) (time : Nat) :
    (d.mirrorStart code reason pre main time).core = d.core := by
  simp [Dev.mirrorStart]

@[simp] theorem Dev.landMap_core (d : Dev) (m : List Word) : (d.landMap m).core = d.core := by simp [Dev.landMap]

@[simp] theorem Dev.landTrailer_core (d : Dev) (past : Bool) (t : TrailerImage) : (d.landTrailer past t).core = d.core := by
  simp [Dev.landTrailer]

@[simp] theorem Dev.mirrorCommit_core (d : Dev) (st : Nat) (epoch : Word) (target set : Nat) (campus : Bool) :
    (d.mirrorCommit st epoch target set campus).core = d.core := by
  simp [Dev.mirrorCommit]

@[simp] theorem Dev.landSeal_core (d : Dev) (x : SealImage) : (d.landSeal x).core = d.core := by simp [Dev.landSeal]
@[simp] theorem Dev.compareFrames_core (d : Dev) : d.compareFrames.core = d.core := by simp [Dev.compareFrames]
@[simp] theorem Dev.imageDeadline_core (d : Dev) : d.imageDeadline.core = d.core := by simp [Dev.imageDeadline]
@[simp] theorem Dev.imageBoundary_core (d : Dev) : d.imageBoundary.core = d.core := by simp [Dev.imageBoundary]

@[simp] theorem Dev.answerSealed_core (d : Dev) (rest : List LogEntry) : (d.answerSealed rest).core = d.core := by
  simp [Dev.answerSealed]

@[simp] theorem Dev.sealImage_core (d : Dev) : d.sealImage.core = d.core := by simp [Dev.sealImage]
@[simp] theorem Dev.sealStep_core (d : Dev) : d.sealStep.core = d.core := by simp [Dev.sealStep]

@[simp] theorem Dev.singleClaim_core (d : Dev) : d.singleClaim.core = d.core := by
  unfold Dev.singleClaim
  split
  · cases hclaim : (d.modPly (fun p => { p with claimStart := false })).takeClaim with
    | none => simp [hclaim]
    | some e => simp [hclaim, Dev.takeClaim_core hclaim]
  · rfl

@[simp] theorem Dev.toShadow_core (d : Dev) : d.toShadow.core = d.core := by simp [Dev.toShadow]

@[simp] theorem Dev.memberBoundary_core (d : Dev) : d.memberBoundary.core = d.core := by
  unfold Dev.memberBoundary
  split
  · simp
  · split
    · dsimp only
      split <;> simp
    · dsimp only
      split <;> simp

@[simp] theorem Dev.plyBooks_core (d : Dev) : d.plyBooks.core = d.core := by simp [Dev.plyBooks]
@[simp] theorem Dev.landFlags_core (d : Dev) : d.landFlags.core = d.core := by simp [Dev.landFlags]
@[simp] theorem Dev.noteHello_core (d : Dev) : d.noteHello.core = d.core := by simp [Dev.noteHello]

/-! ### Test -/

@[simp] theorem Dev.modLane_core (d : Dev) (key : Nat) (f : LaneTest → LaneTest) : (d.modLane key f).core = d.core := by
  simp [Dev.modLane]

@[simp] theorem bodyTestMode_core (r : Req) (d : Dev) : (bodyTestMode r d).2.core = d.core := by simp [bodyTestMode]
@[simp] theorem landTestMode_core (on : Bool) (d : Dev) : (landTestMode on d).core = d.core := by simp [landTestMode]

@[simp] theorem Dev.countErrors_core (d : Dev) (key : Nat) : (d.countErrors key).core = d.core := by
  simp [Dev.countErrors]

@[simp] theorem bodyLoopback_core (r : Req) (d : Dev) : (bodyLoopback r d).2.core = d.core := by
  unfold bodyLoopback
  split
  · simp
  · split
    · simp
    · dsimp only
      split
      · simp
      · split
        · simp
        · split
          · simp
          · split <;> simp

@[simp] theorem Dev.ethDown_core (d : Dev) (p : Nat) : (d.ethDown p).core = d.core := by simp [Dev.ethDown]
@[simp] theorem Dev.takeLane_core (d : Dev) (key : Nat) : (d.takeLane key).core = d.core := by simp [Dev.takeLane]

@[simp] theorem landLoopback_core (key mode : Nat) (d : Dev) : (landLoopback key mode d).core = d.core := by
  simp [landLoopback]

@[simp] theorem bodyInject_core (r : Req) (d : Dev) : (bodyInject r d).2.core = d.core := by
  simp only [bodyInject]
  split <;> simp

@[simp] theorem Dev.answerStop_core (d : Dev) (key n : Nat) : (d.answerStop key n).core = d.core := by
  unfold Dev.answerStop
  split <;> simp

@[simp] theorem landInject_core (key action n rate : Nat) (d : Dev) : (landInject key action n rate d).core = d.core := by
  simp [landInject]

@[simp] theorem Dev.endCommissioning_core (d : Dev) : d.endCommissioning.core = d.core := by simp [Dev.endCommissioning]
@[simp] theorem bodyCapture_core (r : Req) (d : Dev) : (bodyCapture r d).2.core = d.core := by simp [bodyCapture]

@[simp] theorem landCapture_core (ticks mask : Nat) (d : Dev) : (landCapture ticks mask d).core = d.core := by
  simp [landCapture]

@[simp] theorem Dev.capBoundary_core (d : Dev) : d.capBoundary.core = d.core := by simp [Dev.capBoundary]

/-! ### Eth -/

@[simp] theorem Dev.queueStamp_core (d : Dev) (p : Nat) (m : PtpAt) (t : Int) : (d.queueStamp p m t).core = d.core := by
  simp [Dev.queueStamp]

@[simp] theorem Dev.putOnLine_core (d : Dev) (p : Nat) (bytes : List Byte) : (d.putOnLine p bytes).core = d.core := by
  simp only [Dev.putOnLine]
  split <;> simp

@[simp] theorem Dev.sendOwn_core (d : Dev) (p : Nat) (f : LaunchFrame) : (d.sendOwn p f).core = d.core := by
  unfold Dev.sendOwn
  split <;> simp

@[simp] theorem Dev.missHead_core (d : Dev) (p : Nat) : (d.missHead p).core = d.core := by simp [Dev.missHead]
@[simp] theorem Dev.wakeTx_core (d : Dev) (p : Nat) : (d.wakeTx p).core = d.core := by simp [Dev.wakeTx]

@[simp] theorem Dev.settleQueue_core (d : Dev) (p n : Nat) : (d.settleQueue p n).core = d.core := by
  induction n generalizing d with
  | zero => rfl
  | succ n ih => unfold Dev.settleQueue; split <;> simp [ih]

@[simp] theorem Dev.modServo_core (d : Dev) (n : Nat) (f : Servo → Servo) : (d.modServo n f).core = d.core := by
  simp [Dev.modServo]

@[simp] theorem Dev.noteSent_core (d : Dev) (p : Nat) (m : PtpAt) (t : Int) : (d.noteSent p m t).core = d.core := by
  simp [Dev.noteSent]

@[simp] theorem Dev.sendClock_core (d : Dev) (p : Nat) (f : SecondFrame) : (d.sendClock p f).core = d.core := by
  unfold Dev.sendClock
  split <;> simp

@[simp] theorem Dev.sendRelay_core (d : Dev) (q : Nat) (f : SecondFrame) : (d.sendRelay q f).core = d.core := by
  unfold Dev.sendRelay
  split <;> simp

@[simp] theorem Dev.settleSecond_core (d : Dev) (p n : Nat) : (d.settleSecond p n).core = d.core := by
  induction n generalizing d with
  | zero => rfl
  | succ n ih => unfold Dev.settleSecond; split <;> simp [ih]

@[simp] theorem Dev.settlePort_core (d : Dev) (p : Nat) : (d.settlePort p).core = d.core := by simp [Dev.settlePort]

@[simp] theorem Dev.enqueue_core (d : Dev) (p : Nat) (f : LaunchFrame) : (d.enqueue p f).core = d.core := by
  simp [Dev.enqueue]

@[simp] theorem Dev.sendSecond_core (d : Dev) (p : Nat) (f : SecondFrame) : (d.sendSecond p f).core = d.core := by
  simp [Dev.sendSecond]

theorem Dev.atLaunch_core {d e : Dev} {f : LaunchFrame} (h : d.atLaunch f = some e) : e.core = d.core :=
  Dev.timeUp_core h

@[simp] theorem Dev.atWake_core (d : Dev) (p : Nat) : (d.atWake p).core = d.core := by
  unfold Dev.atWake
  split
  · rfl
  · cases htime : d.timeUp (d.portOf p).wakeAt with
    | none => rfl
    | some e => exact Dev.timeUp_core htime

@[simp] theorem bodyFrameSend_core (r : Req) (d : Dev) : (bodyFrameSend r d).2.core = d.core := by simp [bodyFrameSend]

@[simp] theorem bodyPort_core (r : Req) (d : Dev) : (bodyPort r d).2.core = d.core := by
  unfold bodyPort
  split <;> simp

@[simp] theorem Dev.chainChanged_core (d : Dev) (was : Bool) : (d.chainChanged was).core = d.core := by
  simp [Dev.chainChanged]

@[simp] theorem landPort_core (p first : Nat) (words : List Word) (d : Dev) : (landPort p first words d).core = d.core := by
  simp [landPort]

@[simp] theorem Dev.readEntry0_core (m : WordRead) (p : Nat) (d : Dev) : (Dev.readEntry0 m p d).core = d.core := by
  simp [Dev.readEntry0]

@[simp] theorem Dev.readEntry3_core (m : WordRead) (p : Nat) (d : Dev) : (Dev.readEntry3 m p d).core = d.core := by
  simp [Dev.readEntry3]

@[simp] theorem bodyPtp_core (r : Req) (d : Dev) : (bodyPtp r d).2.core = d.core := by simp [bodyPtp]
@[simp] theorem landPtp_core (w : Word) (d : Dev) : (landPtp w d).core = d.core := by simp [landPtp]

@[simp] theorem Dev.sendCoord_core (d : Dev) (typ : Nat) (body : List Word) (dst : Nat) (mac : BitVec 48) (p : Nat) :
    (d.sendCoord typ body dst mac p).core = d.core := by
  simp [Dev.sendCoord]

@[simp] theorem Dev.flushReplies_core (d : Dev) : d.flushReplies.core = d.core := by simp [Dev.flushReplies]
@[simp] theorem Dev.coordArm_core (d : Dev) (ws : List Word) : (d.coordArm ws).2.core = d.core := by simp [Dev.coordArm]

@[simp] theorem Dev.judgeCoord_core (d : Dev) (w : CoordWait) : (d.judgeCoord w).core = d.core := by
  simp [Dev.judgeCoord]

@[simp] theorem Dev.judgeWaiting_core (d : Dev) : d.judgeWaiting.core = d.core := by simp [Dev.judgeWaiting]

@[simp] theorem Dev.sendReport_core (d : Dev) (cause : Nat) : (d.sendReport cause).core = d.core := by
  simp [Dev.sendReport]

@[simp] theorem Dev.owedBoundary_core (d : Dev) : d.owedBoundary.core = d.core := by simp [Dev.owedBoundary]

@[simp] theorem Dev.coordAct_core (d : Dev) (p : Nat) (ws : List Word) (mac : BitVec 48) :
    (d.coordAct p ws mac).core = d.core := by
  unfold Dev.coordAct
  split <;> simp

@[simp] theorem Dev.takeCoord_core (d : Dev) (p : Nat) (f : CoordFrame) : (d.takeCoord p f).core = d.core := by
  simp [Dev.takeCoord]

@[simp] theorem Dev.sendRequest_core (d : Dev) (p n typ dom : Nat) (udp : Bool) :
    (d.sendRequest p n typ dom udp).core = d.core := by
  simp [Dev.sendRequest]

@[simp] theorem Dev.askDelay_core (d : Dev) (p n : Nat) (m : PtpAt) : (d.askDelay p n m).core = d.core := by
  simp [Dev.askDelay]

@[simp] theorem Dev.servoFirst_core (d : Dev) (n a : Nat) (offset : Int) : (d.servoFirst n a offset).core = d.core := by
  simp [Dev.servoFirst]

@[simp] theorem Dev.askPeer_core (d : Dev) (p : Nat) : (d.askPeer p).core = d.core := by simp [Dev.askPeer]
@[simp] theorem Dev.portsBoundary_core (d : Dev) : d.portsBoundary.core = d.core := by simp [Dev.portsBoundary]

@[simp] theorem Dev.servoSync_core (d : Dev) (n p : Nat) (offset : Int) : (d.servoSync n p offset).core = d.core := by
  simp [Dev.servoSync]

@[simp] theorem Dev.syncTime_core (d : Dev) (n p : Nat) (diff : Int) (m : PtpAt) :
    (d.syncTime n p diff m).core = d.core := by
  simp [Dev.syncTime]

@[simp] theorem Dev.takeSync_core (d : Dev) (n p : Nat) (l : List Byte) (m : PtpAt) (ingress : Int) :
    (d.takeSync n p l m ingress).core = d.core := by
  simp [Dev.takeSync]

@[simp] theorem Dev.takeFollowUp_core (d : Dev) (n p : Nat) (l : List Byte) (m : PtpAt) :
    (d.takeFollowUp n p l m).core = d.core := by
  unfold Dev.takeFollowUp
  split <;> simp

@[simp] theorem Dev.takeDelayResp_core (d : Dev) (n p : Nat) (l : List Byte) (m : PtpAt) :
    (d.takeDelayResp n p l m).core = d.core := by
  simp only [Dev.takeDelayResp]
  split <;> simp

@[simp] theorem Dev.linkMeasured_core (d : Dev) (n p : Nat) (v : Int) : (d.linkMeasured n p v).core = d.core := by
  simp [Dev.linkMeasured]

@[simp] theorem Dev.takePdelayResp_core (d : Dev) (p : Nat) (l : List Byte) (m : PtpAt) (ingress : Int) :
    (d.takePdelayResp p l m ingress).core = d.core := by
  unfold Dev.takePdelayResp
  split
  · split <;> simp
  · simp

@[simp] theorem Dev.takePdelayFollowUp_core (d : Dev) (p : Nat) (l : List Byte) (m : PtpAt) :
    (d.takePdelayFollowUp p l m).core = d.core := by
  unfold Dev.takePdelayFollowUp
  split
  · split <;> simp
  · simp

@[simp] theorem Dev.answerPdelay_core (d : Dev) (p : Nat) (b : List Byte) (m : PtpAt) (ingress : Int) :
    (d.answerPdelay p b m ingress).core = d.core := by
  simp [Dev.answerPdelay]

@[simp] theorem Dev.takePtp_core (d : Dev) (n p : Nat) (l : List Byte) (m : PtpAt) (ingress : Int) :
    (d.takePtp n p l m ingress).core = d.core := by
  unfold Dev.takePtp
  split <;> simp

@[simp] theorem Dev.pass_core (d : Dev) (q : Nat) (f : SecondFrame) : (d.pass q f).core = d.core := by simp [Dev.pass]

@[simp] theorem Dev.forward_core (d : Dev) (p : Nat) (f : EthFrame) : (d.forward p f).core = d.core := by
  unfold Dev.forward
  split
  · simp
  · split
    · simp
    · split <;> simp

@[simp] theorem Dev.badBlocks_core (d : Dev) (p n : Nat) : (d.badBlocks p n).core = d.core := by simp [Dev.badBlocks]

@[simp] theorem Dev.rxStruck_core (d : Dev) (p : Nat) (f : EthFrame ⊕ CoordFrame) (i : Injection) :
    (d.rxStruck p f i).core = d.core := by
  simp [Dev.rxStruck]

@[simp] theorem bodyTelemetry_core (r : Req) (d : Dev) : (bodyTelemetry r d).2.core = d.core := by simp [bodyTelemetry]

@[simp] theorem landTelemetry_core (mask : Word) (period : Nat) (d : Dev) :
    (landTelemetry mask period d).core = d.core := by
  simp [landTelemetry]

/-! ### Can -/

@[simp] theorem Dev.storeBuffer_core (d : Dev) (c b : Nat) (e : CanElem) : (d.storeBuffer c b e).core = d.core := by
  simp [Dev.storeBuffer]

@[simp] theorem Dev.storeFifo_core (d : Dev) (c f : Nat) (e : CanElem) : (d.storeFifo c f e).core = d.core := by
  simp [Dev.storeFifo]

@[simp] theorem Dev.readBufferHead_core (m : WordRead) (c n : Nat) (d : Dev) :
    (Dev.readBufferHead m c n d).core = d.core := by
  simp [Dev.readBufferHead]

@[simp] theorem Dev.readBufferWord_core (m : WordRead) (c n word : Nat) (d : Dev) :
    (Dev.readBufferWord m c n word d).core = d.core := by
  simp [Dev.readBufferWord]

@[simp] theorem Dev.errorLevels_core (d : Dev) (c : Nat) : (d.errorLevels c).core = d.core := by simp [Dev.errorLevels]
@[simp] theorem Dev.popHead_core (d : Dev) (c : Nat) : (d.popHead c).core = d.core := by simp [Dev.popHead]
@[simp] theorem Dev.abandon_core (d : Dev) (c : Nat) : (d.abandon c).core = d.core := by simp [Dev.abandon]

@[simp] theorem Dev.startHead_core (d : Dev) (c n : Nat) : (d.startHead c n).core = d.core := by
  induction n generalizing d with
  | zero => rfl
  | succ n ih => unfold Dev.startHead; dsimp only; split; simp; split; simp [ih]; split <;> split <;> simp [ih]

@[simp] theorem Dev.kickCan_core (d : Dev) (c : Nat) : (d.kickCan c).core = d.core := by simp [Dev.kickCan]
@[simp] theorem Dev.emptyTx_core (d : Dev) (c : Nat) : (d.emptyTx c).core = d.core := by simp [Dev.emptyTx]
@[simp] theorem Dev.txPush_core (d : Dev) (c : Nat) (v : Word) : (d.txPush c v).core = d.core := by simp [Dev.txPush]
@[simp] theorem Dev.txFlush_core (d : Dev) (c : Nat) (v : Word) : (d.txFlush c v).core = d.core := by simp [Dev.txFlush]

@[simp] theorem Dev.attemptFailed_core (d : Dev) (c : Nat) : (d.attemptFailed c).core = d.core := by
  simp [Dev.attemptFailed]

@[simp] theorem Dev.busOff_core (d : Dev) (c : Nat) : (d.busOff c).core = d.core := by simp [Dev.busOff]
@[simp] theorem Dev.ackError_core (d : Dev) (c : Nat) : (d.ackError c).core = d.core := by simp [Dev.ackError]
@[simp] theorem Dev.busIdle_core (d : Dev) (c : Nat) : (d.busIdle c).core = d.core := by simp [Dev.busIdle]
@[simp] theorem Dev.sentHead_core (d : Dev) (c age : Nat) : (d.sentHead c age).core = d.core := by simp [Dev.sentHead]

@[simp] theorem Dev.failedHead_core (d : Dev) (c code : Nat) (dataPhase : Bool) (w : TecCase) :
    (d.failedHead c code dataPhase w).core = d.core := by
  simp [Dev.failedHead]

@[simp] theorem Dev.receiveError_core (d : Dev) (c code : Nat) (dataPhase : Bool) (up : Nat) :
    (d.receiveError c code dataPhase up).core = d.core := by
  simp [Dev.receiveError]

@[simp] theorem Dev.takeFrame_core (d : Dev) (c : Nat) (f : CanFrame) : (d.takeFrame c f).core = d.core := by
  simp only [Dev.takeFrame]
  split <;> simp

/-! ### Island -/

@[simp] theorem bodySafetyLoad_core (r : Req) (d : Dev) : (bodySafetyLoad r d).2.core = d.core := by
  unfold bodySafetyLoad
  split
  · simp
  · split
    · simp
    · split
      · simp
      · split
        · simp
        · split
          · dsimp only
            split <;> simp
          · dsimp only
            split <;> simp

@[simp] theorem bodySafetyConfirm_core (r : Req) (d : Dev) : (bodySafetyConfirm r d).2.core = d.core := by
  simp [bodySafetyConfirm]

@[simp] theorem bodyZoneRequest_core (r : Req) (d : Dev) : (bodyZoneRequest r d).2.core = d.core := by
  simp [bodyZoneRequest]

@[simp] theorem bodyResetArm_core (r : Req) (d : Dev) : (bodyResetArm r d).2.core = d.core := by simp [bodyResetArm]

@[simp] theorem Dev.lockZones_core (d : Dev) (causes : Nat → List Nat) : (d.lockZones causes).1.core = d.core := by
  simp [Dev.lockZones]

@[simp] theorem Dev.driveOutputs_core (d : Dev) : d.driveOutputs.core = d.core := by simp [Dev.driveOutputs]

@[simp] theorem Dev.islandEvents_core (d : Dev) (l : List (Nat × Word)) : (d.islandEvents l).core = d.core := by
  simp [Dev.islandEvents]

@[simp] theorem Dev.safeStop_core (d : Dev) : d.safeStop.core = d.core := by simp [Dev.safeStop]

@[simp] theorem Dev.takeParams_core (d : Dev) : (d.takeParams).1.core = d.core := by
  unfold Dev.takeParams
  split <;> simp

@[simp] theorem Dev.takeRequests_core (d : Dev) : d.takeRequests.core = d.core := by simp [Dev.takeRequests]

@[simp] theorem Dev.sampleInputs_core (d : Dev) (i : IslandIn) : (d.sampleInputs i).core = d.core := by
  simp [Dev.sampleInputs]

@[simp] theorem Dev.soloCycle_core (d : Dev) (i : IslandIn) : (d.soloCycle i).core = d.core := by simp [Dev.soloCycle]
@[simp] theorem Dev.xchkCycle_core (d : Dev) : d.xchkCycle.core = d.core := by simp [Dev.xchkCycle]

@[simp] theorem Dev.measureZone_core (d : Dev) (i : IslandIn) (z : Nat) : (d.measureZone i z).core = d.core := by
  simp [Dev.measureZone]

@[simp] theorem Dev.resetZone_core (d : Dev) (old : Island) (z : Nat) : (d.resetZone old z).core = d.core := by
  simp [Dev.resetZone]

@[simp] theorem Dev.openCycle_core (d : Dev) : d.openCycle.core = d.core := by simp [Dev.openCycle]
@[simp] theorem Dev.restCycle_core (d : Dev) (i : IslandIn) : (d.restCycle i).core = d.core := by simp [Dev.restCycle]
@[simp] theorem Dev.runCycle_core (d : Dev) (i : IslandIn) : (d.runCycle i).core = d.core := by simp [Dev.runCycle]
@[simp] theorem Dev.vsafeLost_core (d : Dev) : d.vsafeLost.core = d.core := by simp [Dev.vsafeLost]

@[simp] theorem bodySafetyStatus_core (r : Req) (d : Dev) : (bodySafetyStatus r d).2.core = d.core := by
  unfold bodySafetyStatus
  split
  · split <;> simp
  · simp

/-! ### Mailbox -/

@[simp] theorem Dev.boxWrite_core (d : Dev) (m : Master) (ch : Nat) (side : Chan → Nat) {f : Dev → Dev}
    (h : ∀ d, (f d).core = d.core) : (d.boxWrite m ch side f).core = d.core := by
  simp [Dev.boxWrite, h]

@[simp] theorem Dev.post_core (d : Dev) (ch : Nat) : (d.post ch).core = d.core := by simp [Dev.post]
@[simp] theorem Dev.withdraw_core (d : Dev) (ch : Nat) : (d.withdraw ch).core = d.core := by simp [Dev.withdraw]

@[simp] theorem Dev.turnAway_core (d : Dev) (ch : Fin 32) : (d.turnAway ch).core = d.core := by
  unfold Dev.turnAway
  dsimp only
  split
  · simp
  · split <;> simp

@[simp] theorem Dev.pickUp_core (d : Dev) (ch : Nat) : (d.pickUp ch).core = d.core := by simp [Dev.pickUp]
@[simp] theorem Dev.landed_core (d : Dev) (ch : Nat) : (d.landed ch).core = d.core := by simp [Dev.landed]
@[simp] theorem Dev.complete_core (d : Dev) (ch : Nat) : (d.complete ch).core = d.core := by simp [Dev.complete]

@[simp] theorem Dev.doorbell_core (d : Dev) (ch : Nat) (v : Word) : (d.doorbell ch v).core = d.core := by
  simp [Dev.doorbell]

@[simp] theorem Dev.control_core (d : Dev) (ch : Nat) (v : Word) : (d.control ch v).core = d.core := by
  simp [Dev.control]

@[simp] theorem Dev.writeReq_core (d : Dev) (ch i : Nat) (v : Word) : (d.writeReq ch i v).core = d.core := by
  simp [Dev.writeReq]

@[simp] theorem Dev.writeRep_core (d : Dev) (ch i : Nat) (v : Word) : (d.writeRep ch i v).core = d.core := by
  simp [Dev.writeRep]

@[simp] theorem Dev.lockBinding_core (d : Dev) : d.lockBinding.core = d.core := by simp [Dev.lockBinding]

@[simp] theorem Dev.writeBinding_core (d : Dev) (ch : Nat) (second : Bool) (v : Word) :
    (d.writeBinding ch second v).core = d.core := by
  simp [Dev.writeBinding]

@[simp] theorem Dev.writeWrEn_core (d : Dev) (i : Nat) (v : Word) : (d.writeWrEn i v).core = d.core := by
  simp [Dev.writeWrEn]

@[simp] theorem Dev.recoveryWord_core (d : Dev) (ch : Nat) (w : Word) : (d.recoveryWord ch w).core = d.core := by
  simp [Dev.recoveryWord]

@[simp] theorem Dev.popFwd_core (m : WordRead) (ch : Nat) (d : Dev) : (Dev.popFwd m ch d).core = d.core := by
  simp [Dev.popFwd]

@[simp] theorem Dev.popBack_core (m : WordRead) (ch : Nat) (d : Dev) : (Dev.popBack m ch d).core = d.core := by
  simp [Dev.popBack]

@[simp] theorem Dev.clearOvf_core (d : Dev) (ch : Nat) (v : Word) : (d.clearOvf ch v).core = d.core := by
  simp [Dev.clearOvf]

@[simp] theorem Dev.clearCauses_core (d : Dev) (id : Nat) (v : Word) : (d.clearCauses id v).core = d.core := by
  simp [Dev.clearCauses]

@[simp] theorem Dev.writeEnables_core (d : Dev) (id : Nat) (v : Word) : (d.writeEnables id v).core = d.core := by
  simp [Dev.writeEnables]

@[simp] theorem Dev.qspiStatus_core (d : Dev) : d.qspiStatus.core = d.core := by simp [Dev.qspiStatus]
@[simp] theorem Dev.qspiError_core (d : Dev) : d.qspiError.core = d.core := by simp [Dev.qspiError]
@[simp] theorem Dev.resetFn_core (d : Dev) (n : Nat) : (d.resetFn n).core = d.core := by simp [Dev.resetFn]

/-! ### Recipe -/

@[simp] theorem finishRecipeLoad_core (r : Req) (d : Dev) : (finishRecipeLoad r d).2.core = d.core := by
  refine imgFinish_core _ (fun ws r d => ?_) r d
  dsimp only
  split <;> simp

@[simp] theorem Dev.newTargets_core (d : Dev) (step : Bool) : (d.newTargets step).core = d.core := by
  simp [Dev.newTargets]

@[simp] theorem Dev.doneAtStep_core (d : Dev) (r : Req) (w : StepWrite) : (d.doneAtStep r w).2.core = d.core := by
  simp [Dev.doneAtStep]

@[simp] theorem landStepWrite_core (w : StepWrite) (at0 : Nat) (d : Dev) : (landStepWrite w at0 d).core = d.core := by
  unfold landStepWrite
  split <;> simp

@[simp] theorem Dev.expireDaylight_core (d : Dev) : d.expireDaylight.core = d.core := by simp [Dev.expireDaylight]
@[simp] theorem Dev.expireDemand_core (d : Dev) : d.expireDemand.core = d.core := by simp [Dev.expireDemand]
@[simp] theorem Dev.recipeStep_core (d : Dev) : d.recipeStep.core = d.core := by simp [Dev.recipeStep]
@[simp] theorem Dev.recipeMissed_core (d : Dev) : d.recipeMissed.core = d.core := by simp [Dev.recipeMissed]

@[simp] theorem Dev.commitRecipe_core (d : Dev) : d.commitRecipe.core = d.core := by
  unfold Dev.commitRecipe
  split <;> simp

@[simp] theorem Dev.commitChan_core (d : Dev) : d.commitChan.core = d.core := by simp [Dev.commitChan]
@[simp] theorem bodyChanStage_core (r : Req) (d : Dev) : (bodyChanStage r d).2.core = d.core := by simp [bodyChanStage]

@[simp] theorem bodyLocalOffset_core (r : Req) (d : Dev) : (bodyLocalOffset r d).2.core = d.core := by
  simp [bodyLocalOffset]

@[simp] theorem bodyScale_core (r : Req) (d : Dev) : (bodyScale r d).2.core = d.core := by simp [bodyScale]
@[simp] theorem bodyDlTimeout_core (r : Req) (d : Dev) : (bodyDlTimeout r d).2.core = d.core := by simp [bodyDlTimeout]

/-! ### Referee -/

@[simp] theorem Dev.modRef_core (d : Dev) (f : Referee → Referee) : (d.modRef f).core = d.core := by simp [Dev.modRef]

@[simp] theorem bodyRefereeTick_core (r : Req) (d : Dev) : (bodyRefereeTick r d).2.core = d.core := by
  simp [bodyRefereeTick]

@[simp] theorem bodyRefereeStart_core (r : Req) (d : Dev) : (bodyRefereeStart r d).2.core = d.core := by
  simp [bodyRefereeStart]

@[simp] theorem Dev.refereeActs_core (d : Dev) (f : Referee → Referee) : (d.refereeActs f).core = d.core := by
  simp [Dev.refereeActs]

/-! ### Thermal -/

@[simp] theorem bodyThermal_core (r : Req) (d : Dev) : (bodyThermal r d).2.core = d.core := by
  simp only [bodyThermal]
  split <;> simp

@[simp] theorem landThermal_core (row : Nat) (v : Int) (d : Dev) : (landThermal row v d).core = d.core := by
  simp [landThermal]

@[simp] theorem Dev.sampleSensors_core (d : Dev) (readings : List Int) : (d.sampleSensors readings).core = d.core := by
  simp only [Dev.sampleSensors, Dev.core_mk, Core.mk_fields]
  exact forEach_core (fun i d => by simp) _ d

@[simp] theorem Dev.shutDown_core (d : Dev) (sensor : Nat) : (d.shutDown sensor).core = d.core := by simp [Dev.shutDown]
@[simp] theorem Dev.stepDie_core (d : Dev) : (d.stepDie).1.core = d.core := by simp [Dev.stepDie]
@[simp] theorem Dev.stepCell_core (d : Dev) (k : Nat) : (d.stepCell k).1.core = d.core := by simp [Dev.stepCell]
@[simp] theorem Dev.returnStep_core (d : Dev) : d.returnStep.core = d.core := by simp [Dev.returnStep]

@[simp] theorem Dev.stepTick_core (d : Dev) : d.stepTick.core = d.core := by
  simp [Dev.stepTick, foldl_fst_core]

/-! ### Reset -/

@[simp] theorem bodyDeviceReset_core (r : Req) (d : Dev) : (bodyDeviceReset r d).2.core = d.core := by
  simp [bodyDeviceReset]

@[simp] theorem Dev.takeCfg_core (d : Dev) (c : Option SignedCfg) : (d.takeCfg c).core = d.core := by simp [Dev.takeCfg]
@[simp] theorem Dev.dividers_core (d : Dev) : d.dividers.core = d.core := by simp [Dev.dividers]

@[simp] theorem Dev.bootRom_core (d : Dev) (recoveryLow : Bool) : (d.bootRom recoveryLow).core = d.core := by
  simp [Dev.bootRom]

@[simp] theorem Dev.writeTables_core (d : Dev) : d.writeTables.core = d.core := by simp [Dev.writeTables]

@[simp] theorem finishFwStage_core (r : Req) (d : Dev) : (finishFwStage r d).2.core = d.core :=
  imgFinish_core _ (fun ws r d => by simp) r d

@[simp] theorem bodyFwActivate_core (r : Req) (d : Dev) : (bodyFwActivate r d).2.core = d.core := by
  simp [bodyFwActivate]

/-! ### System -/

@[simp] theorem bodyNop_core (r : Req) (d : Dev) : (bodyNop r d).2.core = d.core := by simp [bodyNop]
@[simp] theorem bodyInfo_core (r : Req) (d : Dev) : (bodyInfo r d).2.core = d.core := by simp [bodyInfo]

@[simp] theorem bodyQuery_core (r : Req) (d : Dev) : (bodyQuery r d).2.core = d.core := by
  unfold bodyQuery
  split
  · simp
  · split <;> simp

@[simp] theorem Dev.logImage_core (d : Dev) (op : Nat) (r : Req) (p : Rep) : (d.logImage op r p).core = d.core := by
  simp [Dev.logImage]

@[simp] theorem Dev.completeLong_core (d : Dev) (x : LongRun) (p : Rep) : (d.completeLong x p).core = d.core := by
  simp [Dev.completeLong]

/-! ### References -/

@[simp] theorem Dev.moveRef_core (d : Dev) (n : Nat) (old : Int) : (d.moveRef n old).core = d.core := by
  simp [Dev.moveRef]

@[simp] theorem Dev.moveRefs_core (d : Dev) : d.moveRefs.core = d.core := by simp [Dev.moveRefs]
@[simp] theorem Dev.redoRefs_core (d : Dev) : d.redoRefs.core = d.core := by simp [Dev.redoRefs]
@[simp] theorem Dev.zeroTargets_core (d : Dev) : d.zeroTargets.core = d.core := by simp [Dev.zeroTargets]

/-! ### Start -/

@[simp] theorem Dev.tripReason_core (d : Dev) (r : Nat) : (d.tripReason r).core = d.core := by simp [Dev.tripReason]

@[simp] theorem Dev.tripAt_core (d : Dev) (r t : Nat) : (d.tripAt r t).core = d.core := by
  unfold Dev.tripAt
  split
  · rename_i e htime
    simp [Dev.timeUp_core htime]
  · rfl

@[simp] theorem Dev.noteVdc_core (d : Dev) : d.noteVdc.core = d.core := by simp [Dev.noteVdc]

@[simp] theorem Dev.trip_core (d : Dev) (r : Nat) : (d.trip r).core = d.core := by
  simp [Dev.trip, Power.dropCmds]

@[simp] theorem Dev.advanceStart_core (d : Dev) : d.advanceStart.core = d.core := by
  unfold Dev.advanceStart
  split <;> simp

/-- The feedback inputs leave the hold of the main logic alone. -/
@[simp] theorem Power.noteFeedback_held (p : Power) (now : Nat) : (p.noteFeedback now).held = p.held := rfl

@[simp] theorem Dev.startBoundary_core (d : Dev) : d.startBoundary.core = d.core := by
  unfold Dev.startBoundary
  dsimp only
  split
  · simp
  · split <;> simp

@[simp] theorem Dev.rearm_core (d : Dev) : d.rearm.core = d.core := by simp [Dev.rearm]

/-! ### Replay -/

@[simp] theorem Dev.freshOpenClose_core (d : Dev) (n : Nat) : (d.freshOpenClose n).core = d.core := by
  simp [Dev.freshOpenClose]

@[simp] theorem Dev.nameSlot_core (d : Dev) : d.nameSlot.core = d.core := by simp [Dev.nameSlot]

/-! ### Transfer -/

@[simp] theorem landOne_core (l : Landing) (d : Dev) : (landOne l d).core = d.core := by
  unfold landOne
  split <;> simp

@[simp] theorem Dev.sendPieces_core (n : Nat) (d : Dev) : (Dev.sendPieces n d).core = d.core := by
  induction n generalizing d with
  | zero => rfl
  | succ n ih => unfold Dev.sendPieces; split; simp; simp; split <;> simp [ih]

@[simp] theorem Dev.sendTransfer_core (d : Dev) : d.sendTransfer.core = d.core := by simp [Dev.sendTransfer]

/-! ### WarpRun -/

@[simp] theorem Dev.runEntry_core (d : Dev) (cls i : Nat) {f : Entry → Nat → Dev → Dev}
    (h : ∀ e n d, (f e n d).core = d.core) : (d.runEntry cls i f).core = d.core := by
  unfold Dev.runEntry
  split <;> simp [h]

@[simp] theorem Dev.seeFloor_core (d : Dev) (k : Nat) : (d.seeFloor k).core = d.core := by
  unfold Dev.seeFloor
  split <;> simp

@[simp] theorem Dev.digest_core (d : Dev) (k : Nat) : (d.digest k).core = d.core := by
  unfold Dev.digest
  split <;> simp

/-! ### Tick -/

@[simp] theorem landPlace_core (due : List Landing) (n : Nat) (d : Dev) : (landPlace due n d).core = d.core := by
  simp [landPlace]

@[simp] theorem Dev.takeDue_core (d : Dev) : (d.takeDue).2.core = d.core := by simp [Dev.takeDue]

@[simp] theorem Dev.landBases_core (d : Dev) (due : List Landing) : (d.landBases due).core = d.core := by
  simp [Dev.landBases]

@[simp] theorem Dev.refire_core (d : Dev) (g : Nat) : (d.refire g).core = d.core := by simp [Dev.refire]

@[simp] theorem Dev.releaseGroups_core (d : Dev) (g : Nat) : (d.releaseGroups g).core = d.core := by
  simp [Dev.releaseGroups]

@[simp] theorem Dev.landReleases_core (d : Dev) : d.landReleases.core = d.core := by simp [Dev.landReleases]
@[simp] theorem Dev.commitWarp_core (d : Dev) : d.commitWarp.core = d.core := by simp [Dev.commitWarp]

@[simp] theorem Dev.commitMap_core (d : Dev) : d.commitMap.core = d.core := by
  unfold Dev.commitMap
  split <;> simp

@[simp] theorem Dev.applySet_core (d : Dev) (set : Nat) : (d.applySet set).core = d.core := by simp [Dev.applySet]
@[simp] theorem Dev.reachGuard_core (d : Dev) : d.reachGuard.core = d.core := by simp [Dev.reachGuard]

@[simp] theorem Dev.commitBoundary_core (d : Dev) : d.commitBoundary.core = d.core := by
  simp [Dev.commitBoundary, TickSt.disarm]

@[simp] theorem Dev.aliveBoundary_core (d : Dev) : d.aliveBoundary.core = d.core := by simp [Dev.aliveBoundary]
@[simp] theorem Dev.limitBoundary_core (d : Dev) : d.limitBoundary.core = d.core := by simp [Dev.limitBoundary]
@[simp] theorem Dev.islandBoundary_core (d : Dev) : d.islandBoundary.core = d.core := by simp [Dev.islandBoundary]
@[simp] theorem Dev.shiftSchedules_core (d : Dev) : d.shiftSchedules.core = d.core := by simp [Dev.shiftSchedules]

@[simp] theorem Dev.ownBoundary_core (d : Dev) (ownIn : Bool) : (d.ownBoundary ownIn).core = d.core := by
  simp [Dev.ownBoundary]

@[simp] theorem Dev.plyBoundary_core (d : Dev) : d.plyBoundary.core = d.core := by simp [Dev.plyBoundary]
@[simp] theorem Dev.openTick_core (d : Dev) (n at_ : Nat) : (d.openTick n at_).core = d.core := by simp [Dev.openTick]

@[simp] theorem Dev.landBoundary_core (d : Dev) (b : BoundaryIn) : (d.landBoundary b).core = d.core := by
  simp [Dev.landBoundary]

@[simp] theorem Dev.advanceTo_core (d : Dev) (cyc : Nat) : (d.advanceTo cyc).core = d.core := by simp [Dev.advanceTo]
@[simp] theorem Dev.toFirst_core (d : Dev) : (d.toFirst).2.core = d.core := by simp [Dev.toFirst]
@[simp] theorem Dev.calibrate_core (d : Dev) (ok : Bool) : (d.calibrate ok).core = d.core := by simp [Dev.calibrate]

@[simp] theorem Dev.probe_core (d : Dev) (railB : Bool) (step : Nat) (abort : Bool) :
    (d.probe railB step abort).core = d.core := by
  simp [Dev.probe]

@[simp] theorem Dev.scrub_core (d : Dev) (fixed bad : Option Word) : (d.scrub fixed bad).core = d.core := by
  simp [Dev.scrub]

/-! ### Registers -/

@[simp] theorem Dev.writeStatus_core (d : Dev) (id off : Nat) (v : Word) : (d.writeStatus id off v).core = d.core := by
  unfold Dev.writeStatus
  split <;> simp

@[simp] theorem Dev.writeFault_core (d : Dev) (off : Nat) (v : Word) : (d.writeFault off v).core = d.core := by
  simp [Dev.writeFault]

@[simp] theorem Dev.writeMeter_core (d : Dev) (off : Nat) (v : Word) : (d.writeMeter off v).core = d.core := by
  simp [Dev.writeMeter]

@[simp] theorem Dev.writeClocks_core (d : Dev) (off : Nat) (v : Word) : (d.writeClocks off v).core = d.core := by
  simp [Dev.writeClocks]

@[simp] theorem Dev.writeCan_core (d : Dev) (c off : Nat) (v : Word) : (d.writeCan c off v).core = d.core := by
  simp [Dev.writeCan]

@[simp] theorem Dev.writeBox_core (d : Dev) (m : Master) (ch off : Nat) (v : Word) :
    (d.writeBox m ch off v).core = d.core := by
  simp [Dev.writeBox]

@[simp] theorem Dev.mgmtOnly_core (d : Dev) (m : Master) {f : Dev → Dev} (h : ∀ d, (f d).core = d.core) :
    (d.mgmtOnly m f).core = d.core := by
  simp [Dev.mgmtOnly, h]

@[simp] theorem Dev.writeMailTables_core (d : Dev) (m : Master) (off : Nat) (v : Word) :
    (d.writeMailTables m off v).core = d.core := by
  simp [Dev.writeMailTables]

@[simp] theorem Dev.writeQueue_core (d : Dev) (m : Master) (ch off : Nat) (v : Word) :
    (d.writeQueue m ch off v).core = d.core := by
  simp [Dev.writeQueue]

@[simp] theorem Dev.writeBar0_core (d : Dev) (m : Master) (off : Nat) (v : Word) : (d.writeBar0 m off v).core = d.core := by
  simp [Dev.writeBar0]

@[simp] theorem Dev.writeRun_core (d : Dev) (m : Master) (off : Nat) (data : List Byte) :
    (d.writeRun m off data).core = d.core := by
  simp [Dev.writeRun]

/-! ### Idle -/

@[simp] theorem Dev.idleCycle_core (d : Dev) : d.idleCycle.core = d.core := by simp [Dev.idleCycle]

end Sys2Proof.Machine

end

section
/-!
PROOFS. O49 and O59: what may become of the core in the operations that write the memories, start the sequencer or
reset the device.
-/

namespace Sys2Proof.Machine

/-! ### What a step may do to the core -/

/-- Nothing of the core is lost: each memory stays canonical where it was, and a running sequencer goes on. -/
structure Core.Keeps (a b : Core) : Prop where
  weft : Memory.wf a.weft = true → Memory.wf b.weft = true
  bar2 : Memory.wf a.bar2 = true → Memory.wf b.bar2 = true
  run : a.run = true → b.run = true

/-- What a whole step may do: as `Core.Keeps`, but for a reset, which stops the sequencer and holds the main logic
(R439). -/
structure Core.Steps (a b : Core) : Prop where
  weft : Memory.wf a.weft = true → Memory.wf b.weft = true
  bar2 : Memory.wf a.bar2 = true → Memory.wf b.bar2 = true
  run : a.run = true → b.run = true ∨ b.held = true

@[refl, simp] theorem Core.Keeps.refl (a : Core) : a.Keeps a := ⟨id, id, id⟩

@[trans] theorem Core.Keeps.trans {a b c : Core} (h : a.Keeps b) (k : b.Keeps c) : a.Keeps c :=
  ⟨k.weft ∘ h.weft, k.bar2 ∘ h.bar2, k.run ∘ h.run⟩

theorem Core.Keeps.steps {a b : Core} (h : a.Keeps b) : a.Steps b := ⟨h.weft, h.bar2, fun r => .inl (h.run r)⟩

@[simp] theorem Core.Steps.refl (a : Core) : a.Steps a := (Core.Keeps.refl a).steps

/-- A step that writes the weft region alone keeps the core where it keeps the region canonical. -/
@[simp] theorem Core.keeps_weft {d : Dev} {w : Mem} :
    d.core.Keeps ⟨w, d.bar2, d.tk.seqRun, d.pwr.held⟩ ↔ (Memory.wf d.weft = true → Memory.wf w = true) :=
  ⟨fun h => h.weft, fun h => ⟨h, id, id⟩⟩

/-- A step that writes the BAR2 window alone keeps the core where it keeps the window canonical. -/
@[simp] theorem Core.keeps_bar2 {d : Dev} {m : Mem} :
    d.core.Keeps ⟨d.weft, m, d.tk.seqRun, d.pwr.held⟩ ↔ (Memory.wf d.bar2 = true → Memory.wf m = true) :=
  ⟨fun h => h.bar2, fun h => ⟨id, h, id⟩⟩

theorem Dev.keeps_setWeft (d : Dev) {w : Mem} (h : Memory.wf d.weft = true → Memory.wf w = true) :
    d.core.Keeps ({ d with weft := w } : Dev).core := ⟨h, id, id⟩

/-- A choice between two steps keeps the core where both do. -/
theorem Core.Keeps.ite {a x y : Core} {c : Prop} [Decidable c] (hx : a.Keeps x) (hy : a.Keeps y) :
    a.Keeps (if c then x else y) := by
  split
  · exact hx
  · exact hy

/-- Steps that each keep the core keep it together. -/
theorem foldl_keeps {α : Type} {f : Dev → α → Dev} (h : ∀ (d : Dev) (a : α), d.core.Keeps (f d a).core) (l : List α)
    (d : Dev) : d.core.Keeps (l.foldl f d).core := by
  induction l generalizing d with
  | nil => exact .refl _
  | cons a l ih => exact (h d a).trans (ih _)

/-- Steps for the numbers of a list that each keep the core keep it together. -/
theorem forEach_keeps {f : Nat → Dev → Dev} (h : ∀ (i : Nat) (d : Dev), d.core.Keeps (f i d).core) (l : List Nat)
    (d : Dev) : d.core.Keeps (forEach l f d).core :=
  foldl_keeps (fun d i => h i d) l d

/-- Writes that each keep a memory canonical keep it so together. -/
theorem wf_foldl {α : Type} {f : Mem → α → Mem} (h : ∀ m a, Memory.wf m = true → Memory.wf (f m a) = true) (l : List α)
    (m : Mem) (hm : Memory.wf m = true) : Memory.wf (l.foldl f m) = true := by
  induction l generalizing m with
  | nil => exact hm
  | cons a l ih => exact ih _ (h m a hm)

/-- A choice between two canonical memories is canonical. -/
theorem wf_ite {c : Prop} [Decidable c] {x y : Mem} (hx : Memory.wf x = true) (hy : Memory.wf y = true) :
    Memory.wf (if c then x else y) = true := by
  split
  · exact hx
  · exact hy

/-! ### The writers of the weft region -/

/-- The results that a run writes leave the region canonical (R123). -/
theorem wf_writeCells {m : Mem} (dst : Nat) (strands : List Nat) (rs : List (Nat × List Word)) (h : Memory.wf m = true) :
    Memory.wf (writeCells m dst strands rs) = true :=
  wf_foldl (fun _ _ hm => Laws.wf_memPutWords hm) strands m h

theorem Dev.writeReports_keeps (d : Dev) (sec dst : Nat) : d.core.Keeps (d.writeReports sec dst).core := by
  simp only [Dev.writeReports, Dev.core_mk, Core.keeps_weft]
  exact fun h => Laws.wf_memPutWords (wf_foldl (fun _ _ hm => Laws.wf_memPutWords hm) _ _ h)

theorem Dev.runAlloc_keeps (d : Dev) (e : Entry) : d.core.Keeps (d.runAlloc e).core := by
  unfold Dev.runAlloc
  split
  · refine .trans ?_ (Dev.writeReports_keeps _ _ _)
    simpa using wf_writeCells _ _ _
  · simp only [Dev.core_ite, Dev.events_core, ite_self]
    refine .trans ?_ (Dev.writeReports_keeps _ _ _)
    simpa using wf_writeCells _ _ _

theorem Dev.mapFallback_keeps (d : Dev) (e : Entry) : d.core.Keeps (d.mapFallback e).core := by
  unfold Dev.mapFallback
  split
  · exact .refl _
  · refine .trans ?_ (Dev.writeReports_keeps _ _ _)
    simpa using wf_writeCells _ _ _

theorem Dev.sectionShares_keeps (d : Dev) (delivers : List Entry) (e : Entry) :
    d.core.Keeps (d.sectionShares delivers e).core := by
  unfold Dev.sectionShares
  split
  · exact .refl _
  · simp only [Dev.modSec_core, Dev.core_mk, Core.keeps_weft]
    refine wf_foldl (fun w p hw => ?_) _ _
    split
    · exact Laws.wf_memPutWord hw _ _
    · exact hw

theorem Dev.shareStage_keeps (d : Dev) (i : Nat) : d.core.Keeps (d.shareStage i).core := by
  simp only [Dev.shareStage, Dev.core_ite]
  exact .ite (foldl_keeps (fun d e => d.sectionShares_keeps _ e) _ _) (.refl _)

theorem Dev.dropShares_keeps (d : Dev) (e : Entry) : d.core.Keeps (d.dropShares e).core := by
  simp only [Dev.dropShares, Dev.core_mk, Core.keeps_weft]
  exact wf_foldl (fun w k hw => wf_ite hw (Laws.wf_memPutWords hw)) _ _

theorem Dev.allocService_keeps (d : Dev) (e : Entry) : d.core.Keeps (d.allocService e).core := by
  refine .trans (forEach_keeps (fun k d => ?_) _ d) (Dev.dropShares_keeps _ e)
  dsimp only
  split
  · simpa using fun h => Laws.wf_memPutWord h _ _
  · simpa using fun h => Laws.wf_memPutWord h _ _

theorem Dev.allocInputs_keeps (d : Dev) (e : Entry) : d.core.Keeps (d.allocInputs e).core := by
  refine .trans ?_ (Dev.allocService_keeps _ e)
  rw [Dev.useFresh_core]
  refine .trans ?_ (Dev.keeps_setWeft _ fun h => wf_foldl (fun m c hm => wf_ite hm (Laws.wf_memPutWords hm)) _ _ h)
  refine .trans ?_ (Dev.keeps_setWeft _ fun h => Laws.wf_memPutWords h)
  rw [Dev.modSec_core]

theorem Dev.limitNow_keeps (d : Dev) : d.core.Keeps d.limitNow.core := by
  have hrefs : d.redoRefs.core = d.core := d.redoRefs_core
  exact hrefs ▸ foldl_keeps Dev.allocInputs_keeps d.redoRefs.allocEntries d.redoRefs

theorem Dev.allocBoundary_keeps (d : Dev) (newMap : Bool) : d.core.Keeps (d.allocBoundary newMap).core := by
  have hinputs := foldl_keeps Dev.allocInputs_keeps d.allocEntries d
  simp only [Dev.allocBoundary, Dev.core_ite]
  exact .ite (hinputs.trans (foldl_keeps Dev.mapFallback_keeps _ _)) hinputs

theorem Dev.evalInst_keeps (fault : Option (Nat × Nat)) (d : Dev) (x : Descr) :
    d.core.Keeps (d.evalInst fault x).core := by
  simp only [Dev.evalInst, Dev.core_ite, Dev.events_core, Dev.core_mk, Dev.modInst_core, Dev.modInst_weft,
    Dev.modInst_bar2, Dev.modInst_tk, Dev.modInst_pwr, ite_self, Core.keeps_weft]
  exact wf_foldl (fun _ _ hm => Laws.wf_memPutWord hm _ _) _ _

theorem Dev.runSpin_keeps (d : Dev) (b : Bank) (e : Entry) (fault : Option (Nat × Nat)) :
    d.core.Keeps (d.runSpin b e fault).core :=
  foldl_keeps (fun d _ => d.evalInst_keeps fault _) _ d

theorem Dev.intakeWrite_keeps (d : Dev) (k i dst s : Nat) : d.core.Keeps (d.intakeWrite k i dst s).core := by
  simp only [Dev.intakeWrite, Dev.core_mk, Core.keeps_weft]
  intro h
  have hflag := Laws.wf_memPutWord h (dst + 4 * i) (d.flagWord (d.strandOf k).rx)
  split
  · split
    · exact wf_foldl (fun _ _ hm => Laws.wf_memPutWords hm) _ _ hflag
    · exact hflag
  · exact hflag

theorem Dev.intake_keeps (d : Dev) (e : Entry) : d.core.Keeps (d.intake e).core := by
  simp only [Dev.intake, Dev.core_ite, Dev.events_core, Dev.rawStrands_core, ite_self]
  refine foldl_keeps (fun d p => ?_) _ d
  simpa using d.intakeWrite_keeps p.1 p.2 e.dst e.stride16

theorem Dev.landTable_keeps (d : Dev) (u : Nat × List Byte) : d.core.Keeps (d.landTable u).core := by
  simpa [Dev.landTable] using Laws.wf_memPutBytes

theorem Dev.landWaiting_keeps (d : Dev) : d.core.Keeps d.landWaiting.core := by
  have htables := foldl_keeps Dev.landTable_keeps d.ply.rx.tables d
  unfold Dev.landWaiting
  split
  · dsimp only
    split
    · simpa using htables
    · exact htables
  · exact .refl _

theorem Dev.plyUnit_keeps (d : Dev) (u : PlyRx) : d.core.Keeps (d.plyUnit u).core := by
  unfold Dev.plyUnit
  dsimp only
  split
  · exact .refl _
  · split
    · simp
    · split
      · exact .refl _
      · simp only [Dev.core_ite, Dev.modPly_core]
        refine .ite (.trans ?_ (Dev.landTable_keeps _ _)) (.refl _)
        simp
      · simp
      · simp

theorem Dev.landXfer_keeps (d : Dev) (u : XferUnit) : d.core.Keeps (d.landXfer u).core := by
  cases u with
  | weft off data => simpa [Dev.landXfer] using Laws.wf_memPutBytes
  | _ => simp [Dev.landXfer]

theorem Dev.placeBank_keeps (d : Dev) (b : Nat) (k : Bank) : d.core.Keeps (d.placeBank b k).core := by
  have hbank : (d.modBank b (fun _ => k)).core = d.core := d.modBank_core b _
  exact hbank ▸ Dev.keeps_setWeft _ Laws.wf_memPutWords

/-! ### The writers of the BAR2 window -/

theorem wf_ringPut {m : Mem} (off len pos : Nat) (bs : List Byte) (h : Memory.wf m = true) :
    Memory.wf (ringPut m off len pos bs) = true :=
  wf_foldl (fun _ _ hm => Laws.wf_memPut hm _ _) _ m h

theorem Dev.takeBulk_keeps (d : Dev) (k : Nat) (hdr : Word) (data : List Word) (crc : Word) :
    d.core.Keeps (d.takeBulk k hdr data crc).core := by
  unfold Dev.takeBulk
  split
  · simp
  · split
    · exact .refl _
    · split
      · exact .refl _
      · simpa using wf_ringPut _ _ _ _

theorem Dev.writeResult_keeps (d : Dev) (c : Nat) (w : Word) : d.core.Keeps (d.writeResult c w).core := by
  simpa [Dev.writeResult] using fun h => Laws.wf_memPutWord h _ w

theorem Dev.conversionEnd_keeps (d : Dev) (c : Nat) (raw : Int) : d.core.Keeps (d.conversionEnd c raw).core := by
  simp only [Dev.conversionEnd, Dev.startNext_core, Dev.core_ite, Dev.truthResult_core, Dev.feedCal_core, ite_self]
  refine .trans ?_ (Dev.writeResult_keeps _ _ _)
  simp

theorem Dev.poolPut_keeps (d : Dev) (b : Byte) : d.core.Keeps (d.poolPut b).core := by
  simpa [Dev.poolPut] using fun h => Laws.wf_memPut h _ b

theorem Dev.toHostRing_keeps (d : Dev) (l : List Byte) (ingress : Int) : d.core.Keeps (d.toHostRing l ingress).core := by
  simp only [Dev.toHostRing, Dev.core_mk, Core.keeps_bar2]
  exact wf_foldl (fun _ _ hm => Laws.wf_memPut hm _ _) _ _

theorem Dev.consumePtp_keeps (d : Dev) (p : Nat) (f : EthFrame) (m : PtpAt) : d.core.Keeps (d.consumePtp p f m).core := by
  unfold Dev.consumePtp
  dsimp only
  split
  · simp
  · simp only [Dev.core_ite, Dev.takePtp_core]
    refine .ite (.trans ?_ (Dev.toHostRing_keeps _ _ _)) ?_
    · simp
    · simp

theorem Dev.consume_keeps (d : Dev) (p : Nat) (f : EthFrame) : d.core.Keeps (d.consume p f).core := by
  unfold Dev.consume
  split
  · exact d.consumePtp_keeps p f _
  · simp

theorem Dev.rxFrame_keeps (d : Dev) (p : Nat) (f : EthFrame) : d.core.Keeps (d.rxFrame p f).core := by
  unfold Dev.rxFrame
  dsimp only
  split
  · simp
  · split
    · simp
    · rw [Dev.core_ite]
      refine .ite (.trans ?_ (Dev.consume_keeps _ p f)) ?_
      · simp
      · simp

theorem Dev.rxAny_keeps (d : Dev) (p : Nat) (f : EthFrame ⊕ CoordFrame) : d.core.Keeps (d.rxAny p f).core := by
  cases f with
  | inl f => exact d.rxFrame_keeps p f
  | inr f => exact d.rxFrame_keeps p _

theorem Dev.rxPort_keeps (d : Dev) (p : Nat) (f : EthFrame ⊕ CoordFrame) : d.core.Keeps (d.rxPort p f).core := by
  unfold Dev.rxPort
  split
  · exact .refl _
  · have hfirst : d.core.Keeps
        ((((d.injectUnit (injKey 2 p 1)).2.modPort p (fun e => { e with heldRx := none })).rxAny p f)).core := by
      refine .trans ?_ (Dev.rxAny_keeps _ p f)
      simp
    dsimp only
    split
    · simp
    · split
      · exact hfirst.trans (Dev.rxAny_keeps _ p _)
      · exact hfirst

/-- A guarded write keeps the core where the write does. -/
theorem Dev.guarded_keeps (d : Dev) (m : Master) (block : Nat) {f : Dev → Dev} (h : d.core.Keeps (f d).core) :
    d.core.Keeps (d.guarded m block f).core := by
  unfold Dev.guarded
  split
  · simp
  · split
    · exact h
    · simp

theorem Dev.writeBar2_keeps (d : Dev) (m : Master) (off : Nat) (data : List Byte) :
    d.core.Keeps (d.writeBar2 m off data).core := by
  unfold Dev.writeBar2
  split
  · exact .refl _
  · refine d.guarded_keeps m 5 (forEach_keeps (fun i d => ?_) _ d)
    simpa using fun h => Laws.wf_memPut h _ _

theorem Dev.writeSpace_keeps (d : Dev) (m : Master) (space : Space) (off : Nat) (data : List Byte) :
    d.core.Keeps (d.writeSpace m space off data).core := by
  cases space with
  | bar0 => simp [Dev.writeSpace]
  | bar2 => exact d.writeBar2_keeps m off data
  | other _ => exact .refl _

theorem Dev.qspiWrite_keeps (d : Dev) (space : Space) (off : Nat) (data : List Byte) :
    d.core.Keeps (d.qspiWrite space off data).core := by
  have hwrite : d.core.Keeps (if (data.take (qspiKept space off data.length / 4 * 4)).isEmpty then d
      else d.writeSpace .qspi space off (data.take (qspiKept space off data.length / 4 * 4))).core := by
    split
    · exact .refl _
    · exact d.writeSpace_keeps .qspi space off _
  simpa [Dev.qspiWrite] using hwrite

/-! ### Commands that end or land later -/

theorem finishWarpLoad_keeps (r : Req) (d : Dev) : d.core.Keeps (finishWarpLoad r d).2.core := by
  unfold finishWarpLoad imgFinish
  dsimp only
  split
  · simp
  · split
    · simp
    · split
      · simp
      · split
        · simp
        · simp only [snd_core_ite, Dev.doneStaged_core]
          exact .ite (.refl _) (d.placeBank_keeps _ _)

/-- The end of an image load keeps the core, whatever is loaded (R418). -/
theorem finishImage_keeps {op : Nat} {f : Body} (h : finishImage op = some f) (r : Req) (d : Dev) :
    d.core.Keeps (f r d).2.core := by
  unfold finishImage at h
  split at h
  · cases h; simp
  · split at h
    · cases h; simp
    · split at h
      · cases h; simp
      · split at h
        · cases h; exact finishWarpLoad_keeps r d
        · split at h
          · cases h; simp
          · cases h

theorem Dev.finish_keeps {d : Dev} {op : Nat} {r : Req} {q : Rep × Dev} (h : d.finish op r = some q) :
    d.core.Keeps q.2.core := by
  unfold Dev.finish at h
  split at h
  · rename_i f himage
    cases h
    exact finishImage_keeps himage r d
  · split at h
    · split at h
      · cases h
      · cases h; exact .refl _
    · split at h
      · rw [Dev.urgentDone_core h]
      · split at h
        · rw [Dev.calDone_core h]
        · cases h

theorem Dev.endLong_keeps (d : Dev) (x : LongRun) : d.core.Keeps (d.endLong x).core := by
  unfold Dev.endLong
  split
  · exact .refl _
  · rename_i q hfinish
    simpa using Dev.finish_keeps hfinish

/-- The writes of the groups 0x00 to 0x02 that the log carries keep the core. -/
theorem logBodies1_core : ∀ p ∈ logBodies1, ∀ r d, (p.2 r d).2.core = d.core := by
  simp [logBodies1]

/-- The writes of the groups 0x03 to 0x07 that the log carries keep the core. -/
theorem logBodies2_core : ∀ p ∈ logBodies2, ∀ r d, (p.2 r d).2.core = d.core := by
  simp [logBodies2]

/-- A logged write or a logged load keeps the core (R219, R221). -/
theorem logBody_keeps {e : LogEntry} {f : Body} (h : logBody e = some f) (r : Req) (d : Dev) :
    d.core.Keeps (f r d).2.core := by
  unfold logBody at h
  split at h
  · obtain ⟨p, hp, rfl⟩ := Option.map_eq_some_iff.mp h
    have hcore : (p.2 r d).2.core = d.core :=
      (List.mem_append.mp (List.mem_of_find?_eq_some hp)).elim (logBodies1_core p · r d) (logBodies2_core p · r d)
    rw [hcore]
  · exact finishImage_keeps h r d

/-- A body that runs on another BAR2 window, which is put back after it, keeps the core where the body does. -/
theorem Dev.keeps_besideBar2 {d q : Dev} {m : Mem} {host : HostIf} {landing : List (Landing × Accepted)}
    (h : Core.Keeps ({ d with bar2 := m } : Dev).core q.core) :
    d.core.Keeps ({ q with host := host, bar2 := d.bar2, landing := landing } : Dev).core :=
  ⟨h.weft, id, h.run⟩

/-- The image of a load stands in the BAR2 window for the time of the load alone (R221). -/
theorem Dev.replay_keeps (d : Dev) (e : LogEntry) : d.core.Keeps (d.replay e).core := by
  unfold Dev.replay
  split
  · exact .refl _
  · rename_i f hbody
    have hlog : logBody e = some f := by
      split at hbody
      · cases hbody
      · exact hbody
    refine .trans ?_ (Dev.keeps_besideBar2 (logBody_keeps hlog _ _))
    simp

theorem Dev.landLog_keeps (d : Dev) : d.core.Keeps d.landLog.core := by
  have hdue : (d.modPly (fun p => { p with logDue := [] })).core = d.core := d.modPly_core _
  simp only [Dev.landLog, Dev.nameSlot_core]
  exact hdue ▸ foldl_keeps Dev.replay_keeps _ _

/-- One of the writes that a ply active took in its guard window is carried out (R80, R432). -/
theorem deferredBodies_core : ∀ p ∈ logBodies1 ++ logBodies2 ++
    [(0x0023, bodyCutRelease), (0x0701, bodyArm), (0x0702, bodyAbort)],
    ∀ r d, (p.2 r d).2.core = d.core := by
  simp only [List.forall_mem_append]
  exact ⟨⟨logBodies1_core, logBodies2_core⟩, by simp⟩

theorem Dev.takeDeferred_keeps (d : Dev) : d.core.Keeps d.takeDeferred.core := by
  have hcleared : (d.modPly (fun p => { p with deferred := [] })).core = d.core := d.modPly_core _
  refine hcleared ▸ foldl_keeps (fun d w => ?_) _ _
  dsimp only
  split
  · split
    · exact d.endLong_keeps _
    · exact .refl _
  · split
    · rename_i p hp
      rw [carryOut_core _ _ (deferredBodies_core p (List.mem_of_find?_eq_some hp))]
    · exact .refl _

/-! ### Boundaries -/

theorem Dev.closeTick_keeps (d : Dev) : d.core.Keeps d.closeTick.core := by
  simp only [Dev.closeTick, Dev.core_mk, Core.mk_fields, Dev.shiftSchedules_core, Dev.endCommissioning_core]
  refine .trans ?_ (Dev.landLog_keeps _)
  simp

theorem Dev.boundaryWork_keeps (d : Dev) (b : BoundaryIn) : d.core.Keeps (d.boundaryWork b).core := by
  have hclose := d.reachGuard.closeTick_keeps
  simp only [Dev.boundaryWork, Dev.owedBoundary_core, Dev.noteHello_core, Dev.capBoundary_core, Dev.startBoundary_core,
    Dev.core_mk, Core.mk_fields, Dev.adcBoundary_core]
  refine .trans ?_ (Dev.allocBoundary_keeps _ _)
  simpa using hclose

theorem Dev.atBoundary_keeps (d : Dev) (b : BoundaryIn) : d.core.Keeps (d.atBoundary b).core := by
  simpa [Dev.atBoundary] using d.boundaryWork_keeps b

/-- The sequencer runs from its first boundary on (R36). -/
theorem Dev.beginTicks_keeps (d : Dev) (k n at_ : Nat) (b : BoundaryIn) : d.core.Keeps (d.beginTicks k n at_ b).core := by
  refine .trans ?_ (Dev.atBoundary_keeps _ b)
  simp only [Dev.openTick_core]
  exact ⟨id, id, fun _ => rfl⟩

/-! ### Resets and their end -/

/-- A reset holds the main logic, and leaves of the memories only the capture pool (R437, R439). -/
theorem Dev.mainReset_steps (d : Dev) (c : ResetCause) : d.core.Steps (d.mainReset c).core :=
  ⟨fun _ => rfl, Laws.wf_filter _, fun _ => .inr rfl⟩

theorem Dev.vaonReset_steps (d : Dev) : d.core.Steps d.vaonReset.core := by
  simpa [Dev.vaonReset] using d.mainReset_steps .porAon

theorem Dev.supplyLost_steps (d : Dev) (dom : Domain) (cause : Nat) : d.core.Steps (d.supplyLost dom cause).core := by
  simpa [Dev.supplyLost] using (d.closeRecord cause 0).mainReset_steps .collapse

/-- A release ends the hold, and keeps the BAR2 window only where VMEM held it (R437, R440). -/
theorem Dev.release_steps (d : Dev) (role : Role) (recoveryLow vmemHeld : Bool) :
    d.core.Steps (d.release role recoveryLow vmemHeld).core := by
  simp only [Dev.release, Dev.bootRom_core, Dev.core_mk]
  refine ⟨id, fun h => ?_, .inl⟩
  exact wf_ite h rfl

end Sys2Proof.Machine

end

section
/-!
PROOFS. O49 and O59: every command leads where a step may lead.
-/

namespace Sys2Proof.Machine

/-! ### Every command -/

/-- An outcome that, where it is a next state, is one that a step may reach. -/
def Leads (s : State) (o : Host.Outcome State Fault Refusal) : Prop :=
  ∀ t, o = .next t → s.dev.core.Steps t.dev.core

theorem leads_onDev {f : Dev → Dev} (h : ∀ d : Dev, d.core.Steps (f d).core) (s : State) : Leads s (onDev f s) := by
  rintro t ⟨⟩
  exact h s.dev

theorem leads_onMain {f : Dev → Dev} (h : ∀ d : Dev, d.core.Steps (f d).core) (s : State) : Leads s (onMain f s) := by
  refine leads_onDev (fun d => ?_) s
  split
  · exact .refl _
  · exact h d

/-- A command whose effect leaves the core alone. -/
@[simp] theorem leads_onDev_of_core {f : Dev → Dev} (h : ∀ d : Dev, (f d).core = d.core) (s : State) :
    Leads s (onDev f s) :=
  leads_onDev (fun d => by simp [h]) s

/-- A command of the main logic whose effect leaves the core alone. -/
@[simp] theorem leads_onMain_of_core {f : Dev → Dev} (h : ∀ d : Dev, (f d).core = d.core) (s : State) :
    Leads s (onMain f s) :=
  leads_onMain (fun d => by simp [h]) s

/-- A command of the main logic whose effect loses nothing of the core. -/
theorem leads_onMain_of_keeps {f : Dev → Dev} (h : ∀ d : Dev, d.core.Keeps (f d).core) (s : State) : Leads s (onMain f s) :=
  leads_onMain (fun d => (h d).steps) s

/-- An entry of the warp table loses nothing of the core where the work of its class does not (R42). -/
theorem Dev.runEntry_keeps (d : Dev) (cls i : Nat) {f : Entry → Nat → Dev → Dev}
    (h : ∀ e n (d : Dev), d.core.Keeps (f e n d).core) : d.core.Keeps (d.runEntry cls i f).core := by
  unfold Dev.runEntry
  split
  · exact .refl _
  · refine .trans ?_ (h _ _ _)
    simp

/-- A unit that is taken from the ply link loses nothing of the core where what it brings does not (R217). -/
theorem Dev.onUnit_keeps (d : Dev) (good : Bool) {f : Dev → Dev} (h : d.core.Keeps (f d).core) :
    d.core.Keeps (d.onUnit good f).core := by
  unfold Dev.onUnit
  split
  · rename_i e hstruck
    rw [Dev.struckUnit_core hstruck]
  · split
    · exact h
    · simp

theorem execSeverity_leads (r : Req) (s : State) : Leads s (execSeverity r s) := by simp [execSeverity]
theorem execStopTh_leads (r : Req) (s : State) : Leads s (execStopTh r s) := by simp [execStopTh]

theorem execStatusClear_leads (m : Master) (w : Fin 16) (v : Word) (s : State) : Leads s (execStatusClear m w v s) := by
  refine leads_onMain_of_core (fun d => ?_) s
  simp

theorem execHankAck_leads (m : Master) (v : Word) (s : State) : Leads s (execHankAck m v s) := by simp [execHankAck]

theorem execFeValidClear_leads (m : Master) (v : Word) (s : State) : Leads s (execFeValidClear m v s) := by
  simp [execFeValidClear]

theorem execHankEntry_leads (s : State) : Leads s (execHankEntry s) := by simp [execHankEntry]
theorem execWatchdogExpiry_leads (s : State) : Leads s (execWatchdogExpiry s) := by simp [execWatchdogExpiry]
theorem execCutIn_leads (s : State) : Leads s (execCutIn s) := by simp [execCutIn]

theorem execCutInDeassert_leads (s : State) : Leads s (execCutInDeassert s) := by
  refine leads_onMain_of_core (fun d => ?_) s
  simp

theorem execPlyCutIn_leads (s : State) : Leads s (execPlyCutIn s) := by simp [execPlyCutIn]

theorem execPlyCutInDeassert_leads (s : State) : Leads s (execPlyCutInDeassert s) := by
  refine leads_onMain_of_core (fun d => ?_) s
  simp

theorem execCutSymbols_leads (k : Fin 256) (s : State) : Leads s (execCutSymbols k s) := by simp [execCutSymbols]

theorem execStrandSourceEnd_leads (k : Fin 256) (s : State) : Leads s (execStrandSourceEnd k s) := by
  simp [execStrandSourceEnd]

theorem execCutFire_leads (m : Master) (v : Word) (s : State) : Leads s (execCutFire m v s) := by simp [execCutFire]
theorem execCut_leads (r : Req) (s : State) : Leads s (execCut r s) := by simp [execCut]
theorem execCutRelease_leads (r : Req) (s : State) : Leads s (execCutRelease r s) := by simp [execCutRelease]
theorem execCutMatrix_leads (r : Req) (s : State) : Leads s (execCutMatrix r s) := by simp [execCutMatrix]
theorem execPllLocked_leads (p : PllId) (s : State) : Leads s (execPllLocked p s) := by simp [execPllLocked]
theorem execLockClear_leads (p : PllId) (s : State) : Leads s (execLockClear p s) := by simp [execLockClear]

theorem execAcquireTimeout_leads (p : PllId) (s : State) : Leads s (execAcquireTimeout p s) := by
  simp [execAcquireTimeout]

theorem execRefLost_leads (s : State) : Leads s (execRefLost s) := by simp [execRefLost]
theorem execRefValid_leads (errA errB : Int) (s : State) : Leads s (execRefValid errA errB s) := by simp [execRefValid]
theorem execReturnSlewEnd_leads (p : PllId) (s : State) : Leads s (execReturnSlewEnd p s) := by simp [execReturnSlewEnd]
theorem execTickSyncIn_leads (fine : Fin 64) (s : State) : Leads s (execTickSyncIn fine s) := by simp [execTickSyncIn]
theorem execTbSet_leads (r : Req) (s : State) : Leads s (execTbSet r s) := by simp [execTbSet]
theorem execTbStep_leads (r : Req) (s : State) : Leads s (execTbStep r s) := by simp [execTbStep]
theorem execTbSlew_leads (r : Req) (s : State) : Leads s (execTbSlew r s) := by simp [execTbSlew]
theorem execTbRate_leads (r : Req) (s : State) : Leads s (execTbRate r s) := by simp [execTbRate]
theorem execTbState_leads (r : Req) (s : State) : Leads s (execTbState r s) := by simp [execTbState]
theorem execTbHoldLimit_leads (r : Req) (s : State) : Leads s (execTbHoldLimit r s) := by simp [execTbHoldLimit]
theorem execTb2Lane_leads (r : Req) (s : State) : Leads s (execTb2Lane r s) := by simp [execTb2Lane]

theorem execTbRecordRead_leads (m : WordRead) (n : Fin 4) (s : State) : Leads s (execTbRecordRead m n s) := by
  simp [execTbRecordRead]

theorem execTbSnapReq_leads (m : Master) (v : Word) (s : State) : Leads s (execTbSnapReq m v s) := by
  simp [execTbSnapReq]

theorem execMapLoad_leads (r : Req) (s : State) : Leads s (execMapLoad r s) := by simp [execMapLoad]
theorem execMapRead_leads (r : Req) (s : State) : Leads s (execMapRead r s) := by simp [execMapRead]

theorem execSupplyDomainOn_leads (dom : StrandSupply) (s : State) : Leads s (execSupplyDomainOn dom s) := by
  simp [execSupplyDomainOn]

theorem execSupplyDomainOff_leads (dom : StrandSupply) (s : State) : Leads s (execSupplyDomainOff dom s) := by
  simp [execSupplyDomainOff]

theorem execClusterPllLock_leads (k : Fin 16) (s : State) : Leads s (execClusterPllLock k s) := by simp [execClusterPllLock]

theorem execClusterPllUnlock_leads (k : Fin 16) (s : State) : Leads s (execClusterPllUnlock k s) := by
  simp [execClusterPllUnlock]

theorem execReceiverDetection_leads (k : Fin 256) (seen : Bool) (s : State) : Leads s (execReceiverDetection k seen s) := by
  simp [execReceiverDetection]

theorem execBitLock_leads (k : Fin 256) (s : State) : Leads s (execBitLock k s) := by simp [execBitLock]
theorem execTrainTimeout_leads (k : Fin 256) (s : State) : Leads s (execTrainTimeout k s) := by simp [execTrainTimeout]
theorem execSymbolLock_leads (k : Fin 256) (s : State) : Leads s (execSymbolLock k s) := by simp [execSymbolLock]
theorem execLockTimeout_leads (k : Fin 256) (s : State) : Leads s (execLockTimeout k s) := by simp [execLockTimeout]
theorem execCapsTimeout_leads (k : Fin 256) (s : State) : Leads s (execCapsTimeout k s) := by simp [execCapsTimeout]

theorem execSymbolLockLost_leads (k : Fin 256) (s : State) : Leads s (execSymbolLockLost k s) := by
  simp [execSymbolLockLost]

theorem execDeepSymbols_leads (k : Fin 256) (s : State) : Leads s (execDeepSymbols k s) := by simp [execDeepSymbols]

theorem execCapabilityFrame_leads (k : Fin 256) (w0 w1 w2 w3 : Word) (e : CapsEnd) (s : State) :
    Leads s (execCapabilityFrame k w0 w1 w2 w3 e s) := by
  refine leads_onMain_of_core (fun d => ?_) s
  split
  · simp
  · split
    · dsimp only
      split <;> simp
    · dsimp only
      split <;> simp

theorem execStrand_leads (r : Req) (s : State) : Leads s (execStrand r s) := by simp [execStrand]
theorem execAuxOut_leads (r : Req) (s : State) : Leads s (execAuxOut r s) := by simp [execAuxOut]
theorem execReturnCell_leads (r : Req) (s : State) : Leads s (execReturnCell r s) := by simp [execReturnCell]
theorem execDeepRest_leads (r : Req) (s : State) : Leads s (execDeepRest r s) := by simp [execDeepRest]
theorem execWake_leads (r : Req) (s : State) : Leads s (execWake r s) := by simp [execWake]
theorem execEndpointCmd_leads (r : Req) (s : State) : Leads s (execEndpointCmd r s) := by simp [execEndpointCmd]
theorem execBulkRing_leads (r : Req) (s : State) : Leads s (execBulkRing r s) := by simp [execBulkRing]
theorem execEncoder_leads (r : Req) (s : State) : Leads s (execEncoder r s) := by simp [execEncoder]
theorem execAllocStage_leads (r : Req) (s : State) : Leads s (execAllocStage r s) := by simp [execAllocStage]
theorem execSectionStatus_leads (r : Req) (s : State) : Leads s (execSectionStatus r s) := by simp [execSectionStatus]
theorem execReport_leads (r : Req) (s : State) : Leads s (execReport r s) := by simp [execReport]
theorem execArm_leads (r : Req) (s : State) : Leads s (execArm r s) := by simp [execArm]
theorem execAbort_leads (r : Req) (s : State) : Leads s (execAbort r s) := by simp [execAbort]
theorem execUnstage_leads (r : Req) (s : State) : Leads s (execUnstage r s) := by simp [execUnstage]
theorem execTickLoRead_leads (m : WordRead) (s : State) : Leads s (execTickLoRead m s) := by simp [execTickLoRead]
theorem execCoefWrite_leads (r : Req) (s : State) : Leads s (execCoefWrite r s) := by simp [execCoefWrite]
theorem execCoefRead_leads (r : Req) (s : State) : Leads s (execCoefRead r s) := by simp [execCoefRead]
theorem execOpenClose_leads (r : Req) (s : State) : Leads s (execOpenClose r s) := by simp [execOpenClose]
theorem execHold_leads (r : Req) (s : State) : Leads s (execHold r s) := by simp [execHold]
theorem execFlagClear_leads (r : Req) (s : State) : Leads s (execFlagClear r s) := by simp [execFlagClear]
theorem execCoefStage_leads (r : Req) (s : State) : Leads s (execCoefStage r s) := by simp [execCoefStage]
theorem execWarpLoad_leads (r : Req) (s : State) : Leads s (execWarpLoad r s) := by simp [execWarpLoad]
theorem execTickConfig_leads (r : Req) (s : State) : Leads s (execTickConfig r s) := by simp [execTickConfig]
theorem execSeqStart_leads (r : Req) (s : State) : Leads s (execSeqStart r s) := by simp [execSeqStart]

theorem execUplinkFrame_leads (k : Fin 256) (f : UplinkLine) (s : State) : Leads s (execUplinkFrame k f s) := by
  refine leads_onMain_of_keeps (fun d => ?_) s
  dsimp only
  split
  · exact .refl _
  · split
    · simp
    · split
      · refine .trans ?_ (Dev.takeBulk_keeps _ _ _ _ _)
        simp
      · simp

theorem execMeterParam_leads (r : Req) (s : State) : Leads s (execMeterParam r s) := by simp [execMeterParam]
theorem execPulseIn_leads (r : Req) (s : State) : Leads s (execPulseIn r s) := by simp [execPulseIn]
theorem execPulseOut_leads (r : Req) (s : State) : Leads s (execPulseOut r s) := by simp [execPulseOut]
theorem execMeterClear_leads (r : Req) (s : State) : Leads s (execMeterClear r s) := by simp [execMeterClear]
theorem execSnapReq_leads (m : Master) (v : Word) (s : State) : Leads s (execSnapReq m v s) := by simp [execSnapReq]

theorem execPulseInputChange_leads (i : Fin 16) (active : Bool) (s : State) :
    Leads s (execPulseInputChange i active s) := by
  simp [execPulseInputChange]

theorem execPulseInputStuck_leads (i : Fin 16) (s : State) : Leads s (execPulseInputStuck i s) := by
  refine leads_onMain_of_core (fun d => ?_) s
  dsimp only
  split
  · split
    · rename_i e htime
      simp [Dev.timeUp_core htime]
    · rfl
  · rfl

theorem execOverRateWindow_leads (s : State) : Leads s (execOverRateWindow s) := by simp [execOverRateWindow]

theorem execPulseOutputStart_leads (j : Fin 8) (s : State) : Leads s (execPulseOutputStart j s) := by
  simp [execPulseOutputStart]

theorem execPulseOutputEnd_leads (j : Fin 8) (s : State) : Leads s (execPulseOutputEnd j s) := by
  refine leads_onMain_of_core (fun d => ?_) s
  dsimp only
  split
  · rfl
  · split
    · rename_i e htime
      simp [Dev.timeUp_core htime]
    · rfl

theorem execMeterImageLatch_leads (s : State) : Leads s (execMeterImageLatch s) := by simp [execMeterImageLatch]

theorem execImageWriteDone_leads (ok : Bool) (s : State) : Leads s (execImageWriteDone ok s) := by
  refine leads_onDev_of_core (fun d => ?_) s
  split <;> simp

theorem execOddConversionStart_leads (pair : Fin 4) (s : State) : Leads s (execOddConversionStart pair s) := by
  refine leads_onMain_of_core (fun d => ?_) s
  dsimp only
  split
  · split
    · rename_i e htime
      simp [Dev.timeUp_core htime]
    · rfl
  · rfl

theorem execConversionEnd_leads (c : Fin 8) (raw : Int) (s : State) : Leads s (execConversionEnd c raw s) := by
  refine leads_onMain_of_keeps (fun d => ?_) s
  dsimp only
  split
  · split
    · rename_i e htime
      refine .trans ?_ (Dev.conversionEnd_keeps e _ _)
      simp [Dev.timeUp_core htime]
    · exact .refl _
  · exact .refl _

theorem execAdc_leads (r : Req) (s : State) : Leads s (execAdc r s) := by simp [execAdc]
theorem execAdcUrgent_leads (r : Req) (s : State) : Leads s (execAdcUrgent r s) := by simp [execAdcUrgent]
theorem execAdcCal_leads (r : Req) (s : State) : Leads s (execAdcCal r s) := by simp [execAdcCal]
theorem execAdcCoef_leads (r : Req) (s : State) : Leads s (execAdcCoef r s) := by simp [execAdcCoef]

theorem execMaskApply_leads (e : MaskEvent) (s : State) : Leads s (execMaskApply e s) := by
  refine leads_onMain_of_core (fun d => ?_) s
  split
  · rfl
  · rename_i evt x hmask
    have hcore : x.core = d.core := Dev.maskEvent_core hmask
    simp [hcore]

theorem execTrimEvt_leads (pin : Fin 4) (falling : Bool) (s : State) : Leads s (execTrimEvt pin falling s) := by
  simp [execTrimEvt]

theorem execTrimPeriodEnd_leads (n : Fin 32) (s : State) : Leads s (execTrimPeriodEnd n s) := by simp [execTrimPeriodEnd]
theorem execTrimDutyEnd_leads (n : Fin 32) (s : State) : Leads s (execTrimDutyEnd n s) := by simp [execTrimDutyEnd]

theorem execOppositeGateFall_leads (n : Fin 32) (high : Bool) (s : State) : Leads s (execOppositeGateFall n high s) := by
  simp [execOppositeGateFall]

theorem execShortTrip_leads (first : Trip) (others : List Trip) (s : State) : Leads s (execShortTrip first others s) := by
  refine leads_onMain_of_core (fun d => ?_) s
  split <;> simp

theorem execStuck_leads (n : Fin 32) (highWaiting : Bool) (s : State) : Leads s (execStuck n highWaiting s) := by
  simp [execStuck]

theorem execBstUv_leads (n : Fin 32) (s : State) : Leads s (execBstUv n s) := by simp [execBstUv]
theorem execBstUvRelease_leads (n : Fin 32) (s : State) : Leads s (execBstUvRelease n s) := by simp [execBstUvRelease]
theorem execPrechargeEnd_leads (n : Fin 32) (s : State) : Leads s (execPrechargeEnd n s) := by simp [execPrechargeEnd]
theorem execTrimOwnershipTake_leads (s : State) : Leads s (execTrimOwnershipTake s) := by simp [execTrimOwnershipTake]
theorem execOwnershipWait_leads (s : State) : Leads s (execOwnershipWait s) := by simp [execOwnershipWait]
theorem execTrim_leads (r : Req) (s : State) : Leads s (execTrim r s) := by simp [execTrim]
theorem execTrimPair_leads (r : Req) (s : State) : Leads s (execTrimPair r s) := by simp [execTrimPair]
theorem execTrimStage_leads (r : Req) (s : State) : Leads s (execTrimStage r s) := by simp [execTrimStage]
theorem execTrimDriver_leads (r : Req) (s : State) : Leads s (execTrimDriver r s) := by simp [execTrimDriver]
theorem execLockoutClear_leads (r : Req) (s : State) : Leads s (execLockoutClear r s) := by simp [execLockoutClear]
theorem execCutGroup_leads (r : Req) (s : State) : Leads s (execCutGroup r s) := by simp [execCutGroup]
theorem execPlyStart_leads (r : Req) (s : State) : Leads s (execPlyStart r s) := by simp [execPlyStart]
theorem execClaimStart_leads (r : Req) (s : State) : Leads s (execClaimStart r s) := by simp [execClaimStart]
theorem execPlyLinkLock_leads (s : State) : Leads s (execPlyLinkLock s) := by simp [execPlyLinkLock]
theorem execPlyLinkAlign_leads (s : State) : Leads s (execPlyLinkAlign s) := by simp [execPlyLinkAlign]
theorem execPlyLinkError_leads (s : State) : Leads s (execPlyLinkError s) := by simp [execPlyLinkError]
theorem execPlyLinkRestart_leads (s : State) : Leads s (execPlyLinkRestart s) := by simp [execPlyLinkRestart]

theorem execHello_leads (h : Hello) (s : State) : Leads s (execHello h s) := by
  refine leads_onMain_of_core (fun d => ?_) s
  split
  · rfl
  · refine Dev.onUnit_core d _ (fun d => ?_)
    split <;> simp

theorem execHelloTimer_leads (s : State) : Leads s (execHelloTimer s) := by simp [execHelloTimer]
theorem execHelloAbsent_leads (s : State) : Leads s (execHelloAbsent s) := by simp [execHelloAbsent]
theorem execGrant_leads (s : State) : Leads s (execGrant s) := by simp [execGrant]
theorem execResync_leads (s : State) : Leads s (execResync s) := by simp [execResync]
theorem execYieldClaim_leads (s : State) : Leads s (execYieldClaim s) := by simp [execYieldClaim]

theorem execPlyJoin_leads (s : State) : Leads s (execPlyJoin s) := by
  refine leads_onMain_of_core (fun d => ?_) s
  split
  · simp
  · split <;> simp

theorem execXferEnd_leads (crcOk : XferClose) (s : State) : Leads s (execXferEnd crcOk s) := by simp [execXferEnd]
theorem execXferTimeout_leads (s : State) : Leads s (execXferTimeout s) := by simp [execXferTimeout]
theorem execComparedTicksDone_leads (s : State) : Leads s (execComparedTicksDone s) := by simp [execComparedTicksDone]

theorem execPlyUnit_leads (u : PlyRx) (s : State) : Leads s (execPlyUnit u s) := by
  refine leads_onMain_of_keeps (fun d => ?_) s
  split
  · exact .refl _
  · refine d.onUnit_keeps _ ?_
    split
    · exact d.plyUnit_keeps u
    · exact .refl _

theorem execImageDeadline_leads (s : State) : Leads s (execImageDeadline s) := by simp [execImageDeadline]

theorem execLockstepMismatch_leads (pc : Word) (s : State) : Leads s (execLockstepMismatch pc s) := by
  simp [execLockstepMismatch]

theorem execTestMode_leads (r : Req) (s : State) : Leads s (execTestMode r s) := by simp [execTestMode]
theorem execLoopback_leads (r : Req) (s : State) : Leads s (execLoopback r s) := by simp [execLoopback]

theorem execPrbsCheckerLock_leads (cls : LaneClass) (lane : Fin 256) (s : State) :
    Leads s (execPrbsCheckerLock cls lane s) := by
  simp [execPrbsCheckerLock]

theorem execPrbsCheckerLockLost_leads (cls : LaneClass) (lane : Fin 256) (s : State) :
    Leads s (execPrbsCheckerLockLost cls lane s) := by
  simp [execPrbsCheckerLockLost]

theorem execInject_leads (r : Req) (s : State) : Leads s (execInject r s) := by simp [execInject]
theorem execCapture_leads (r : Req) (s : State) : Leads s (execCapture r s) := by simp [execCapture]

/-- What becomes of the head of a port's launch queue at its time (R358). -/
def Dev.launchHead (d : Dev) (p : Nat) : Dev :=
  match (d.portOf p).queue with
  | f :: _ =>
    if f.base = 0 then d
    else if d.launchLost f then d.missHead p
    else match d.atLaunch f with
      | none => d
      | some e =>
        if !(e.portOf p).linkUp then e.missHead p
        else (e.modPort p (fun x => { x with queue := x.queue.drop 1 })).sendOwn p f
  | [] => d

@[simp] theorem Dev.launchHead_core (d : Dev) (p : Nat) : (d.launchHead p).core = d.core := by
  unfold Dev.launchHead
  split
  · split
    · rfl
    · split
      · simp
      · split
        · rfl
        · rename_i e hlaunch
          simp [Dev.atLaunch_core hlaunch]
  · rfl

theorem execLaunch_eq (p : Fin 2) (s : State) :
    execLaunch p s = onMain (fun d => ((d.atWake p.val).launchHead p.val).settlePort p.val) s := rfl

theorem execLaunch_leads (p : Fin 2) (s : State) : Leads s (execLaunch p s) := by
  simp [execLaunch_eq]

theorem execEthLinkUp_leads (p : Fin 2) (s : State) : Leads s (execEthLinkUp p s) := by simp [execEthLinkUp]

theorem execHoldLimitExpiry_leads (n : Fin 2) (s : State) : Leads s (execHoldLimitExpiry n s) := by
  simp [execHoldLimitExpiry]

theorem execFrameSend_leads (r : Req) (s : State) : Leads s (execFrameSend r s) := by simp [execFrameSend]

theorem execLpiEntry_leads (p : Fin 2) (s : State) : Leads s (execLpiEntry p s) := by
  refine leads_onMain_of_core (fun d => ?_) s
  split
  · rename_i e htime
    simp [Dev.timeUp_core htime]
  · rfl

theorem execPort_leads (r : Req) (s : State) : Leads s (execPort r s) := by simp [execPort]
theorem execEthLinkDown_leads (p : Fin 2) (s : State) : Leads s (execEthLinkDown p s) := by simp [execEthLinkDown]

theorem execEntry0Read_leads (m : WordRead) (p : Fin 2) (s : State) : Leads s (execEntry0Read m p s) := by
  simp [execEntry0Read]

theorem execEntry3Read_leads (m : WordRead) (p : Fin 2) (s : State) : Leads s (execEntry3Read m p s) := by
  simp [execEntry3Read]

theorem execPtp_leads (r : Req) (s : State) : Leads s (execPtp r s) := by simp [execPtp]

theorem execEpochReport_leads (cause : ReportCause) (s : State) : Leads s (execEpochReport cause s) := by
  refine leads_onMain_of_core (fun d => ?_) s
  split
  · split <;> simp
  · split <;> simp
  · simp
  · simp

theorem execPtpServoHoldover_leads (n : Fin 2) (s : State) : Leads s (execPtpServoHoldover n s) := by
  simp [execPtpServoHoldover]

theorem execFrameReceive_leads (p : Fin 2) (f : EthFrame) (s : State) : Leads s (execFrameReceive p f s) :=
  leads_onMain_of_keeps (fun d => d.rxPort_keeps p.val (.inl f)) s

theorem execCoordinationFrame_leads (p : Fin 2) (f : CoordFrame) (s : State) : Leads s (execCoordinationFrame p f s) :=
  leads_onMain_of_keeps (fun d => d.rxPort_keeps p.val (.inr f)) s

theorem execTelemetry_leads (r : Req) (s : State) : Leads s (execTelemetry r s) := by simp [execTelemetry]
theorem execTelemetrySend_leads (s : State) : Leads s (execTelemetrySend s) := by simp [execTelemetrySend]

theorem execBufferLockRead_leads (m : WordRead) (c : Fin 4) (n : Fin 64) (s : State) :
    Leads s (execBufferLockRead m c n s) := by
  simp [execBufferLockRead]

theorem execBufferReleaseRead_leads (m : WordRead) (c : Fin 4) (n : Fin 64) (word : Fin 19) (s : State) :
    Leads s (execBufferReleaseRead m c n word s) := by
  simp [execBufferReleaseRead]

theorem execLockedForceRelease_leads (m : Master) (c : Fin 4) (half : Fin 2) (v : Word) (s : State) :
    Leads s (execLockedForceRelease m c half v s) := by
  refine leads_onMain_of_core (fun d => ?_) s
  simp

theorem execRxqRelease_leads (m : Master) (c : Fin 4) (f : Fin 2) (v : Word) (s : State) :
    Leads s (execRxqRelease m c f v s) := by
  simp [execRxqRelease]

theorem execTxPush_leads (m : Master) (c : Fin 4) (v : Word) (s : State) : Leads s (execTxPush m c v s) := by
  simp [execTxPush]

theorem execTxFlush_leads (m : Master) (c : Fin 4) (v : Word) (s : State) : Leads s (execTxFlush m c v s) := by
  simp [execTxFlush]

theorem execAttemptEnd_leads (c : Fin 4) (a : Attempt) (s : State) : Leads s (execAttemptEnd c a s) := by
  refine leads_onMain_of_core (fun d => ?_) s
  split <;> simp

theorem execBusOffRecovery_leads (c : Fin 4) (s : State) : Leads s (execBusOffRecovery c s) := by
  simp [execBusOffRecovery]

theorem execCanFrameReceived_leads (c : Fin 4) (f : CanFrame) (s : State) : Leads s (execCanFrameReceived c f s) := by
  refine leads_onMain_of_core (fun d => ?_) s
  dsimp only
  split
  · simp
  · split
    · simp
    · split <;> simp

theorem execCanReceiveError_leads (c : Fin 4) (e : CanRxErr) (dataPhase : Bool) (s : State) :
    Leads s (execCanReceiveError c e dataPhase s) := by
  simp [execCanReceiveError]

theorem execConfigSet_leads (m : Master) (c : Fin 4) (v : Word) (s : State) : Leads s (execConfigSet m c v s) := by
  simp [execConfigSet]

theorem execConfigClear_leads (m : Master) (c : Fin 4) (v : Word) (s : State) : Leads s (execConfigClear m c v s) := by
  simp [execConfigClear]

theorem execBusIntegration_leads (c : Fin 4) (s : State) : Leads s (execBusIntegration c s) := by
  simp [execBusIntegration]

theorem execSafetyLoad_leads (r : Req) (s : State) : Leads s (execSafetyLoad r s) := by simp [execSafetyLoad]
theorem execSafetyConfirm_leads (r : Req) (s : State) : Leads s (execSafetyConfirm r s) := by simp [execSafetyConfirm]
theorem execPendingDrop_leads (s : State) : Leads s (execPendingDrop s) := by simp [execPendingDrop]
theorem execZoneRequest_leads (r : Req) (s : State) : Leads s (execZoneRequest r s) := by simp [execZoneRequest]
theorem execResetArm_leads (r : Req) (s : State) : Leads s (execResetArm r s) := by simp [execResetArm]
theorem execArmedExpiry_leads (z : Fin 8) (s : State) : Leads s (execArmedExpiry z s) := by simp [execArmedExpiry]

theorem execIslandCycle_leads (i : IslandIn) (s : State) : Leads s (execIslandCycle i s) := by
  refine leads_onDev_of_core (fun d => ?_) s
  split <;> simp

theorem execSoloExpired_leads (s : State) : Leads s (execSoloExpired s) := by simp [execSoloExpired]

theorem execTestPulse_leads (tp : Fin 4) (l : PulseLevels) (s : State) : Leads s (execTestPulse tp l s) := by
  simp [execTestPulse]

theorem execOutputTest_leads (n : Fin 8) (_lowSide : Bool) (pass : Bool) (s : State) :
    Leads s (execOutputTest n _lowSide pass s) := by
  simp [execOutputTest]

theorem execVsafePowerOn_leads (s : State) : Leads s (execVsafePowerOn s) := by
  refine leads_onDev_of_core (fun d => ?_) s
  simp

theorem execIslandSelfTest_leads (pass : Bool) (s : State) : Leads s (execIslandSelfTest pass s) := by
  simp [execIslandSelfTest]

theorem execVsafeLoss_leads (s : State) : Leads s (execVsafeLoss s) := by simp [execVsafeLoss]
theorem execSafetyStatus_leads (r : Req) (s : State) : Leads s (execSafetyStatus r s) := by simp [execSafetyStatus]
theorem execGoPost_leads (m : Master) (ch : Fin 32) (s : State) : Leads s (execGoPost m ch s) := by simp [execGoPost]

theorem execGoWithdraw_leads (m : Master) (ch : Fin 32) (s : State) : Leads s (execGoWithdraw m ch s) := by
  simp [execGoWithdraw]

theorem execPick_leads (m : Master) (ch : Fin 32) (s : State) : Leads s (execPick m ch s) := by simp [execPick]
theorem execLand_leads (m : Master) (ch : Fin 32) (s : State) : Leads s (execLand m ch s) := by simp [execLand]
theorem execDoneSet_leads (m : Master) (ch : Fin 32) (s : State) : Leads s (execDoneSet m ch s) := by simp [execDoneSet]
theorem execBindLock_leads (m : Master) (s : State) : Leads s (execBindLock m s) := by simp [execBindLock]

theorem execFwdDataPush_leads (m : Master) (ch : Fin 32) (v : Word) (s : State) : Leads s (execFwdDataPush m ch v s) := by
  simp [execFwdDataPush]

theorem execFwdDataPop_leads (m : WordRead) (ch : Fin 32) (s : State) : Leads s (execFwdDataPop m ch s) := by
  simp [execFwdDataPop]

theorem execBackDataPush_leads (m : Master) (ch : Fin 32) (v : Word) (s : State) : Leads s (execBackDataPush m ch v s) := by
  simp [execBackDataPush]

theorem execBackDataPop_leads (m : WordRead) (ch : Fin 32) (s : State) : Leads s (execBackDataPop m ch s) := by
  simp [execBackDataPop]

theorem execIntCauseClear_leads (m : Master) (v : Word) (s : State) : Leads s (execIntCauseClear m v s) := by
  simp [execIntCauseClear]

theorem execQspiStatus_leads (s : State) : Leads s (execQspiStatus s) := by simp [execQspiStatus]
theorem execQspiProtocolError_leads (s : State) : Leads s (execQspiProtocolError s) := by simp [execQspiProtocolError]
theorem execPerstN_leads (s : State) : Leads s (execPerstN s) := by simp [execPerstN]

theorem execFunctionLevelReset_leads (f : Fin 2) (s : State) : Leads s (execFunctionLevelReset f s) := by
  simp [execFunctionLevelReset]

theorem execPcieLinkDown_leads (s : State) : Leads s (execPcieLinkDown s) := by simp [execPcieLinkDown]

theorem execPowerStateChange_leads (f : Fin 2) (d3hot : Bool) (s : State) : Leads s (execPowerStateChange f d3hot s) := by
  simp [execPowerStateChange]

theorem execRecipeLoad_leads (r : Req) (s : State) : Leads s (execRecipeLoad r s) := by simp [execRecipeLoad]

theorem execRecipeStep_leads (delivered : Bool) (s : State) : Leads s (execRecipeStep delivered s) := by
  simp [execRecipeStep]

theorem execChanStage_leads (r : Req) (s : State) : Leads s (execChanStage r s) := by simp [execChanStage]
theorem execLocalOffset_leads (r : Req) (s : State) : Leads s (execLocalOffset r s) := by simp [execLocalOffset]
theorem execScale_leads (r : Req) (s : State) : Leads s (execScale r s) := by simp [execScale]
theorem execDlTimeout_leads (r : Req) (s : State) : Leads s (execDlTimeout r s) := by simp [execDlTimeout]
theorem execTarget_leads (r : Req) (s : State) : Leads s (execTarget r s) := by simp [execTarget]
theorem execRefereeTick_leads (r : Req) (s : State) : Leads s (execRefereeTick r s) := by simp [execRefereeTick]
theorem execRefereeStart_leads (r : Req) (s : State) : Leads s (execRefereeStart r s) := by simp [execRefereeStart]
theorem execAliveEdge_leads (mem : Member) (s : State) : Leads s (execAliveEdge mem s) := by simp [execAliveEdge]

theorem execHealthReportReceived_leads (mem : Member) (w0 w1 w2 w3 : Word) (s : State) :
    Leads s (execHealthReportReceived mem w0 w1 w2 w3 s) := by
  simp [execHealthReportReceived]

theorem execAliveOkLost_leads (mem : Member) (s : State) : Leads s (execAliveOkLost mem s) := by simp [execAliveOkLost]

theorem execReportOkLost_leads (mem : Member) (s : State) : Leads s (execReportOkLost mem s) := by
  simp [execReportOkLost]

theorem execGrantHoldoffExpiry_leads (s : State) : Leads s (execGrantHoldoffExpiry s) := by simp [execGrantHoldoffExpiry]
theorem execThermal_leads (r : Req) (s : State) : Leads s (execThermal r s) := by simp [execThermal]

theorem execSensorSample_leads (readings : List Int) (s : State) : Leads s (execSensorSample readings s) := by
  refine leads_onMain_of_core (fun d => ?_) s
  dsimp only
  split
  · simp
  · split <;> simp

theorem execVaonPowerOn_leads (s : State) : Leads s (execVaonPowerOn s) :=
  leads_onDev Dev.vaonReset_steps s

theorem execResetN_leads (s : State) : Leads s (execResetN s) :=
  leads_onDev (fun d => d.mainReset_steps .resetPin) s

theorem execSupplyOutOfRange_leads (dom : Domain) (s : State) : Leads s (execSupplyOutOfRange dom s) := by
  refine leads_onDev (fun d => ?_) s
  cases dom with
  | vaon => simpa using d.vaonReset_steps
  | vcore => exact d.supplyLost_steps .vcore 2
  | vspin | vmem | vpll | vana | vio18 | vio33 => simpa using d.supplyLost_steps _ _
  | vdrv =>
    dsimp only
    split
    · exact .refl _
    · split <;> simp
  | vsafe | vsda | vsdb | vnet | vhost => simp

theorem execCollapse_leads (cause : CollapseCause) (s : State) : Leads s (execCollapse cause s) := by simp [execCollapse]

theorem execCloseRecordWritten_leads (s : State) : Leads s (execCloseRecordWritten s) := by
  refine leads_onDev (fun d => ?_) s
  split
  · exact .refl _
  · simpa using d.mainReset_steps .collapse

theorem execFirmwareWatchdogReset_leads (s : State) : Leads s (execFirmwareWatchdogReset s) := by
  refine leads_onMain (fun d => ?_) s
  split
  · exact .refl _
  · split
    · rename_i e htime
      exact Dev.timeUp_core htime ▸ e.mainReset_steps .wdog
    · exact .refl _

theorem execDeviceReset_leads (r : Req) (s : State) : Leads s (execDeviceReset r s) := by
  refine leads_onMain (fun d => ?_) s
  have htaken : (iapin 0x00FE writes bodyDeviceReset r d).core = d.core := by simp
  dsimp only
  split
  · exact htaken ▸ (iapin 0x00FE writes bodyDeviceReset r d).mainReset_steps .swReset
  · simp [htaken]

theorem execResetRelease_leads (x : ReleaseIn) (recoveryLow vmemHeld : Bool) (s : State) :
    Leads s (execResetRelease x recoveryLow vmemHeld s) := by
  refine leads_onDev (fun d => ?_) s
  split
  · exact d.release_steps x.role recoveryLow vmemHeld
  · exact .refl _

theorem execFirmwareStart_leads (s : State) : Leads s (execFirmwareStart s) := by
  refine leads_onMain_of_core (fun d => ?_) s
  split
  · simp
  · split <;> simp

theorem execFwStage_leads (r : Req) (s : State) : Leads s (execFwStage r s) := by simp [execFwStage]
theorem execFwActivate_leads (r : Req) (s : State) : Leads s (execFwActivate r s) := by simp [execFwActivate]
theorem execNop_leads (r : Req) (s : State) : Leads s (execNop r s) := by simp [execNop]
theorem execInfo_leads (r : Req) (s : State) : Leads s (execInfo r s) := by simp [execInfo]
theorem execQuery_leads (r : Req) (s : State) : Leads s (execQuery r s) := by simp [execQuery]

theorem execLongRunningComplete_leads (slot : Fin 8) (s : State) : Leads s (execLongRunningComplete slot s) := by
  refine leads_onMain_of_keeps (fun d => ?_) s
  split
  · exact .refl _
  · rename_i x _
    split
    · exact .refl _
    · split
      · simp
      · exact d.endLong_keeps x

theorem execClaim_leads (s : State) : Leads s (execClaim s) := by
  refine leads_onMain_of_keeps (fun d => ?_) s
  have hactive : d.becomeActive.core = d.core := d.becomeActive_core
  split
  · exact .refl _
  · simp only [Dev.core_ite, hactive]
    exact .ite (.ite (hactive ▸ d.becomeActive.limitNow_keeps) (.refl _)) (.refl _)

theorem execFbTimeExpiry_leads (s : State) : Leads s (execFbTimeExpiry s) := by simp [execFbTimeExpiry]
theorem execPreTimeout_leads (s : State) : Leads s (execPreTimeout s) := by simp [execPreTimeout]
theorem execSyncTimeout_leads (s : State) : Leads s (execSyncTimeout s) := by simp [execSyncTimeout]

theorem execFeedbackDisagree_leads (s : State) : Leads s (execFeedbackDisagree s) := by
  refine leads_onMain_of_core (fun d => ?_) s
  dsimp only
  split <;> simp

theorem execXferUnit_leads (left : Nat) (u : XferMsg) (s : State) : Leads s (execXferUnit left u s) := by
  refine leads_onMain_of_keeps (fun d => ?_) s
  split
  · exact .refl _
  · refine d.onUnit_keeps _ ?_
    split
    · exact .refl _
    · simpa using d.landXfer_keeps u.unit

theorem execRestEntry_leads (k : Fin 256) (s : State) : Leads s (execRestEntry k s) := by simp [execRestEntry]
theorem execRestExit_leads (k : Fin 256) (s : State) : Leads s (execRestExit k s) := by simp [execRestExit]

theorem execIntakeEntry_leads (i : Fin 4096) (s : State) : Leads s (execIntakeEntry i s) := by
  refine leads_onMain_of_keeps (fun d => d.runEntry_keeps _ _ fun e _ d => ?_) s
  refine .trans ?_ (foldl_keeps Dev.allocService_keeps _ _)
  simpa using d.intake_keeps e

theorem execSpinEntry_leads (i : Fin 4096) (fault : Option (Fin 2048 × Fin 32)) (s : State) :
    Leads s (execSpinEntry i fault s) :=
  leads_onMain_of_keeps (fun d => d.runEntry_keeps _ _ fun e _ d =>
    (d.runSpin_keeps d.running? e _).trans (Dev.shareStage_keeps _ i.val)) s

theorem execThermalStepTick_leads (s : State) : Leads s (execThermalStepTick s) := by
  refine leads_onMain_of_keeps (fun d => ?_) s
  have hstep : d.stepTick.core = d.core := d.stepTick_core
  split
  · exact hstep ▸ d.stepTick.limitNow_keeps
  · exact .refl _

theorem execAllocEntry_leads (i : Fin 4096) (s : State) : Leads s (execAllocEntry i s) :=
  leads_onMain_of_keeps (fun d => d.runEntry_keeps _ _ fun e _ d => d.runAlloc_keeps e) s

theorem execMeterEntry_leads (i : Fin 4096) (s : State) : Leads s (execMeterEntry i s) := by simp [execMeterEntry]
theorem execDeliverEntry_leads (i : Fin 4096) (s : State) : Leads s (execDeliverEntry i s) := by simp [execDeliverEntry]

theorem execCopyEntry_leads (i : Fin 4096) (s : State) : Leads s (execCopyEntry i s) :=
  leads_onMain_of_keeps (fun d => d.runEntry_keeps _ _ fun _ _ d =>
    forEach_keeps (fun _ d => d.keeps_setWeft Laws.wf_memPutBytes) _ d) s

theorem execXdieEntry_leads (i : Fin 4096) (s : State) : Leads s (execXdieEntry i s) := by
  refine leads_onMain_of_keeps (fun d => d.runEntry_keeps _ _ fun e _ d => ?_) s
  rw [foldl_core Dev.xdieBlock_core]
  exact d.keeps_setWeft Laws.wf_memPutWords

theorem execCaptureEntry_leads (i : Fin 4096) (s : State) : Leads s (execCaptureEntry i s) := by
  refine leads_onMain_of_keeps (fun d => d.runEntry_keeps _ _ fun e _ d => ?_) s
  split
  · exact foldl_keeps Dev.poolPut_keeps _ d
  · exact .refl _

theorem execMirrorEntry_leads (i : Fin 4096) (s : State) : Leads s (execMirrorEntry i s) := by simp [execMirrorEntry]
theorem execTickOverrun_leads (i : Fin 4096) (s : State) : Leads s (execTickOverrun i s) := by simp [execTickOverrun]

theorem execTickBoundary_leads (b : BoundaryIn) (s : State) : Leads s (execTickBoundary b s) := by
  refine leads_onMain_of_keeps (fun d => ?_) s
  split
  · refine .trans (.trans ?_ (Dev.atBoundary_keeps _ b)) (Dev.takeDeferred_keeps _)
    simp
  · exact .refl _

/-- The sequencer begins with the first boundary of the alignment source, which leaves the core alone until then (R36). -/
theorem Dev.beginTicks_first_keeps (d : Dev) (b : BoundaryIn) (k : Nat) (p : Nat × Dev) (hp : p.2.core = d.core) :
    d.core.Keeps (p.2.beginTicks k p.1 p.2.now b).core := by
  rw [← hp]
  exact p.2.beginTicks_keeps _ _ _ b

theorem execFirstBoundary_leads (b : BoundaryIn) (s : State) : Leads s (execFirstBoundary b s) := by
  refine leads_onMain_of_keeps (fun d => ?_) s
  split
  · exact .refl _
  · split
    · split
      · exact .refl _
      · exact d.beginTicks_keeps _ _ _ b
    · exact d.beginTicks_first_keeps b _ _ (by simp)

theorem execTickPeriodEnd_leads (s : State) : Leads s (execTickPeriodEnd s) := by simp [execTickPeriodEnd]

theorem execGuardWindow_leads (g : GuardIn) (s : State) : Leads s (execGuardWindow g s) := by
  refine leads_onMain_of_keeps (fun d => ?_) s
  split
  · have hlatch : ∀ d : Dev, ({ d with tk := d.tk.latch } : Dev).core = d.core := fun _ => rfl
    simp only [hlatch, Dev.scrub_core, Dev.sendTransfer_core, Dev.sealStep_core]
    refine .trans ?_ (Dev.landWaiting_keeps _)
    simp
  · exact .refl _

theorem execRegisterWrite_leads (m : Master) (space : Space) (off : BitVec 28) (first : Byte) (rest : List Byte)
    (s : State) :
    Leads s (execRegisterWrite m space off first rest s) := by
  refine leads_onMain_of_keeps (fun d => ?_) s
  simp only [Dev.core_ite, Dev.unsupported_core, Dev.malformed_core]
  exact .ite (.refl _) (.ite (.refl _) (.ite (d.qspiWrite_keeps _ _ _) (.ite (.refl _) (d.writeSpace_keeps _ _ _ _))))

/-- Every command leads to a state that a step may reach. -/
theorem exec_leads (c : Instr) (s : State) : Leads s (exec c s) := by
  cases c with
  | nop r => exact execNop_leads r s
  | info r => exact execInfo_leads r s
  | query r => exact execQuery_leads r s
  | severity r => exact execSeverity_leads r s
  | stopTh r => exact execStopTh_leads r s
  | thermal r => exact execThermal_leads r s
  | cutMatrix r => exact execCutMatrix_leads r s
  | cutGroup r => exact execCutGroup_leads r s
  | cut r => exact execCut_leads r s
  | cutRelease r => exact execCutRelease_leads r s
  | port r => exact execPort_leads r s
  | deviceReset r => exact execDeviceReset_leads r s
  | mapLoad r => exact execMapLoad_leads r s
  | mapRead r => exact execMapRead_leads r s
  | sectionStatus r => exact execSectionStatus_leads r s
  | encoder r => exact execEncoder_leads r s
  | strand r => exact execStrand_leads r s
  | auxOut r => exact execAuxOut_leads r s
  | returnCell r => exact execReturnCell_leads r s
  | deepRest r => exact execDeepRest_leads r s
  | wake r => exact execWake_leads r s
  | endpointCmd r => exact execEndpointCmd_leads r s
  | bulkRing r => exact execBulkRing_leads r s
  | recipeLoad r => exact execRecipeLoad_leads r s
  | chanStage r => exact execChanStage_leads r s
  | localOffset r => exact execLocalOffset_leads r s
  | scale r => exact execScale_leads r s
  | dlTimeout r => exact execDlTimeout_leads r s
  | target r => exact execTarget_leads r s
  | report r => exact execReport_leads r s
  | trim r => exact execTrim_leads r s
  | trimPair r => exact execTrimPair_leads r s
  | trimStage r => exact execTrimStage_leads r s
  | trimDriver r => exact execTrimDriver_leads r s
  | lockoutClear r => exact execLockoutClear_leads r s
  | coefWrite r => exact execCoefWrite_leads r s
  | coefRead r => exact execCoefRead_leads r s
  | openClose r => exact execOpenClose_leads r s
  | hold r => exact execHold_leads r s
  | flagClear r => exact execFlagClear_leads r s
  | coefStage r => exact execCoefStage_leads r s
  | allocStage r => exact execAllocStage_leads r s
  | plyStart r => exact execPlyStart_leads r s
  | claimStart r => exact execClaimStart_leads r s
  | refereeTick r => exact execRefereeTick_leads r s
  | refereeStart r => exact execRefereeStart_leads r s
  | meterParam r => exact execMeterParam_leads r s
  | pulseIn r => exact execPulseIn_leads r s
  | pulseOut r => exact execPulseOut_leads r s
  | meterClear r => exact execMeterClear_leads r s
  | adc r => exact execAdc_leads r s
  | adcUrgent r => exact execAdcUrgent_leads r s
  | adcCal r => exact execAdcCal_leads r s
  | adcCoef r => exact execAdcCoef_leads r s
  | safetyLoad r => exact execSafetyLoad_leads r s
  | safetyConfirm r => exact execSafetyConfirm_leads r s
  | zoneRequest r => exact execZoneRequest_leads r s
  | resetArm r => exact execResetArm_leads r s
  | safetyStatus r => exact execSafetyStatus_leads r s
  | arm r => exact execArm_leads r s
  | abort r => exact execAbort_leads r s
  | tickConfig r => exact execTickConfig_leads r s
  | warpLoad r => exact execWarpLoad_leads r s
  | seqStart r => exact execSeqStart_leads r s
  | unstage r => exact execUnstage_leads r s
  | tbSet r => exact execTbSet_leads r s
  | tbStep r => exact execTbStep_leads r s
  | tbSlew r => exact execTbSlew_leads r s
  | tbRate r => exact execTbRate_leads r s
  | tbState r => exact execTbState_leads r s
  | tbHoldLimit r => exact execTbHoldLimit_leads r s
  | tb2Lane r => exact execTb2Lane_leads r s
  | ptp r => exact execPtp_leads r s
  | frameSend r => exact execFrameSend_leads r s
  | testMode r => exact execTestMode_leads r s
  | loopback r => exact execLoopback_leads r s
  | inject r => exact execInject_leads r s
  | capture r => exact execCapture_leads r s
  | telemetry r => exact execTelemetry_leads r s
  | fwStage r => exact execFwStage_leads r s
  | fwActivate r => exact execFwActivate_leads r s
  | longRunningComplete slot => exact execLongRunningComplete_leads slot s
  | tickLoRead m => exact execTickLoRead_leads m s
  | cutFire m v => exact execCutFire_leads m v s
  | statusClear m w v => exact execStatusClear_leads m w v s
  | hankAck m v => exact execHankAck_leads m v s
  | feValidClear m v => exact execFeValidClear_leads m v s
  | snapReq m v => exact execSnapReq_leads m v s
  | tbSnapReq m v => exact execTbSnapReq_leads m v s
  | tbRecordRead m n => exact execTbRecordRead_leads m n s
  | entry0Read m p => exact execEntry0Read_leads m p s
  | entry3Read m p => exact execEntry3Read_leads m p s
  | bufferLockRead m c n => exact execBufferLockRead_leads m c n s
  | bufferReleaseRead m c n word => exact execBufferReleaseRead_leads m c n word s
  | lockedForceRelease m c half v => exact execLockedForceRelease_leads m c half v s
  | rxqRelease m c f v => exact execRxqRelease_leads m c f v s
  | txPush m c v => exact execTxPush_leads m c v s
  | txFlush m c v => exact execTxFlush_leads m c v s
  | configSet m c v => exact execConfigSet_leads m c v s
  | configClear m c v => exact execConfigClear_leads m c v s
  | busIntegration c => exact execBusIntegration_leads c s
  | goPost m ch => exact execGoPost_leads m ch s
  | goWithdraw m ch => exact execGoWithdraw_leads m ch s
  | pick m ch => exact execPick_leads m ch s
  | land m ch => exact execLand_leads m ch s
  | doneSet m ch => exact execDoneSet_leads m ch s
  | bindLock m => exact execBindLock_leads m s
  | fwdDataPush m ch v => exact execFwdDataPush_leads m ch v s
  | fwdDataPop m ch => exact execFwdDataPop_leads m ch s
  | backDataPush m ch v => exact execBackDataPush_leads m ch v s
  | backDataPop m ch => exact execBackDataPop_leads m ch s
  | intCauseClear m v => exact execIntCauseClear_leads m v s
  | qspiStatus => exact execQspiStatus_leads s
  | registerWrite m space off first rest => exact execRegisterWrite_leads m space off first rest s
  | vaonPowerOn => exact execVaonPowerOn_leads s
  | vsafePowerOn => exact execVsafePowerOn_leads s
  | islandSelfTest pass => exact execIslandSelfTest_leads pass s
  | supplyOutOfRange dom => exact execSupplyOutOfRange_leads dom s
  | supplyDomainOn dom => exact execSupplyDomainOn_leads dom s
  | supplyDomainOff dom => exact execSupplyDomainOff_leads dom s
  | resetN => exact execResetN_leads s
  | resetRelease role recoveryLow vmemHeld => exact execResetRelease_leads role recoveryLow vmemHeld s
  | collapse cause => exact execCollapse_leads cause s
  | firmwareWatchdogReset => exact execFirmwareWatchdogReset_leads s
  | perstN => exact execPerstN_leads s
  | functionLevelReset f => exact execFunctionLevelReset_leads f s
  | pcieLinkDown => exact execPcieLinkDown_leads s
  | firmwareStart => exact execFirmwareStart_leads s
  | cutIn => exact execCutIn_leads s
  | plyCutIn => exact execPlyCutIn_leads s
  | cutSymbols k => exact execCutSymbols_leads k s
  | strandSourceEnd k => exact execStrandSourceEnd_leads k s
  | shortTrip first others => exact execShortTrip_leads first others s
  | stuck n highWaiting => exact execStuck_leads n highWaiting s
  | bstUv n => exact execBstUv_leads n s
  | bstUvRelease n => exact execBstUvRelease_leads n s
  | prechargeEnd n => exact execPrechargeEnd_leads n s
  | maskApply e => exact execMaskApply_leads e s
  | trimEvt pin falling => exact execTrimEvt_leads pin falling s
  | grant => exact execGrant_leads s
  | resync => exact execResync_leads s
  | claim => exact execClaim_leads s
  | yieldClaim => exact execYieldClaim_leads s
  | trimOwnershipTake => exact execTrimOwnershipTake_leads s
  | ownershipWait => exact execOwnershipWait_leads s
  | plyJoin => exact execPlyJoin_leads s
  | xferEnd crcOk => exact execXferEnd_leads crcOk s
  | xferTimeout => exact execXferTimeout_leads s
  | xferUnit left u => exact execXferUnit_leads left u s
  | comparedTicksDone => exact execComparedTicksDone_leads s
  | plyLinkLock => exact execPlyLinkLock_leads s
  | plyLinkAlign => exact execPlyLinkAlign_leads s
  | plyLinkError => exact execPlyLinkError_leads s
  | plyLinkRestart => exact execPlyLinkRestart_leads s
  | hello h => exact execHello_leads h s
  | helloTimer => exact execHelloTimer_leads s
  | helloAbsent => exact execHelloAbsent_leads s
  | plyUnit u => exact execPlyUnit_leads u s
  | imageDeadline => exact execImageDeadline_leads s
  | aliveEdge mem => exact execAliveEdge_leads mem s
  | healthReportReceived mem w0 w1 w2 w3 => exact execHealthReportReceived_leads mem w0 w1 w2 w3 s
  | aliveOkLost mem => exact execAliveOkLost_leads mem s
  | reportOkLost mem => exact execReportOkLost_leads mem s
  | tickSyncIn fine => exact execTickSyncIn_leads fine s
  | refLost => exact execRefLost_leads s
  | refValid errA errB => exact execRefValid_leads errA errB s
  | pllLocked p => exact execPllLocked_leads p s
  | lockClear p => exact execLockClear_leads p s
  | acquireTimeout p => exact execAcquireTimeout_leads p s
  | holdLimitExpiry n => exact execHoldLimitExpiry_leads n s
  | receiverDetection k seen => exact execReceiverDetection_leads k seen s
  | bitLock k => exact execBitLock_leads k s
  | trainTimeout k => exact execTrainTimeout_leads k s
  | symbolLock k => exact execSymbolLock_leads k s
  | lockTimeout k => exact execLockTimeout_leads k s
  | capabilityFrame k w0 w1 w2 w3 e => exact execCapabilityFrame_leads k w0 w1 w2 w3 e s
  | capsTimeout k => exact execCapsTimeout_leads k s
  | symbolLockLost k => exact execSymbolLockLost_leads k s
  | deepSymbols k => exact execDeepSymbols_leads k s
  | clusterPllUnlock k => exact execClusterPllUnlock_leads k s
  | clusterPllLock k => exact execClusterPllLock_leads k s
  | uplinkFrame k f => exact execUplinkFrame_leads k f s
  | restEntry k => exact execRestEntry_leads k s
  | restExit k => exact execRestExit_leads k s
  | ethLinkUp p => exact execEthLinkUp_leads p s
  | ethLinkDown p => exact execEthLinkDown_leads p s
  | frameReceive p f => exact execFrameReceive_leads p f s
  | coordinationFrame p f => exact execCoordinationFrame_leads p f s
  | ptpServoHoldover n => exact execPtpServoHoldover_leads n s
  | launch p => exact execLaunch_leads p s
  | lpiEntry p => exact execLpiEntry_leads p s
  | epochReport cause => exact execEpochReport_leads cause s
  | canFrameReceived c f => exact execCanFrameReceived_leads c f s
  | attemptEnd c a => exact execAttemptEnd_leads c a s
  | busOffRecovery c => exact execBusOffRecovery_leads c s
  | tickBoundary b => exact execTickBoundary_leads b s
  | tickPeriodEnd => exact execTickPeriodEnd_leads s
  | firstBoundary b => exact execFirstBoundary_leads b s
  | fbTimeExpiry => exact execFbTimeExpiry_leads s
  | preTimeout => exact execPreTimeout_leads s
  | syncTimeout => exact execSyncTimeout_leads s
  | feedbackDisagree => exact execFeedbackDisagree_leads s
  | guardWindow g => exact execGuardWindow_leads g s
  | intakeEntry x => exact execIntakeEntry_leads x s
  | spinEntry x fault => exact execSpinEntry_leads x fault s
  | allocEntry x => exact execAllocEntry_leads x s
  | meterEntry x => exact execMeterEntry_leads x s
  | deliverEntry x => exact execDeliverEntry_leads x s
  | copyEntry x => exact execCopyEntry_leads x s
  | xdieEntry x => exact execXdieEntry_leads x s
  | captureEntry x => exact execCaptureEntry_leads x s
  | mirrorEntry x => exact execMirrorEntry_leads x s
  | tickOverrun x => exact execTickOverrun_leads x s
  | recipeStep delivered => exact execRecipeStep_leads delivered s
  | thermalStepTick => exact execThermalStepTick_leads s
  | sensorSample readings => exact execSensorSample_leads readings s
  | islandCycle x => exact execIslandCycle_leads x s
  | soloExpired => exact execSoloExpired_leads s
  | testPulse tp l => exact execTestPulse_leads tp l s
  | outputTest n lowSide pass => exact execOutputTest_leads n lowSide pass s
  | pendingDrop => exact execPendingDrop_leads s
  | armedExpiry z => exact execArmedExpiry_leads z s
  | meterImageLatch => exact execMeterImageLatch_leads s
  | imageWriteDone ok => exact execImageWriteDone_leads ok s
  | pulseInputChange x active => exact execPulseInputChange_leads x active s
  | pulseInputStuck x => exact execPulseInputStuck_leads x s
  | overRateWindow => exact execOverRateWindow_leads s
  | pulseOutputStart j => exact execPulseOutputStart_leads j s
  | conversionEnd c raw => exact execConversionEnd_leads c raw s
  | hankEntry => exact execHankEntry_leads s
  | cutInDeassert => exact execCutInDeassert_leads s
  | plyCutInDeassert => exact execPlyCutInDeassert_leads s
  | trimPeriodEnd n => exact execTrimPeriodEnd_leads n s
  | trimDutyEnd n => exact execTrimDutyEnd_leads n s
  | oppositeGateFall n high => exact execOppositeGateFall_leads n high s
  | returnSlewEnd p => exact execReturnSlewEnd_leads p s
  | pulseOutputEnd j => exact execPulseOutputEnd_leads j s
  | oddConversionStart pair => exact execOddConversionStart_leads pair s
  | canReceiveError c e dataPhase => exact execCanReceiveError_leads c e dataPhase s
  | telemetrySend => exact execTelemetrySend_leads s
  | watchdogExpiry => exact execWatchdogExpiry_leads s
  | lockstepMismatch pc => exact execLockstepMismatch_leads pc s
  | closeRecordWritten => exact execCloseRecordWritten_leads s
  | vsafeLoss => exact execVsafeLoss_leads s
  | powerStateChange f d3hot => exact execPowerStateChange_leads f d3hot s
  | qspiProtocolError => exact execQspiProtocolError_leads s
  | prbsCheckerLock cls lane => exact execPrbsCheckerLock_leads cls lane s
  | prbsCheckerLockLost cls lane => exact execPrbsCheckerLockLost_leads cls lane s
  | grantHoldoffExpiry => exact execGrantHoldoffExpiry_leads s

end Sys2Proof.Machine

end

section
/-!
PROOFS. O49 and O59: what every command and every step keeps of the memories, the sequencer and the reset.
-/

namespace Sys2Proof.Proofs

open Sys2Proof.Machine Sys2Proof.Safety

/-- A step, of a command or of the core cycle that passes with an empty queue (log entry 1), leads where a step may lead. -/
theorem step_leads (s : State) : Leads s (step s) := by
  unfold step
  split
  next c rest _ => exact exec_leads c { s with pending := rest }
  next =>
    rintro t ⟨⟩
    simp

/-- Settles O49: no step takes the weft region or the BAR2 window out of canonical form. -/
theorem memoriesStayCanonical : Obligations.MemoriesStayCanonical := by
  unfold Obligations.MemoriesStayCanonical
  intro s t hok hstep
  have hkept : s.dev.core.Steps t.dev.core := step_leads s t hstep
  simp only [memOk, Bool.and_eq_true] at hok ⊢
  obtain ⟨hweft, hbar2⟩ := hok
  exact ⟨hkept.weft hweft, hkept.bar2 hbar2⟩

/-- Settles O59: of all commands only those that reset the main logic stop a running sequencer (`exec_leads`). -/
theorem sequencerNeverStops : Obligations.SequencerNeverStops := by
  unfold Obligations.SequencerNeverStops
  intro c s t hrun hexec
  exact (exec_leads c s t hexec).run hrun

end Sys2Proof.Proofs

end

section
/-!
PROOFS. O58: every Iapin command but DEVICE_RESET is carried out by the one rule of the firmware, and what that rule does
with a write that falls into the guard window of a ply active (R80, R432).
-/

namespace Sys2Proof.Proofs

open Sys2Proof.Machine Sys2Proof.Safety

variable {s : State} {op : Nat} {read : Bool} {r : Req}

/-- An Iapin command is its body, carried out by the firmware; DEVICE_RESET alone goes on after it (R414, R422 to R429). -/
theorem exec_of_requestOf {c : Instr} (hreq : requestOf c = some (op, read, r)) (hreset : op ≠ 0x00FE) (s : State) :
    ∃ (direction : Req → Bool) (body : Body),
      exec c s = onMain (iapin op direction body r) s ∧ direction r = read := by
  cases c
  case deviceReset r => exact absurd (by cases hreq; rfl) hreset
  all_goals cases hreq
  all_goals exact ⟨_, _, rfl, rfl⟩

/-- What counts as accepted in the next tick is a write whose effect the seal carries (R219, R432). -/
theorem sealed_of_defers {d : Dev} (hdefers : d.defers op read = true) : op ∈ sealedOps := by
  simp only [Dev.defers, Bool.and_eq_true, List.contains_iff_mem] at hdefers
  exact hdefers.2

/-- The firmware puts a write that counts as accepted in the next tick behind the deferred ones (R80, R432). -/
theorem onMain_iapin_deferred {direction : Req → Bool} {body : Body} (hlive : Live s) (hstage : s.dev.host.bootStage = 3)
    (hcarries : s.dev.carries op r = true) (hstored : s.dev.storedReply r = none)
    (hrefusal : s.dev.refusal op (direction r) r = none) (hdefers : s.dev.defers op (direction r) = true) :
    onMain (iapin op direction body r) s = .next (withDev s
      { s.dev with ply := { s.dev.ply with deferred := s.dev.ply.deferred ++ [{ op := op, req := r }] } }) := by
  rw [onMain_of_live hlive]
  simp [iapin, carryOut, hstage, hcarries, hstored, hrefusal, hdefers]

/-- Settles O58: a deferred write is sealed, so it is no DEVICE_RESET, and the firmware's one rule defers it. -/
theorem guardWindowWritesWait : Obligations.GuardWindowWritesWait := by
  unfold Obligations.GuardWindowWritesWait
  intro c s op read r hreq hlive hstage hcarries hstored hrefusal hdefers
  have hreset : op ≠ 0x00FE := by
    rintro rfl
    exact absurd (sealed_of_defers hdefers) (by decide)
  obtain ⟨direction, body, hexec, rfl⟩ := exec_of_requestOf hreq hreset s
  rw [hexec]
  exact onMain_iapin_deferred hlive hstage hcarries hstored hrefusal hdefers

end Sys2Proof.Proofs
end

section
/-!
PROOFS. NOP, INFO and the end of a long-running command (R80, R411, R416, R422, R432).
-/

namespace Sys2Proof.Proofs

open Sys2Proof.Machine Sys2Proof.Safety

theorem exec_nop (r : Req) (s : State) : exec (.nop r) s = onMain (iapin 0x0000 reads bodyNop r) s := rfl

theorem exec_info (r : Req) (s : State) : exec (.info r) s = onMain (iapin 0x0001 reads bodyInfo r) s := rfl

variable {s : State} {slot : Fin 8} {x : LongRun}

/-- A running command whose end is not behind it yet ends, or is put off in the guard window of a ply active (R416, R432). -/
theorem exec_longRunningComplete (hlive : Live s) (hslot : s.dev.running[slot.val]? = some x)
    (hwaits : s.dev.endWaits x = false) :
    exec (.longRunningComplete slot) s = .next (withDev s
      (if s.dev.defersEnd x then { s.dev with ply := { s.dev.ply with
          deferred := s.dev.ply.deferred ++ [{ op := x.op, req := x.req, ends := true }] } }
       else s.dev.endLong x)) := by
  have harm : exec (.longRunningComplete slot) s = execLongRunningComplete slot s := rfl
  rw [harm, execLongRunningComplete, onMain_of_live hlive]
  simp [hslot, hwaits]

/-- A command of which what it waits for has come ends with its final reply (R416). -/
theorem endLong_finished {d : Dev} {q : Rep × Dev} (hfinish : d.finish x.op x.req = some q) :
    d.endLong x = q.2.completeLong x q.1 := by
  simp only [Dev.endLong, hfinish]

/-- Settles O1: the two reads by their bodies, the end of a running command by whether it is put off. -/
theorem systemCommandsAnswer : Obligations.SystemCommandsAnswer := by
  refine ⟨?nop, ?info, ?ends, ?putOff⟩
  case nop =>
    intro s r hserved
    rw [exec_nop]
    exact onMain_iapin_served hserved rfl rfl
  case info =>
    intro s r hserved
    rw [exec_info]
    exact onMain_iapin_served hserved rfl rfl
  case ends =>
    intro s slot x q hlive hslot hwaits hdefers hfinish
    simp [exec_longRunningComplete hlive hslot hwaits, hdefers, endLong_finished hfinish]
  case putOff =>
    intro s slot x hlive hslot hwaits hdefers
    simp [exec_longRunningComplete hlive hslot hwaits, hdefers]

end Sys2Proof.Proofs
end

section
/-!
PROOFS. The forms of TB_CORRECT, and TB2_LANE (R84, R339, R340, R341, R429).
-/

namespace Sys2Proof.Proofs

open Sys2Proof.Machine Sys2Proof.Safety

theorem exec_tbSet (r : Req) (s : State) : exec (.tbSet r) s = onMain (iapin 0x0710 writes bodyTbSet r) s := rfl

theorem exec_tbStep (r : Req) (s : State) : exec (.tbStep r) s = onMain (iapin 0x0710 writes bodyTbStep r) s := rfl

theorem exec_tbSlew (r : Req) (s : State) : exec (.tbSlew r) s = onMain (iapin 0x0710 writes bodyTbSlew r) s := rfl

theorem exec_tbRate (r : Req) (s : State) : exec (.tbRate r) s = onMain (iapin 0x0710 writes bodyTbRate r) s := rfl

theorem exec_tbState (r : Req) (s : State) : exec (.tbState r) s = onMain (iapin 0x0710 writes bodyTbState r) s := rfl

theorem exec_tbHoldLimit (r : Req) (s : State) :
    exec (.tbHoldLimit r) s = onMain (iapin 0x0710 writes bodyTbHoldLimit r) s := rfl

theorem exec_tb2Lane (r : Req) (s : State) : exec (.tb2Lane r) s = onMain (iapin 0x0711 writes bodyTb2Lane r) s := rfl

variable {r : Req} {n : Nat}

/-- A correction that names a time base acts on it (R429). -/
theorem tbBody_of_target {f : Nat → Body} (htarget : tbTarget r = some n) (d : Dev) : tbBody f r d = f n r d := by
  simp only [tbBody, htarget]

/-- A set with nanoseconds within the second is refused for the alignment base and waits for the boundary otherwise (R340,
R341). -/
theorem bodyTbSet_in_range (d : Dev) (htarget : tbTarget r = some n) (hns : (arg r 5).toNat < 1000000000) :
    bodyTbSet r d = if d.aligned n then d.say .wrongState
      else d.doneAtTick r (.tbSet n (join48 (arg r 3) (arg r 4)) (arg r 5).toNat) := by
  rw [bodyTbSet, tbBody_of_target htarget, if_neg (by omega)]

/-- An offset within 2^31 s has its whole seconds within 2^31. -/
theorem seconds_of_stepOffset_in_range (hoffset : (stepOffset r).natAbs ≤ tbCount (2 ^ 31) 0)
    (hns : (arg r 5).toNat < 1000000000) : (signed 48 (join48 (arg r 3) (arg r 4))).natAbs ≤ 2 ^ 31 := by
  simp only [stepOffset, tbCount] at hoffset
  omega

/-- A step within 2^31 s is refused for the alignment base and waits for the boundary otherwise (R340, R341). -/
theorem bodyTbStep_in_range (d : Dev) (htarget : tbTarget r = some n)
    (hoffset : (stepOffset r).natAbs ≤ tbCount (2 ^ 31) 0) (hns : (arg r 5).toNat < 1000000000) :
    bodyTbStep r d = if d.aligned n then d.say .wrongState else d.doneAtTick r (.tbStep n (stepOffset r)) := by
  have hseconds := seconds_of_stepOffset_in_range hoffset hns
  rw [bodyTbStep, tbBody_of_target htarget, if_neg (by omega), if_neg (by omega), if_neg (by omega)]

/-- A slew that keeps SLEW_LEFT within 8.388 ms waits for the boundary (R340). -/
theorem bodyTbSlew_in_range (d : Dev) (htarget : tbTarget r = some n)
    (hleft : ((d.baseOf n).slewLeft + d.slewWaiting n + sval (arg r 3)).natAbs ≤ 8388000 * 256) :
    bodyTbSlew r d = d.doneAtTick r (.tbSlew n (sval (arg r 3))) := by
  rw [bodyTbSlew, tbBody_of_target htarget]
  exact if_neg (Nat.not_lt.2 hleft)

/-- A rate within its bounds, 40 ppm for the alignment base and 1,000 ppm otherwise, waits for the boundary (R340, R341). -/
theorem bodyTbRate_in_range (d : Dev) (htarget : tbTarget r = some n)
    (hrate : (sval (arg r 3)).natAbs ≤ (if d.aligned n then 10240000 else 256000000)) :
    bodyTbRate r d = d.doneAtTick r (.tbRate n (sval (arg r 3))) := by
  rw [bodyTbRate, tbBody_of_target htarget]
  exact if_neg (Nat.not_lt.2 hrate)

/-- A rate of the alignment base beyond 40 ppm is a bad argument (R341). -/
theorem bodyTbRate_aligned_beyond {d : Dev} (htarget : tbTarget r = some n) (haligned : d.aligned n = true)
    (hrate : 10240000 < (sval (arg r 3)).natAbs) : bodyTbRate r d = (.badArg 3, d) := by
  rw [bodyTbRate, tbBody_of_target htarget, haligned]
  exact if_pos hrate

/-- A state that the row lists, one beside INVALID only of a valid base, waits for the boundary (R340). -/
theorem bodyTbState_allowed {d : Dev} (htarget : tbTarget r = some n) (hcode : bits (arg r 3) 1 0 ≠ 3)
    (hvalid : bits (arg r 3) 1 0 = 0 ∨ (d.baseOf n).valid = true) :
    bodyTbState r d = d.doneAtTick r (.tbState n (bits (arg r 3) 1 0)) := by
  have hallowed : ¬ (bits (arg r 3) 1 0 ≠ 0 ∧ !(d.baseOf n).valid) := by
    rcases hvalid with h | h <;> simp [h]
  rw [bodyTbState, tbBody_of_target htarget, if_neg hcode, if_neg hallowed]

/-- A hold limit of at most a day waits for the boundary (R339, R340). -/
theorem bodyTbHoldLimit_in_range (d : Dev) (htarget : tbTarget r = some n) (hlimit : (arg r 3).toNat ≤ 86400) :
    bodyTbHoldLimit r d = d.doneAtTick r (.tbHoldLimit n (arg r 3).toNat) := by
  rw [bodyTbHoldLimit, tbBody_of_target htarget]
  exact if_neg (Nat.not_lt.2 hlimit)

/-- Settles O21: each form's body passes its range checks, and the alignment base decides between refusal and landing. -/
theorem timeBaseCorrectionsLand : Obligations.TimeBaseCorrectionsLand := by
  refine ⟨?set, ?step, ?setAligned, ?stepAligned, ?rateAligned, ?slew, ?rate, ?state, ?holdLimit, ?tb2Lane⟩
  case set =>
    intro s r n hserved htarget hns hfree
    rw [exec_tbSet]
    exact onMain_iapin_served hserved rfl (by rw [bodyTbSet_in_range _ htarget hns, hfree]; rfl)
  case step =>
    intro s r n hserved htarget hoffset hns hfree
    rw [exec_tbStep]
    exact onMain_iapin_served hserved rfl (by rw [bodyTbStep_in_range _ htarget hoffset hns, hfree]; rfl)
  case setAligned =>
    intro s r n hserved htarget hns haligned
    rw [exec_tbSet]
    exact onMain_iapin_served hserved rfl (by rw [bodyTbSet_in_range _ htarget hns, haligned]; rfl)
  case stepAligned =>
    intro s r n hserved htarget hoffset hns haligned
    rw [exec_tbStep]
    exact onMain_iapin_served hserved rfl (by rw [bodyTbStep_in_range _ htarget hoffset hns, haligned]; rfl)
  case rateAligned =>
    intro s r n hserved htarget haligned hrate
    rw [exec_tbRate]
    exact onMain_iapin_served hserved rfl (bodyTbRate_aligned_beyond htarget haligned hrate)
  case slew =>
    intro s r n hserved htarget hleft
    rw [exec_tbSlew]
    exact onMain_iapin_served hserved rfl (bodyTbSlew_in_range s.dev htarget hleft)
  case rate =>
    intro s r n hserved htarget hrate
    rw [exec_tbRate]
    exact onMain_iapin_served hserved rfl (bodyTbRate_in_range s.dev htarget hrate)
  case state =>
    intro s r n hserved htarget hcode hvalid
    rw [exec_tbState]
    exact onMain_iapin_served hserved rfl (bodyTbState_allowed htarget hcode hvalid)
  case holdLimit =>
    intro s r n hserved htarget hlimit
    rw [exec_tbHoldLimit]
    exact onMain_iapin_served hserved rfl (bodyTbHoldLimit_in_range s.dev htarget hlimit)
  case tb2Lane =>
    intro s r hserved
    rw [exec_tb2Lane]
    exact onMain_iapin_served hserved rfl rfl

end Sys2Proof.Proofs
end

section
/-!
PROOFS. MAP_LOAD, RECIPE_LOAD and COEF_STAGE, and what the end of each load stages (R71, R76, R86, R87, R125, R416, R418,
R419, R420).
-/

namespace Sys2Proof.Proofs

open Sys2Proof.Machine Sys2Proof.Safety

theorem exec_mapLoad (r : Req) (s : State) : exec (.mapLoad r) s = onMain (iapin 0x0101 writes
    (imgStart 0x0101 (some 2448) (· == 0) (fun _ d => d.tk.commit != .idle && nbit d.tk.set 1)) r) s := rfl

theorem exec_recipeLoad (r : Req) (s : State) : exec (.recipeLoad r) s = onMain (iapin 0x0201 writes
    (imgStart 0x0201 none (fun w => decide (w.toNat ≤ 15)) (fun r d => d.slotTaken (arg r 2).toNat)) r) s := rfl

theorem exec_coefStage (r : Req) (s : State) : exec (.coefStage r) s = onMain (iapin 0x0306 writes
    (imgStart 0x0306 none (· == 0) (fun _ _ => false)) r) s := rfl

variable {s : State} {r : Req} {d : Dev} {ws : List Word}

/-- An image load whose words pass, whose target is free and which finds a place is ACCEPTED and runs (R416, R418). -/
theorem onMain_imgStart_free {op : Nat} {size : Option Nat} {target : Word → Bool} {inUse : Req → Dev → Bool}
    (hserved : Served op false r s) (htarget : target (arg r 2) = true) (hargs : imgArgs r size = none)
    (huntaken : inUse r s.dev = false) (hlong : LongFree op r s.dev) :
    onMain (iapin op writes (imgStart op size target inUse) r) s =
      .next (taken op false r (.accepted r) (begun op r s.dev) s) :=
  onMain_iapin_served hserved rfl (by rw [imgStart_free htarget hargs huntaken, beginLong_free hlong])

/-- An image whose kind has one fixed length, and whose CRC holds, comes to its own checks (R418). -/
theorem imgFinish_good_fixed {size : List Word → Option Nat} {act : List Word → Body} (hsize : size (d.image r) = none)
    (hcrc : crc32 (wordsBytes (d.image r)) = arg r 5) : imgFinish size act r d = act (d.image r) r d := by
  simp [imgFinish, hsize, Dev.imageCrcOk, hcrc]

/-- A staged write's answer, where a load that only checks leaves the device (R410, R411). -/
theorem doneStaged_unless_checkOnly (e : Dev) :
    (if checkOnly r then d.doneStaged else e.doneStaged) = (.ok [0xFFFFFFFF], if checkOnly r then d else e) :=
  (apply_ite (fun x : Dev => (Rep.ok [0xFFFFFFFF], x)) _ _ _).symm

/-- The end of a load of a right map stages it, unless it only checks (R125, R419). -/
theorem finishMapLoad_staged (hcrc : crc32 (wordsBytes (d.image r)) = arg r 5) (hmap : d.mapBad (d.image r) = none) :
    finishMapLoad r d =
      (.ok [0xFFFFFFFF], if checkOnly r then d else { d with mapStaged := some (d.image r) }) := by
  rw [finishMapLoad, imgFinish_good_fixed rfl hcrc]
  simp only [hmap, doneStaged_unless_checkOnly]

/-- The end of a load of a right recipe fills its slot, which is the staged one from then on, unless the load only checks
(R86, R87; log entry 67). -/
theorem finishRecipeLoad_staged (hcrc : crc32 (wordsBytes (d.image r)) = arg r 5)
    (hlen : (arg r 4).toNat = 784 + 8 * wayArea (d.image r)) (hrecipe : recipeBad (d.image r) = none)
    (hfree : d.slotTaken (arg r 2).toNat = false) :
    finishRecipeLoad r d = (.ok [0xFFFFFFFF], if checkOnly r then d else { d with recipes := { d.recipes with
      slots := tblSet {} d.recipes.slots (arg r 2).toNat { valid := true, words := d.image r }
      staged := some (arg r 2).toNat } }) := by
  rw [finishRecipeLoad, imgFinish_good (congrArg some hlen.symm) hcrc]
  simp only [hrecipe, hfree, Bool.false_eq_true, if_false, doneStaged_unless_checkOnly]

/-- The end of a load of a right coefficient image stages its entries, unless it only checks (R76, R420). -/
theorem finishCoefStage_staged (hcrc : crc32 (wordsBytes (d.image r)) = arg r 5)
    (hlen : (arg r 4).toNat = 4 + 64 * (wat (d.image r) 0).toNat) (himage : coefImageBad (d.image r) = none) :
    finishCoefStage r d = (.ok [0xFFFFFFFF], if checkOnly r then d
      else { d with spin := { d.spin with stagedCoef := some (coefEntries (d.image r)) } }) := by
  rw [finishCoefStage, imgFinish_good (congrArg some hlen.symm) hcrc]
  simp only [himage, doneStaged_unless_checkOnly]

/-- Settles O27: the three loads begin by the one rule of image loads, and each end stages its own contents. -/
theorem imageLoadsStage : Obligations.ImageLoadsStage := by
  refine ⟨?mapBegins, ?mapEnds, ?recipeBegins, ?recipeEnds, ?coefBegins, ?coefEnds⟩
  case mapBegins =>
    intro s r hserved hargs htarget hcommit hlong
    have huntaken : (s.dev.tk.commit != .idle && nbit s.dev.tk.set 1) = false := by
      rcases hcommit with h | h <;> simp [h]
    rw [exec_mapLoad]
    exact onMain_imgStart_free hserved (beq_iff_eq.2 htarget) hargs huntaken hlong
  case mapEnds =>
    intro d r ws hws hcrc hmap
    subst hws
    exact finishMapLoad_staged hcrc hmap
  case recipeBegins =>
    intro s r hserved hargs hslot hfree hlong
    rw [exec_recipeLoad]
    exact onMain_imgStart_free hserved (decide_eq_true hslot) hargs hfree hlong
  case recipeEnds =>
    intro d r ws n hws hcrc hlen hrecipe hfree hn
    subst hws hn
    exact finishRecipeLoad_staged hcrc hlen hrecipe hfree
  case coefBegins =>
    intro s r hserved hargs htarget hlong
    rw [exec_coefStage]
    exact onMain_imgStart_free hserved (beq_iff_eq.2 htarget) hargs rfl hlong
  case coefEnds =>
    intro d r ws hws hcrc hlen himage
    subst hws
    exact finishCoefStage_staged hcrc hlen himage

end Sys2Proof.Proofs
end

section
/-!
PROOFS. The spindle group: coefficients, open and close, hold, flags and allocator staging (R71, R72, R75 to R77, R81, R116,
R412, R425).
-/

namespace Sys2Proof.Proofs

open Sys2Proof.Machine Sys2Proof.Safety

theorem exec_coefWrite (r : Req) (s : State) :
    exec (.coefWrite r) s = onMain (iapin 0x0301 writes bodyCoefWrite r) s := rfl

theorem exec_coefRead (r : Req) (s : State) : exec (.coefRead r) s = onMain (iapin 0x0302 reads bodyCoefRead r) s := rfl

theorem exec_openClose (r : Req) (s : State) :
    exec (.openClose r) s = onMain (iapin 0x0303 writes bodyOpenClose r) s := rfl

theorem exec_hold (r : Req) (s : State) : exec (.hold r) s = onMain (iapin 0x0304 writes bodyHold r) s := rfl

theorem exec_flagClear (r : Req) (s : State) :
    exec (.flagClear r) s = onMain (iapin 0x0305 writes bodyFlagClear r) s := rfl

theorem exec_allocStage (r : Req) (s : State) :
    exec (.allocStage r) s = onMain (iapin 0x0307 writes bodyAllocStage r) s := rfl

variable {r : Req} {f : RecForm} {d : Dev}

/-- A read of a record that passes its range checks answers the record's words (R411, R412). -/
theorem recRead_in_range {objs size : Nat} {words : Dev → Nat → List Word} (hform : recForm r objs size = some f) :
    recRead objs size words r d = (f.readReply r (words d f.index), d) := by
  simp only [recRead, hform, Dev.say]

/-- Coefficients written to a spindle that is OPEN with no open pending land at once (R75, R76). -/
theorem bodyCoefWrite_open (hform : recForm r 2048 14 = some f) (hpending : d.openPending f.index = false)
    (hopen : (d.instOf f.index).isOpen = true) :
    bodyCoefWrite r d = (d.modInst f.index (fun i => { i with
      coef := (List.range 14).map (fun k => coefMask k (f.wordOr k (wat (d.instOf f.index).coef k))) })).doneNow := by
  simp [bodyCoefWrite, hform, hpending, hopen]

/-- OPEN_CLOSE of a spindle for which none waits marks it and waits for the boundary (R76). -/
theorem bodyOpenClose_free (hfree : (d.instOf (bits (arg r 2) 10 0)).pendingOc = false) :
    bodyOpenClose r d = (d.modInst (bits (arg r 2) 10 0) (fun i => { i with pendingOc := true })).doneAtTick r
      (.openClose (bits (arg r 2) 10 0) (bit (arg r 2) 31)) := by
  simp [bodyOpenClose, hfree]

/-- Words of one section's allocator settings, the last of them at most its greatest value, are staged (R116, R425). -/
theorem bodyAllocStage_in_range (hsec : bits (arg r 2) 3 0 ≤ 5) (hcount : 1 ≤ bits (arg r 2) 15 12)
    (hend : bits (arg r 2) 11 8 + bits (arg r 2) 15 12 ≤ 6)
    (hlast : bits (arg r 2) 11 8 + bits (arg r 2) 15 12 = 6 → sval (arg r (8 - bits (arg r 2) 11 8)) ≤ 0x2CCCCCCD) :
    bodyAllocStage r d = Dev.doneStaged { d with spin := { d.spin with
      stagedAlloc := (List.range (bits (arg r 2) 15 12)).foldl (fun t i =>
        tblSet none t (8 * bits (arg r 2) 3 0 + bits (arg r 2) 11 8 + i) (some (arg r (3 + i)))) d.spin.stagedAlloc } } := by
  have hrange : ¬ (6 ≤ bits (arg r 2) 3 0 ∨ bits (arg r 2) 15 12 = 0 ∨
      6 < bits (arg r 2) 11 8 + bits (arg r 2) 15 12) := by omega
  have hvalue : ¬ (bits (arg r 2) 11 8 ≤ 5 ∧ 5 < bits (arg r 2) 11 8 + bits (arg r 2) 15 12 ∧
      (0x2CCCCCCD : Int) < sval (arg r (3 + 5 - bits (arg r 2) 11 8))) := by
    rintro ⟨-, hfull, hover⟩
    exact absurd (hlast (by omega)) (not_le.2 hover)
  rw [bodyAllocStage, if_neg hrange, if_neg hvalue]

/-- Settles O29: each body passes its checks and answers at once, at the boundary or as staged. -/
theorem spindleCommandsServed : Obligations.SpindleCommandsServed := by
  refine ⟨?coefWrite, ?coefRead, ?openClose, ?hold, ?flagClear, ?allocStage⟩
  case coefWrite =>
    intro s r f d hserved hform hpending hopen hd
    subst hd
    rw [exec_coefWrite]
    exact onMain_iapin_served hserved rfl (bodyCoefWrite_open hform hpending hopen)
  case coefRead =>
    intro s r f hserved hform
    rw [exec_coefRead]
    exact onMain_iapin_served hserved rfl (recRead_in_range hform)
  case openClose =>
    intro s r n d hserved hn hfree hd
    subst hn hd
    rw [exec_openClose]
    exact onMain_iapin_served hserved rfl (bodyOpenClose_free hfree)
  case hold =>
    intro s r hserved
    rw [exec_hold]
    exact onMain_iapin_served hserved rfl rfl
  case flagClear =>
    intro s r d hserved hd
    subst hd
    rw [exec_flagClear]
    exact onMain_iapin_served hserved rfl rfl
  case allocStage =>
    intro s r sec first count t hserved hsec hfirst hcount hrange hsome hend hlast ht
    subst hsec hfirst hcount ht
    rw [exec_allocStage]
    exact onMain_iapin_served hserved rfl (bodyAllocStage_in_range hrange hsome hend hlast)

end Sys2Proof.Proofs
end

section
/-!
PROOFS. O57: what a discard leaves of the recipes, and how it ends the running commands (R99, R253, R254, R403, R416). The
discard of the mailbox channels may take waiting writes, that of the running commands recipe slots; no other part of a
discard reaches either.
-/

namespace Sys2Proof.Machine

/-! ### Operations that reach neither the recipes nor the commands that run -/

/-- Steps that each keep a quantity of the device keep it together. -/
theorem foldl_same {α β : Type} {q : Dev → β} {f : Dev → α → Dev} {l : List α} (h : ∀ d, ∀ a ∈ l, q (f d a) = q d)
    (d : Dev) : q (l.foldl f d) = q d := by
  induction l generalizing d with
  | nil => rfl
  | cons a l ih =>
    rw [List.foldl_cons, ih (fun d b hb => h d b (List.mem_cons_of_mem a hb)), h d a List.mem_cons_self]

@[simp] theorem forEach_recipes {f : Nat → Dev → Dev} (h : ∀ i d, (f i d).recipes = d.recipes) (l : List Nat) (d : Dev) :
    (forEach l f d).recipes = d.recipes :=
  foldl_same (q := Dev.recipes) (fun d i _ => h i d) d

@[simp] theorem forEach_longs {f : Nat → Dev → Dev} (h : ∀ i d, (f i d).host.longs = d.host.longs) (l : List Nat) (d : Dev) :
    (forEach l f d).host.longs = d.host.longs :=
  foldl_same (q := fun d => d.host.longs) (fun d i _ => h i d) d

@[simp] theorem Dev.ite_recipes (c : Prop) [Decidable c] (d e : Dev) :
    (if c then d else e).recipes = if c then d.recipes else e.recipes :=
  apply_ite Dev.recipes c d e

@[simp] theorem Dev.ite_longs (c : Prop) [Decidable c] (d e : Dev) :
    (if c then d else e).host.longs = if c then d.host.longs else e.host.longs :=
  apply_ite (fun d : Dev => d.host.longs) c d e

@[simp] theorem Dev.modBox_longs (d : Dev) (ch : Nat) (f : Chan → Chan) : (d.modBox ch f).host.longs = d.host.longs := rfl

theorem Dev.modBox_chans (d : Dev) (ch : Nat) (f : Chan → Chan) :
    (d.modBox ch f).host.chans = tblMod {} d.host.chans ch f := rfl

@[simp] theorem forEach_modPort_frame (l : List Nat) (g : Nat → EthPort → EthPort) (d : Dev) :
    (forEach l (fun p e => e.modPort p (g p)) d).recipes = d.recipes ∧
      (forEach l (fun p e => e.modPort p (g p)) d).host.longs = d.host.longs :=
  ⟨forEach_recipes (fun k e => e.modPort_recipes k (g k)) l d,
   forEach_longs (fun k e => congrArg HostIf.longs (e.modPort_host k (g k))) l d⟩

@[simp] theorem forEach_modStrand_frame (l : List Nat) (g : Nat → Strand → Strand) (d : Dev) :
    (forEach l (fun k e => e.modStrand k (g k)) d).recipes = d.recipes ∧
      (forEach l (fun k e => e.modStrand k (g k)) d).host.longs = d.host.longs :=
  ⟨forEach_recipes (fun k e => e.modStrand_recipes k (g k)) l d,
   forEach_longs (fun k e => congrArg HostIf.longs (e.modStrand_host k (g k))) l d⟩

@[simp] theorem Dev.message_frame (d : Dev) (id b : Nat) : (d.message id b).recipes = d.recipes ∧
    (d.message id b).host.longs = d.host.longs ∧ (d.message id b).host.chans = d.host.chans := by
  unfold Dev.message
  split
  · exact ⟨rfl, rfl, rfl⟩
  · split <;> exact ⟨rfl, rfl, rfl⟩

@[simp] theorem Dev.raise_frame (d : Dev) (id b : Nat) : (d.raise id b).recipes = d.recipes ∧
    (d.raise id b).host.longs = d.host.longs ∧ (d.raise id b).host.chans = d.host.chans := by
  dsimp only [Dev.raise]
  split
  · exact ⟨rfl, rfl, rfl⟩
  · exact Dev.message_frame _ id b

@[simp] theorem Dev.levelUp_frame (d : Dev) (b : Nat) :
    (d.levelUp b).recipes = d.recipes ∧ (d.levelUp b).host.longs = d.host.longs := by
  simp [Dev.levelUp]

@[simp] theorem Dev.edge_frame (before after : Dev) (b : Nat) :
    (before.edge after b).recipes = after.recipes ∧ (before.edge after b).host.longs = after.host.longs := by
  simp [Dev.edge]

@[simp] theorem Dev.pushBack_frame (d : Dev) (ch : Nat) (w : Word) :
    (d.pushBack ch w).recipes = d.recipes ∧ (d.pushBack ch w).host.longs = d.host.longs := by
  simp [Dev.pushBack]

@[simp] theorem Dev.notice_frame (d : Dev) (ch tag status op : Nat) :
    (d.notice ch tag status op).recipes = d.recipes ∧ (d.notice ch tag status op).host.longs = d.host.longs := by
  simp [Dev.notice]

@[simp] theorem Dev.discardCan_frame (d : Dev) (c : Nat) :
    (d.discardCan c).recipes = d.recipes ∧ (d.discardCan c).host.longs = d.host.longs := by
  simp [Dev.discardCan, Dev.canEvent]

@[simp] theorem Dev.dropCal_frame (d : Dev) (input : Nat) :
    (d.dropCal input).recipes = d.recipes ∧ (d.dropCal input).host.longs = d.host.longs := by
  simp [Dev.dropCal]

/-! ### The discard of the mailbox channels -/

/-- The recipes without the writes that wait for the recipe step. -/
def Recipes.sansWrites (x : Recipes) : Recipes := { x with stepWrites := [] }

/-- The discard of a channel takes of the recipes what a message picked up anew has asked for (R99, R403). -/
theorem Dev.discardBox_recipes (d : Dev) (ch : Nat) : (d.discardBox ch).recipes =
    if (d.boxOf ch).picked && !(d.boxOf ch).again then (d.dropAsked (ch, wat (d.boxOf ch).req 1)).recipes
    else d.recipes := by
  simp [Dev.discardBox]

@[simp] theorem Dev.discardBox_longs (d : Dev) (ch : Nat) : (d.discardBox ch).host.longs = d.host.longs := by
  simp [Dev.discardBox, Dev.dropAsked]

/-- The discard of a channel changes that channel alone. -/
theorem Dev.discardBox_chans (d : Dev) (ch : Nat) :
    ∃ f : Chan → Chan, (d.discardBox ch).host.chans = tblMod {} d.host.chans ch f := by
  dsimp only [Dev.discardBox]
  simp only [(Dev.raise_frame _ _ _).2.2]
  split <;> exact ⟨_, Dev.modBox_chans _ _ _⟩

/-- The discard of a channel takes at most writes that wait. -/
theorem Dev.discardBox_sansWrites (d : Dev) (ch : Nat) :
    (d.discardBox ch).recipes.sansWrites = d.recipes.sansWrites := by
  rw [Dev.discardBox_recipes]
  split <;> rfl

/-- A message that is not picked up has brought about nothing yet (R403). -/
theorem Dev.discardBox_recipes_of_unpicked {d : Dev} {ch : Nat} (h : (d.boxOf ch).picked = false) :
    (d.discardBox ch).recipes = d.recipes := by
  simp [Dev.discardBox_recipes, h]

theorem Dev.discardBox_boxOf_other {d : Dev} {ch j : Nat} (h : j ≠ ch) : (d.discardBox ch).boxOf j = d.boxOf j := by
  obtain ⟨f, hf⟩ := d.discardBox_chans ch
  rw [Dev.boxOf, hf]
  exact Laws.tblGet_tblMod_other h f

theorem Dev.discardBoxes_sansWrites (d : Dev) : d.discardBoxes.recipes.sansWrites = d.recipes.sansWrites :=
  foldl_same (q := fun d => d.recipes.sansWrites) (fun d ch _ => d.discardBox_sansWrites ch) d

@[simp] theorem Dev.discardBoxes_longs (d : Dev) : d.discardBoxes.host.longs = d.host.longs := by
  simp [Dev.discardBoxes]

/-- The discard of distinct channels none of which is picked up leaves the recipes. -/
theorem forEach_discardBox_recipes {l : List Nat} (hdistinct : l.Nodup) {d : Dev}
    (hunpicked : ∀ ch ∈ l, (d.boxOf ch).picked = false) :
    (forEach l (fun ch d => d.discardBox ch) d).recipes = d.recipes := by
  induction l generalizing d with
  | nil => rfl
  | cons ch l ih =>
    obtain ⟨hfirst, hrest⟩ := List.forall_mem_cons.1 hunpicked
    obtain ⟨hnew, hdistinct⟩ := List.nodup_cons.1 hdistinct
    have hleft : ∀ j ∈ l, ((d.discardBox ch).boxOf j).picked = false := fun j hj => by
      rw [Dev.discardBox_boxOf_other (ne_of_mem_of_not_mem hj hnew), hrest j hj]
    exact (ih hdistinct hleft).trans (Dev.discardBox_recipes_of_unpicked hfirst)

/-- Without a channel whose command is picked up and has not landed no write that waits is lost (R99, R403). -/
theorem Dev.discardBoxes_recipes_of_unpicked {d : Dev}
    (h : ∀ ch, ch < 32 → (d.boxOf ch).go = true → (d.boxOf ch).landed = true ∨ (d.boxOf ch).picked = false) :
    d.discardBoxes.recipes = d.recipes := by
  refine forEach_discardBox_recipes (List.nodup_range.filter _) (fun ch hch => ?_)
  simp only [List.mem_filter, List.mem_range, Bool.and_eq_true, Bool.not_eq_true'] at hch
  obtain ⟨hlt, hgo, hunlanded⟩ := hch
  exact (h ch hlt hgo).resolve_left (by simp [hunlanded])

/-! ### The discard of the running commands -/

/-- The recipes without their slots. -/
def Recipes.sansSlots (x : Recipes) : Recipes := { x with slots := [] }

/-- An abandoned command takes at most a slot of the recipes, and only a RECIPE_LOAD takes that (R253, R254, R434). -/
theorem Dev.abandonLoad_recipes (d : Dev) (op : Nat) (r : Req) : (d.abandonLoad op r).recipes =
    if r.flags.getLsbD 0 = false ∧ op = 0x0201 ∧ d.slotTaken (bits (wat r.args 0) 31 0) = false then
      { d.recipes with slots := tblSet {} d.recipes.slots (bits (wat r.args 0) 31 0) {} }
    else d.recipes := by
  by_cases hload : op = 0x0201
  · cases hslot : d.slotTaken (bits (wat r.args 0) 31 0) <;> cases hcheck : r.flags.getLsbD 0 <;>
      simp only [Dev.abandonLoad, hload, hcheck, hslot] <;> rfl
  · simp [Dev.abandonLoad, hload]

@[simp] theorem Dev.abandonLoad_longs (d : Dev) (op : Nat) (r : Req) :
    (d.abandonLoad op r).host.longs = d.host.longs := by
  simp [Dev.abandonLoad]

theorem Dev.abandonLoad_sansSlots (d : Dev) (op : Nat) (r : Req) :
    (d.abandonLoad op r).recipes.sansSlots = d.recipes.sansSlots := by
  rw [Dev.abandonLoad_recipes]
  split <;> rfl

theorem Dev.abandonLoad_recipes_of_ne {d : Dev} {op : Nat} {r : Req} (h : op ≠ 0x0201) :
    (d.abandonLoad op r).recipes = d.recipes := by
  simp [Dev.abandonLoad_recipes, h]

/-- A running command as a discard leaves it (R416). -/
def LongRun.discarded (l : LongRun) : LongRun :=
  if l.state == .running then { l with state := .complete 0x0201 [] } else l

/-- A running command abandoned, with the notice of its end (R416). -/
def Dev.abandonLong (d : Dev) (l : LongRun) : Dev :=
  (d.abandonLoad l.op l.req).notice l.req.chan.val (tagOf l.req) 0x0201 l.op

/-- The device in which a discard has ended the running commands and not yet abandoned them (R416). -/
def Dev.endLongs (d : Dev) : Dev :=
  { d with
    host := { d.host with longs := d.host.longs.map LongRun.discarded }
    ply := { d.ply with log := d.ply.log.filter (fun e =>
      e.image.isEmpty || !d.running.any (fun l => l.op == e.op && l.req == e.req)) } }

theorem Dev.discardLongs_eq (d : Dev) : d.discardLongs =
    forEach ((List.range 32).filter (fun ch => d.running.any (fun l => l.req.chan.val == ch)))
      (fun ch e => e.pushBack ch
        (pack [(28, 0xD), (0, (d.running.foldl Dev.abandonLong d.endLongs).flt.discardCnt % 65536)]))
      (d.running.foldl Dev.abandonLong d.endLongs) := rfl

/-- The discard of the running commands leaves of the recipes what their abandonment leaves. -/
theorem Dev.discardLongs_recipes (d : Dev) :
    d.discardLongs.recipes = (d.running.foldl Dev.abandonLong d.endLongs).recipes := by
  simp [Dev.discardLongs_eq]

theorem Dev.discardLongs_sansSlots (d : Dev) : d.discardLongs.recipes.sansSlots = d.recipes.sansSlots := by
  rw [Dev.discardLongs_recipes]
  exact foldl_same (q := fun d => d.recipes.sansSlots)
    (fun d l _ => by simp [Dev.abandonLong, Dev.abandonLoad_sansSlots]) d.endLongs

/-- Without a RECIPE_LOAD that runs no recipe slot is lost (R253). -/
theorem Dev.discardLongs_recipes_of_no_load {d : Dev} (h : ∀ l ∈ d.host.longs, l.state = .running → l.op ≠ 0x0201) :
    d.discardLongs.recipes = d.recipes := by
  rw [Dev.discardLongs_recipes]
  refine foldl_same (q := Dev.recipes) (fun e l hl => ?_) d.endLongs
  obtain ⟨hmem, hrunning⟩ := List.mem_filter.1 hl
  simp [Dev.abandonLong, Dev.abandonLoad_recipes_of_ne (h l hmem (beq_iff_eq.1 hrunning))]

/-- Every running command ends DISCARDED, and the others stay (R416). -/
theorem Dev.discardLongs_longs (d : Dev) : d.discardLongs.host.longs = d.host.longs.map LongRun.discarded := by
  rw [Dev.discardLongs_eq, forEach_longs (fun ch e => (e.pushBack_frame ch _).2)]
  exact foldl_same (q := fun d => d.host.longs) (fun d l _ => by simp [Dev.abandonLong]) d.endLongs

/-! ### A whole discard -/

/-- The device in which a discard has begun (R253). -/
def Dev.discardBegun (d : Dev) : Dev :=
  { d with flt := { d.flt with discardCnt := satInc 16 d.flt.discardCnt, discardAt := some (d.now + 2) } }

/-- Of the parts of a discard only those of the channels and of the running commands reach the recipes and those commands
(R253). -/
theorem Dev.discardWork_frame (d : Dev) :
    d.discardWork.recipes = d.discardBegun.discardBoxes.discardLongs.recipes ∧
      d.discardWork.host.longs = d.discardBegun.discardBoxes.discardLongs.host.longs := by
  constructor <;> simp [Dev.discardWork, Dev.owe, Dev.discardBegun]

/-- A discard leaves all of the recipes but their slots and the writes that wait (R99, R254). -/
theorem Dev.discardWork_sans (d : Dev) :
    d.discardWork.recipes.sansSlots.sansWrites = d.recipes.sansSlots.sansWrites := by
  calc d.discardWork.recipes.sansSlots.sansWrites
      = d.discardBegun.discardBoxes.discardLongs.recipes.sansSlots.sansWrites := by rw [d.discardWork_frame.1]
    _ = d.discardBegun.discardBoxes.recipes.sansSlots.sansWrites := by rw [Dev.discardLongs_sansSlots]
    _ = d.discardBegun.discardBoxes.recipes.sansWrites.sansSlots := rfl
    _ = d.discardBegun.recipes.sansWrites.sansSlots := by rw [Dev.discardBoxes_sansWrites]

/-- The recipe slots outlast a discard under which no RECIPE_LOAD runs (R253). -/
theorem Dev.discardWork_slots {d : Dev} (h : ∀ l ∈ d.host.longs, l.state = .running → l.op ≠ 0x0201) :
    d.discardWork.recipes.slots = d.recipes.slots := by
  have hnoload : ∀ l ∈ d.discardBegun.discardBoxes.host.longs, l.state = .running → l.op ≠ 0x0201 := by
    rw [Dev.discardBoxes_longs]
    exact h
  have hboxes := congrArg Recipes.slots d.discardBegun.discardBoxes_sansWrites
  rw [d.discardWork_frame.1, Dev.discardLongs_recipes_of_no_load hnoload]
  exact hboxes

/-- The writes that wait outlast a discard under which no command of a channel has been picked up and not landed (R99,
R403). -/
theorem Dev.discardWork_stepWrites {d : Dev}
    (h : ∀ ch, ch < 32 → (d.boxOf ch).go = true → (d.boxOf ch).landed = true ∨ (d.boxOf ch).picked = false) :
    d.discardWork.recipes.stepWrites = d.recipes.stepWrites := by
  have hboxes : d.discardBegun.discardBoxes.recipes = d.recipes :=
    Dev.discardBoxes_recipes_of_unpicked (d := d.discardBegun) h
  have hlongs := congrArg Recipes.stepWrites d.discardBegun.discardBoxes.discardLongs_sansSlots
  rw [d.discardWork_frame.1, ← hboxes]
  exact hlongs

theorem Dev.discardWork_longs (d : Dev) : d.discardWork.host.longs = d.host.longs.map LongRun.discarded := by
  rw [d.discardWork_frame.2, Dev.discardLongs_longs, Dev.discardBoxes_longs]
  rfl

/-- What holds of the discard's work, and of a device left alone by a discard that merges into one under way, holds of every
discard (R253). -/
theorem Dev.discard_cases {P : Dev → Prop} {d : Dev} (hmerged : P d) (hwork : P d.discardWork) : P d.discard := by
  unfold Dev.discard
  split
  · exact hmerged
  · exact hwork

end Sys2Proof.Machine
end

section
/-!
PROOFS. O57: what a discard leaves of the recipes, and how it ends the running commands.
-/

namespace Sys2Proof.Proofs

open Sys2Proof.Machine Sys2Proof.Safety

/-- Settles O57: each clause is a fact about the discard's work, and a discard that merges into one under way changes
nothing. -/
theorem discardKeepsRecipes : Obligations.DiscardKeepsRecipes := by
  refine ⟨?kept, ?slots, ?stepWrites, ?longs⟩
  case kept =>
    intro d
    have hsans : d.discard.recipes.sansSlots.sansWrites = d.recipes.sansSlots.sansWrites :=
      Dev.discard_cases (P := fun e => e.recipes.sansSlots.sansWrites = d.recipes.sansSlots.sansWrites) rfl
        d.discardWork_sans
    simp only [Recipes.sansSlots, Recipes.sansWrites, Recipes.mk.injEq] at hsans
    simp [hsans]
  case slots =>
    intro d hnoload
    exact Dev.discard_cases (P := fun e => e.recipes.slots = d.recipes.slots) rfl (Dev.discardWork_slots hnoload)
  case stepWrites =>
    intro d hunpicked
    exact Dev.discard_cases (P := fun e => e.recipes.stepWrites = d.recipes.stepWrites) rfl
      (Dev.discardWork_stepWrites hunpicked)
  case longs =>
    intro d l hfirst hmem hrunning
    have hended : l.discarded = { l with state := .complete 0x0201 [] } := by simp [LongRun.discarded, hrunning]
    have hwork : d.discard = d.discardWork := by simp [Dev.discard, hfirst]
    rw [hwork, Dev.discardWork_longs, ← hended]
    exact List.mem_map_of_mem hmem

end Sys2Proof.Proofs
end

section
/-!
PROOFS. The recipe group: channel calibration, offsets, scales, time-out, targets and reports (R89 to R96, R100, R118,
R424).
-/

namespace Sys2Proof.Proofs

open Sys2Proof.Machine Sys2Proof.Safety

theorem exec_chanStage (r : Req) (s : State) :
    exec (.chanStage r) s = onMain (iapin 0x0202 writes bodyChanStage r) s := rfl

theorem exec_localOffset (r : Req) (s : State) :
    exec (.localOffset r) s = onMain (iapin 0x0203 writes bodyLocalOffset r) s := rfl

theorem exec_scale (r : Req) (s : State) : exec (.scale r) s = onMain (iapin 0x0204 writes bodyScale r) s := rfl

theorem exec_dlTimeout (r : Req) (s : State) :
    exec (.dlTimeout r) s = onMain (iapin 0x0205 writes bodyDlTimeout r) s := rfl

theorem exec_target (r : Req) (s : State) :
    exec (.target r) s = onMain (iapin 0x0206 reads (recRead 32 4 Dev.targetWords) r) s := rfl

theorem exec_report (r : Req) (s : State) : exec (.report r) s =
    onMain (iapin 0x0207 reads (recRead 32 8 (fun d n => (d.chanOf n).reportWords)) r) s := rfl

theorem exec_recipeStep (delivered : Bool) (s : State) : exec (.recipeStep delivered) s = onMain (fun d =>
    if d.tk.seqRun && decide (d.tk.tick % d.stepTicks = 0) then (if delivered then d.recipeStep else d.recipeMissed)
    else d) s := rfl

variable {r : Req} {s : State}

/-- An offset of at most a day waits for the recipe step (R89, R92). -/
theorem bodyLocalOffset_in_range (d : Dev) (hlo : -86400 ≤ sval (arg r 2)) (hhi : sval (arg r 2) ≤ 86400) :
    bodyLocalOffset r d = d.doneAtStep r (.localOffset (sval (arg r 2))) := by
  have hrange : ¬ (sval (arg r 2) < -86400 ∨ 86400 < sval (arg r 2)) := by omega
  exact if_neg hrange

/-- A scale of at most one, for one of the two scales, waits for the recipe step (R94). -/
theorem bodyScale_in_range (d : Dev) (hwhich : bits (arg r 3) 17 16 = 1 ∨ bits (arg r 3) 17 16 = 2)
    (hvalue : bits (arg r 3) 15 0 ≤ 0x8000) : bodyScale r d = d.doneAtStep r
      (.scale (arg r 2).toNat (bits (arg r 3) 17 16) (bits (arg r 3) 15 0) (join48 (arg r 4) (arg r 5))) := by
  have hrange : ¬ (bits (arg r 3) 17 16 = 0 ∨ bits (arg r 3) 17 16 = 3 ∨ 0x8000 < bits (arg r 3) 15 0) := by omega
  exact if_neg hrange

/-- A time-out of at most an hour waits for the recipe step (R94). -/
theorem bodyDlTimeout_in_range (d : Dev) (hlimit : (arg r 2).toNat ≤ 3600) :
    bodyDlTimeout r d = d.doneAtStep r (.dlTimeout (arg r 2).toNat) :=
  if_neg (Nat.not_lt.2 hlimit)

/-- On a tick of the recipe step of a running sequencer the step acts by its outcome (R90). -/
theorem exec_recipeStep_at_tick (hlive : Live s) (hrun : s.dev.tk.seqRun = true)
    (htick : s.dev.tk.tick % s.dev.stepTicks = 0) (delivered : Bool) : exec (.recipeStep delivered) s =
      .next (withDev s (if delivered then s.dev.recipeStep else s.dev.recipeMissed)) := by
  rw [exec_recipeStep, onMain_of_live hlive, if_pos (by simp [hrun, htick])]

/-- Settles O28: each body passes its range checks and stages (any MAX_SLEW, log entry 188), waits for the step or reads,
and the step goes by its outcome (a missed one as log entry 164 says). -/
theorem recipeCommandsServed : Obligations.RecipeCommandsServed := by
  refine ⟨?chanStage, ?localOffset, ?scale, ?dlTimeout, ?target, ?report, ?delivered, ?missed⟩
  case chanStage =>
    intro s r hserved
    rw [exec_chanStage]
    exact onMain_iapin_served hserved rfl rfl
  case localOffset =>
    intro s r hserved hlo hhi
    rw [exec_localOffset]
    exact onMain_iapin_served hserved rfl (bodyLocalOffset_in_range s.dev hlo hhi)
  case scale =>
    intro s r hserved hwhich hvalue
    rw [exec_scale]
    exact onMain_iapin_served hserved rfl (bodyScale_in_range s.dev hwhich hvalue)
  case dlTimeout =>
    intro s r hserved hlimit
    rw [exec_dlTimeout]
    exact onMain_iapin_served hserved rfl (bodyDlTimeout_in_range s.dev hlimit)
  case target =>
    intro s r f hserved hform
    rw [exec_target]
    exact onMain_iapin_served hserved rfl (recRead_in_range hform)
  case report =>
    intro s r f hserved hform
    rw [exec_report]
    exact onMain_iapin_served hserved rfl (recRead_in_range (words := fun d n => (d.chanOf n).reportWords) hform)
  case delivered =>
    intro s hlive hrun htick
    exact exec_recipeStep_at_tick hlive hrun htick true
  case missed =>
    intro s hlive hrun htick
    exact exec_recipeStep_at_tick hlive hrun htick false

end Sys2Proof.Proofs
end

section
/-!
PROOFS. MAP_READ, SECTION_STATUS, ENCODER and STRAND (R119, R124, R139, R186, R411, R412, R423).
-/

namespace Sys2Proof.Proofs

open Sys2Proof.Machine Sys2Proof.Safety

theorem exec_mapRead (r : Req) (s : State) : exec (.mapRead r) s = onMain (iapin 0x0102 reads bodyMapRead r) s := rfl

theorem exec_sectionStatus (r : Req) (s : State) :
    exec (.sectionStatus r) s = onMain (iapin 0x0103 readsRec bodySectionStatus r) s := rfl

theorem exec_encoder (r : Req) (s : State) : exec (.encoder r) s = onMain (iapin 0x0104 readsRec bodyEncoder r) s := rfl

theorem exec_strand (r : Req) (s : State) : exec (.strand r) s = onMain (iapin 0x0105 readsRec bodyStrand r) s := rfl

variable {r : Req} {f : RecForm} {d : Dev}

/-- A record request without the write bit is a read (R412). -/
theorem readsRec_of_read (hread : r.write = false) : readsRec r = true := by simp [readsRec, hread]

/-- A record request with the write bit is no read (R412). -/
theorem readsRec_of_write (hwrite : r.write = true) : readsRec r = false := by simp [readsRec, hwrite]

/-- MAP_READ from a word that the map has answers 13 words of the map that bit 16 chooses (R124, R423). -/
theorem bodyMapRead_in_range (d : Dev) (hfirst : bits (arg r 2) 15 0 < 612) :
    bodyMapRead r d = d.say (.ok (arg r 2 :: (List.range 13).map (fun i =>
      wat ((if bit (arg r 2) 16 then d.mapStaged else d.mapForce).getD []) (bits (arg r 2) 15 0 + i)))) :=
  if_neg (Nat.not_le.2 hfirst)

/-- A read of a section's record answers its words (R119, R412). -/
theorem bodySectionStatus_read (hform : recForm r 6 4 = some f) (hread : r.write = false) :
    bodySectionStatus r d = d.say (f.readReply r (d.secOf f.index).statusWords) := by
  simp [bodySectionStatus, hform, hread]

/-- A write of a section's record clears SHARE_SHORT at once where the carried bit is 1 (R119, R412). -/
theorem bodySectionStatus_write (hform : recForm r 6 4 = some f) (hwrite : r.write = true) :
    bodySectionStatus r d =
      (d.modSec f.index (fun x => { x with shareShort := x.shareShort && !bit (f.wordOr 3 0) 4 })).doneNow := by
  simp [bodySectionStatus, hform, hwrite]

/-- A read of an encoder's record answers the words of its cell (R139, R412). -/
theorem bodyEncoder_read (hform : recForm r d.strandCount 4 = some f) (hread : r.write = false) :
    bodyEncoder r d = d.say (f.readReply r (d.cellOf f.index).words) := by
  simp [bodyEncoder, hform, hread]

/-- A write of an encoder's record clears PHI_CLAMP at once where the carried bit is 1 (R139, R412). -/
theorem bodyEncoder_write (hform : recForm r d.strandCount 4 = some f) (hwrite : r.write = true) :
    bodyEncoder r d =
      (d.modCell f.index (fun x => { x with phiClamp := x.phiClamp && !bit (f.wordOr 3 0) 2 })).doneNow := by
  simp [bodyEncoder, hform, hwrite]

/-- A read of a strand's record answers its words (R186, R412). -/
theorem bodyStrand_read (hform : recForm r d.strandCount 8 = some f) (hread : r.write = false) :
    bodyStrand r d = d.say (f.readReply r (d.strandOf f.index).words) := by
  simp [bodyStrand, hform, hread]

/-- A write of a strand's record that carries word 0 clears LATE at once where its bit is 1, and the word waits for the
boundary (R186, R411). -/
theorem bodyStrand_write_word0 {w : Word} (hform : recForm r d.strandCount 8 = some f) (hwrite : r.write = true)
    (hword : f.wordFor 0 = some w) :
    bodyStrand r d =
      (d.modStrand f.index (fun x => { x with late := x.late && !bit w 10 })).doneAtTick r (.strandFields f.index w) := by
  simp [bodyStrand, hform, hwrite, hword]

/-- A write of a strand's record without word 0 changes nothing (R186, R412). -/
theorem bodyStrand_write_elsewhere (hform : recForm r d.strandCount 8 = some f) (hwrite : r.write = true)
    (hword : f.wordFor 0 = none) : bodyStrand r d = d.doneNow := by
  simp [bodyStrand, hform, hwrite, hword]

/-- Settles O30: each body passes its range checks, and the write bit (log entry 12) and the carried words choose its branch. -/
theorem mapAndStrandRecords : Obligations.MapAndStrandRecords := by
  refine ⟨?mapRead, ?sectionRead, ?sectionWrite, ?encoderRead, ?encoderWrite, ?strandRead, ?strandWord0, ?strandElsewhere⟩
  case mapRead =>
    intro s r hserved hfirst
    rw [exec_mapRead]
    exact onMain_iapin_served hserved rfl (bodyMapRead_in_range s.dev hfirst)
  case sectionRead =>
    intro s r f hserved hread hform
    rw [exec_sectionStatus]
    exact onMain_iapin_served hserved (readsRec_of_read hread) (bodySectionStatus_read hform hread)
  case sectionWrite =>
    intro s r f d hserved hwrite hform hd
    subst hd
    rw [exec_sectionStatus]
    exact onMain_iapin_served hserved (readsRec_of_write hwrite) (bodySectionStatus_write hform hwrite)
  case encoderRead =>
    intro s r f hserved hread hform
    rw [exec_encoder]
    exact onMain_iapin_served hserved (readsRec_of_read hread) (bodyEncoder_read hform hread)
  case encoderWrite =>
    intro s r f d hserved hwrite hform hd
    subst hd
    rw [exec_encoder]
    exact onMain_iapin_served hserved (readsRec_of_write hwrite) (bodyEncoder_write hform hwrite)
  case strandRead =>
    intro s r f hserved hread hform
    rw [exec_strand]
    exact onMain_iapin_served hserved (readsRec_of_read hread) (bodyStrand_read hform hread)
  case strandWord0 =>
    intro s r f w d hserved hwrite hform hword hd
    subst hd
    rw [exec_strand]
    exact onMain_iapin_served hserved (readsRec_of_write hwrite) (bodyStrand_write_word0 hform hwrite hword)
  case strandElsewhere =>
    intro s r f hserved hwrite hform hword
    rw [exec_strand]
    exact onMain_iapin_served hserved (readsRec_of_write hwrite) (bodyStrand_write_elsewhere hform hwrite hword)

end Sys2Proof.Proofs
end

section
/-!
PROOFS. The generator of a trim channel, its masks and event pins, and the gates that its driver follows (R142, R146, R148,
R149, R203).
-/

namespace Sys2Proof.Proofs

open Sys2Proof.Machine Sys2Proof.Safety

theorem exec_trimPeriodEnd (n : Fin 32) (s : State) : exec (.trimPeriodEnd n) s = execTrimPeriodEnd n s := rfl

theorem exec_trimDutyEnd (n : Fin 32) (s : State) : exec (.trimDutyEnd n) s = execTrimDutyEnd n s := rfl

theorem exec_maskApply (e : MaskEvent) (s : State) : exec (.maskApply e) s = execMaskApply e s := rfl

theorem exec_trimEvt (pin : Fin 4) (falling : Bool) (s : State) :
    exec (.trimEvt pin falling) s = execTrimEvt pin falling s := rfl

theorem exec_oppositeGateFall (n : Fin 32) (high : Bool) (s : State) : exec (.oppositeGateFall n high) s = onMain (fun d =>
    d.modDrive n.val (fun t => if high then t.lowFalls d.now else t.highFalls d.now)) s := rfl

variable {s : State} {d : Dev} {t : Trim} {n : Fin 32}

/-- The duty fills the period exactly where it does not end within it (R142). -/
theorem full_eq_false_iff : t.full = false ↔ t.duty < 64 * t.period := by simp [Trim.full]

/-- Where no mask is pending, and none was replaced in this core cycle, an event finds none (R149). -/
theorem maskFor_none (cyc : Nat) (hpending : t.maskPending = false) (hwas : t.pendWas = none) : t.maskFor cyc = none := by
  simp [Trim.maskFor, hpending, hwas]

/-- At the boundary that has just come, a mask that waits for the boundary meets its event (R148). -/
theorem maskEvent_boundary (hwaits : t.waitsFor 0 d.now = true) (hrun : d.tk.seqRun = true)
    (hnow : d.now = d.tk.tickStart) : d.maskEvent t = some (0, d) := by
  have hboundary : (d.tk.seqRun && decide (d.now = d.tk.tickStart) && t.waitsFor 0 d.now) = true := by
    simp [hrun, ← hnow, hwaits]
  exact if_pos hboundary

/-- Past the boundary, a mask that waits for the crossing of its arm meets it where the crossing is still to come, and the
clock reaches it (R148). -/
theorem maskEvent_zeroCrossing {z : Nat} (hnow : d.now ≠ d.tk.tickStart)
    (hcross : tblGet 0 d.tk.zcNow t.zcArm = z + 1) (hcoming : 64 * d.now ≤ z) (hwaits : t.waitsFor 1 (z / 64) = true) :
    d.maskEvent t = some (1, d.advanceUntil (z / 64)) := by
  simp [Dev.maskEvent, hnow, hcross, hcoming, hwaits]

/-- No event comes where none finds a mask (R149). -/
theorem maskEvent_none (hnone : ∀ cyc, t.maskFor cyc = none) : d.maskEvent t = none := by
  have hwaits : ∀ evt cyc, t.waitsFor evt cyc = false := fun evt cyc => by simp [Trim.waitsFor, hnone]
  simp [Dev.maskEvent, hwaits]

/-- A pending mask that meets its event is applied as the clock reaches it, and the driver follows, or takes the rise of both
commands that the command path brings (R148, R203; log entry 63). -/
theorem exec_maskApply_of_event {evt : Nat} {bothOn : Bool} (hlive : Live s)
    (hevent : s.dev.maskEvent (s.dev.trimOf n.val) = some (evt, d)) :
    exec (.maskApply ⟨n, bothOn⟩) s = .next (withDev s
      (if bothOn then (d.modTrim n.val (fun t => t.applyMask evt d.now)).bothRise n.val
       else d.modDrive n.val (fun t => t.applyMask evt d.now))) := by
  rw [exec_maskApply, execMaskApply, onMain_of_live hlive]
  simp only [hevent]

/-- A mask without an event changes nothing (R149). -/
theorem exec_maskApply_of_no_event {bothOn : Bool} (hlive : Live s)
    (hevent : s.dev.maskEvent (s.dev.trimOf n.val) = none) :
    exec (.maskApply ⟨n, bothOn⟩) s = .next (withDev s s.dev) := by
  rw [exec_maskApply, execMaskApply, onMain_of_live hlive]
  simp only [hevent]

/-- Settles O7: the ends of the period and of the duty by their guards, MASK_APPLY by the event that the pending mask meets
(with its operand true the rise of both commands, log entry 63), and an edge of a pin channel by channel. -/
theorem trimGeneratorEvents : Obligations.TrimGeneratorEvents := by
  refine ⟨?periodEnd, ?dutyEnd, ?boundary, ?zeroCrossing, ?noMask, ?bothRise, ?eventPin, ?gateFall⟩
  case periodEnd =>
    intro s n d hlive hen hd
    subst hd
    rw [exec_trimPeriodEnd, execTrimPeriodEnd, onMain_of_live hlive]
    simp only [hen, if_true]
  case dutyEnd =>
    intro s n hlive hen hout hduty
    rw [exec_trimDutyEnd, execTrimDutyEnd, onMain_of_live hlive]
    simp [hen, hout, full_eq_false_iff.2 hduty]
  case boundary =>
    intro s n hlive hwaits hrun hnow
    exact exec_maskApply_of_event hlive (maskEvent_boundary hwaits hrun hnow)
  case zeroCrossing =>
    intro s n z d hlive hnow hcross hcoming hwaits hd
    subst hd
    exact exec_maskApply_of_event hlive (maskEvent_zeroCrossing hnow hcross hcoming hwaits)
  case noMask =>
    intro s n bothOn hlive hpending hwas
    exact exec_maskApply_of_no_event hlive (maskEvent_none (fun cyc => maskFor_none cyc hpending hwas))
  case bothRise =>
    intro s n evt d hlive hevent
    exact exec_maskApply_of_event hlive hevent
  case eventPin =>
    intro s pin falling hlive
    rw [exec_trimEvt, execTrimEvt, onMain_of_live hlive]
    simp only [Bool.and_eq_true, decide_eq_true_eq, beq_iff_eq, and_assoc]
  case gateFall =>
    intro s n high hlive
    rw [exec_oppositeGateFall, onMain_of_live hlive]

end Sys2Proof.Proofs
end

section
/-!
PROOFS. TRIM, TRIM_PAIR, TRIM_STAGE, TRIM_DRIVER and LOCKOUT_CLEAR (R143 to R145, R147, R206, R210, R411, R412, R424).
-/

namespace Sys2Proof.Proofs

open Sys2Proof.Machine Sys2Proof.Safety

theorem exec_trim (r : Req) (s : State) : exec (.trim r) s = onMain (iapin 0x0208 readsRec bodyTrim r) s := rfl

theorem exec_trimPair (r : Req) (s : State) : exec (.trimPair r) s = onMain (iapin 0x0209 writes bodyTrimPair r) s := rfl

theorem exec_trimStage (r : Req) (s : State) :
    exec (.trimStage r) s = onMain (iapin 0x020A writes bodyTrimStage r) s := rfl

theorem exec_trimDriver (r : Req) (s : State) :
    exec (.trimDriver r) s = onMain (iapin 0x020B readsRec bodyTrimDriver r) s := rfl

theorem exec_lockoutClear (r : Req) (s : State) :
    exec (.lockoutClear r) s = onMain (iapin 0x020C writes bodyLockoutClear r) s := rfl

/-- What words 0, 1 and 3 of a TRIM write leave: the flags cleared, PERIOD and DUTY landed, the driver following (R147). -/
def generatorWritten (d : Dev) (f : RecForm) : Dev :=
  (d.modTrim f.index (fun t => match f.wordFor 3 with | some w => t.clearWord3 w | none => t)).modDrive f.index (fun t =>
    t.writePair d.now ((f.wordFor 0).map (fun w => bits w 24 0)) ((f.wordFor 1).map (fun w => bits w 30 0)))

/-- What word 2 of a TRIM_DRIVER write leaves: its flags cleared (R210). -/
def driverCleared (d : Dev) (f : RecForm) : Dev :=
  d.modTrim f.index (fun t => match f.wordFor 2 with | some w => t.clearDrv w | none => t)

/-- The settings that a TRIM_DRIVER write makes: its words over those staged, or over those in force (R210). -/
def driverSettings (d : Dev) (f : RecForm) : DrvSet :=
  ((d.trimOf f.index).stagedDrv.getD (d.trimOf f.index).drv).write f

variable {r : Req} {f : RecForm} {d : Dev} {w : Word}

/-- A read of a generator's record answers its words (R147, R412). -/
theorem bodyTrim_read (hform : recForm r 32 4 = some f) (hread : r.write = false) :
    bodyTrim r d = d.say (f.readReply r (d.trimOf f.index).genWords) := by
  simp [bodyTrim, hform, hread]

/-- A write that carries PERIOD or DUTY only where the warp table does not own the channel is not refused for it (R145). -/
theorem not_owned_of_free (hfree : f.first = 0 ∨ (f.wordFor 1).isSome = true → d.warpOwns f.index = false) :
    ¬ ((f.first = 0 ∨ (f.wordFor 1).isSome = true) ∧ d.warpOwns f.index = true) := by
  rintro ⟨hpair, howns⟩
  simp [hfree hpair] at howns

/-- A TRIM write that does not carry word 2, and PERIOD or DUTY only of a channel that the warp table does not own, lands at
once (R143, R145, R147). -/
theorem bodyTrim_write_without_word2 (hform : recForm r 32 4 = some f) (hwrite : r.write = true)
    (hfree : f.first = 0 ∨ (f.wordFor 1).isSome = true → d.warpOwns f.index = false) (hword : f.wordFor 2 = none) :
    bodyTrim r d = (generatorWritten d f).doneNow := by
  simp only [bodyTrim, hform, hwrite, hword, if_neg (not_owned_of_free hfree), Bool.not_true, Bool.false_eq_true,
    if_false, Option.map_none, Option.getD_none]
  rfl

/-- A TRIM write that carries word 2, and arms no mask for a reserved event, lands EN and TICK_ALIGN at the boundary and the
rest at once (R147; log entry 51). -/
theorem bodyTrim_write_with_word2 (hform : recForm r 32 4 = some f) (hwrite : r.write = true)
    (hfree : f.first = 0 ∨ (f.wordFor 1).isSome = true → d.warpOwns f.index = false) (hword : f.wordFor 2 = some w)
    (harm : bit w 7 = true → bits w 6 5 ≠ 3) :
    bodyTrim r d = ((generatorWritten d f).modTrim f.index (fun t => t.writeWord2 w d.now)).doneAtTick r
      (.trimEnAlign f.index w) := by
  have hreserved : ¬ (bit w 7 && decide (bits w 6 5 = 3)) = true := by simpa using harm
  simp only [bodyTrim, hform, hwrite, hword, if_neg (not_owned_of_free hfree), Bool.not_true, Bool.false_eq_true,
    if_false, Option.map_some, Option.getD_some, if_neg hreserved]
  rfl

/-- TRIM_PAIR of a channel that the warp table does not own lands PERIOD and DUTY at once (R144, R145). -/
theorem bodyTrimPair_free (hfree : d.warpOwns (bits (arg r 2) 4 0) = false) :
    bodyTrimPair r d = (d.modDrive (bits (arg r 2) 4 0) (fun t =>
      t.writePair d.now (some (arg r 3).toNat) (some (bits (arg r 4) 30 0)))).doneNow := by
  simp [bodyTrimPair, hfree]

/-- A read of a driver's record answers its words (R210, R412). -/
theorem bodyTrimDriver_read (hform : recForm r 32 4 = some f) (hread : r.write = false) :
    bodyTrimDriver r d = d.say (f.readReply r (d.trimOf f.index).drvWords) := by
  simp [bodyTrimDriver, hform, hread]

/-- A TRIM_DRIVER write from word 0 or 1 on stages the settings that it makes, where they are in range (R210). -/
theorem bodyTrimDriver_settings (hform : recForm r 32 4 = some f) (hwrite : r.write = true) (hfirst : f.first ≤ 1)
    (hgood : (driverSettings d f).bad = none) :
    bodyTrimDriver r d = ((driverCleared d f).modTrim f.index (fun t =>
      { t with stagedDrv := some (driverSettings d f) })).doneStaged := by
  unfold driverSettings at hgood ⊢
  simp only [bodyTrimDriver, hform, hwrite, Bool.not_true, Bool.false_eq_true, if_false, if_pos hfirst, hgood]
  rfl

/-- A TRIM_DRIVER write from word 2 on clears the flags at once (R210). -/
theorem bodyTrimDriver_flags (hform : recForm r 32 4 = some f) (hwrite : r.write = true) (hfirst : 2 ≤ f.first) :
    bodyTrimDriver r d = (driverCleared d f).doneNow := by
  have hsettings : ¬ f.first ≤ 1 := by omega
  simp only [bodyTrimDriver, hform, hwrite, Bool.not_true, Bool.false_eq_true, if_false, if_neg hsettings]
  rfl

/-- LOCKOUT_CLEAR of a channel under no cut waits for the boundary (R206). -/
theorem bodyLockoutClear_uncut (hcut : d.trimCut (bits (arg r 2) 4 0) = false) :
    bodyLockoutClear r d = d.doneAtTick r (.lockoutClear (bits (arg r 2) 4 0)) := by
  simp [bodyLockoutClear, hcut]

/-- Settles O9: the write bit and the carried words choose each body's branch (a PERIOD out of range lands as WR_REJECT in
`writePair`, log entry 52). -/
theorem trimCommandsServed : Obligations.TrimCommandsServed := by
  refine ⟨?trimRead, ?trimAtOnce, ?trimWord2, ?pair, ?stage, ?driverRead, ?driverSettings, ?driverFlags, ?lockoutClear⟩
  case trimRead =>
    intro s r f hserved hread hform
    rw [exec_trim]
    exact onMain_iapin_served hserved (readsRec_of_read hread) (bodyTrim_read hform hread)
  case trimAtOnce =>
    intro s r f d hserved hwrite hform hfree hword hd
    subst hd
    rw [exec_trim]
    exact onMain_iapin_served hserved (readsRec_of_write hwrite) (bodyTrim_write_without_word2 hform hwrite hfree hword)
  case trimWord2 =>
    intro s r f w d hserved hwrite hform hfree hword harm hd
    subst hd
    rw [exec_trim]
    exact onMain_iapin_served hserved (readsRec_of_write hwrite) (bodyTrim_write_with_word2 hform hwrite hfree hword harm)
  case pair =>
    intro s r n d hserved hn hfree hd
    subst hn hd
    rw [exec_trimPair]
    exact onMain_iapin_served hserved rfl (bodyTrimPair_free hfree)
  case stage =>
    intro s r hserved
    rw [exec_trimStage]
    exact onMain_iapin_served hserved rfl rfl
  case driverRead =>
    intro s r f hserved hread hform
    rw [exec_trimDriver]
    exact onMain_iapin_served hserved (readsRec_of_read hread) (bodyTrimDriver_read hform hread)
  case driverSettings =>
    intro s r f set d hserved hwrite hform hfirst hset hgood hd
    subst hset hd
    rw [exec_trimDriver]
    exact onMain_iapin_served hserved (readsRec_of_write hwrite) (bodyTrimDriver_settings hform hwrite hfirst hgood)
  case driverFlags =>
    intro s r f hserved hwrite hform hfirst
    rw [exec_trimDriver]
    exact onMain_iapin_served hserved (readsRec_of_write hwrite) (bodyTrimDriver_flags hform hwrite hfirst)
  case lockoutClear =>
    intro s r hserved hcut
    rw [exec_lockoutClear]
    exact onMain_iapin_served hserved rfl (bodyLockoutClear_uncut hcut)

end Sys2Proof.Proofs
end

section
/-!
PROOFS. AUX_OUT, RETURN, DEEP_REST, WAKE, ENDPOINT_CMD and BULK_RING (R157, R171, R175, R178, R180, R411, R416, R423).
-/

namespace Sys2Proof.Proofs

open Sys2Proof.Machine Sys2Proof.Safety

theorem exec_auxOut (r : Req) (s : State) : exec (.auxOut r) s = onMain (iapin 0x0106 writes bodyAuxOut r) s := rfl

theorem exec_returnCell (r : Req) (s : State) :
    exec (.returnCell r) s = onMain (iapin 0x0107 writes bodyReturnCell r) s := rfl

theorem exec_deepRest (r : Req) (s : State) : exec (.deepRest r) s = onMain (iapin 0x0108 writes bodyDeepRest r) s := rfl

theorem exec_wake (r : Req) (s : State) : exec (.wake r) s = onMain (iapin 0x0109 writes bodyWake r) s := rfl

theorem exec_endpointCmd (r : Req) (s : State) :
    exec (.endpointCmd r) s = onMain (iapin 0x010A writes bodyEndpointCmd r) s := rfl

theorem exec_bulkRing (r : Req) (s : State) : exec (.bulkRing r) s = onMain (iapin 0x010B writes bodyBulkRing r) s := rfl

variable {r : Req} {d : Dev}

/-- AUX_OUT of a skein that the part has waits for the boundary (R157). -/
theorem bodyAuxOut_in_part (hskein : bits (arg r 2) 3 0 < d.skeinCount) :
    bodyAuxOut r d = d.doneAtTick r (.auxOut (bits (arg r 2) 3 0) (bits (arg r 2) 31 16)) :=
  if_neg (Nat.not_le.2 hskein)

/-- RETURN of an ACTIVE strand whose last 16 uplinks were FRESH, the last without a fault bit, waits for the boundary (R178). -/
theorem bodyReturnCell_whole {u : Uplink} (hpart : d.badStrand (arg r 2) = false)
    (hactive : (d.strandOf (bits (arg r 2) 7 0)).state = .active)
    (hfresh : 16 ≤ (d.strandOf (bits (arg r 2) 7 0)).freshRun)
    (hlast : (d.strandOf (bits (arg r 2) 7 0)).last = some u) (hwhole : wat u.control 23 = 0) :
    bodyReturnCell r d = d.doneAtTick r (.returnCell (bits (arg r 2) 7 0)) := by
  simp [bodyReturnCell, hpart, hactive, hfresh, hlast, hwhole]

/-- DEEP_REST of a cell that is not mapped, or parked, waits for the boundary (R180). -/
theorem bodyDeepRest_unused (hpart : d.badStrand (arg r 2) = false)
    (hunused : d.mapped (bits (arg r 2) 7 0) = false ∨ d.parked (bits (arg r 2) 7 0) = true) :
    bodyDeepRest r d = d.doneAtTick r (.deepRest (bits (arg r 2) 7 0)) := by
  have hfree : (d.mapped (bits (arg r 2) 7 0) && !d.parked (bits (arg r 2) 7 0)) = false := by
    rcases hunused with h | h <;> simp [h]
  simp [bodyDeepRest, hpart, hfree]

/-- WAKE of a strand in DEEP waits for the boundary (R180). -/
theorem bodyWake_deep (hpart : d.badStrand (arg r 2) = false)
    (hdeep : (d.strandOf (bits (arg r 2) 7 0)).state = .deep) :
    bodyWake r d = d.doneAtTick r (.wake (bits (arg r 2) 7 0)) := by
  simp [bodyWake, hpart, hdeep]

/-- ENDPOINT_CMD of a code that is not the device's own (DEEP_REST, REST_SET) begins, and its command joins the strand's queue,
whatever the strand's state (R171, R416; log entry 69). -/
theorem bodyEndpointCmd_permitted (hpart : d.badStrand (arg r 2) = false) (hdeepRest : bits (arg r 3) 7 0 ≠ 4)
    (hrestSet : bits (arg r 3) 7 0 ≠ 5) (hlong : LongFree 0x010A r d) :
    bodyEndpointCmd r d = (.accepted r, (begun 0x010A r d).modStrand (bits (arg r 2) 7 0) (fun x => x.queueCmd
      { cmd := bits (arg r 3) 7 0, arg0 := bits (arg r 4) 15 0, args := [arg r 5, arg r 6, arg r 7], host := true })) := by
  have haccepted : (Rep.accepted r).status = 1 := rfl
  simp [bodyEndpointCmd, hpart, hdeepRest, hrestSet, beginLong_free hlong, haccepted]

/-- BULK_RING with a ring inside the converter buffers waits for the boundary (R175). -/
theorem bodyBulkRing_in_area (hpart : d.badStrand (arg r 2) = false) (hstart : areaLo ≤ (arg r 3).toNat)
    (hend : (arg r 3).toNat + (arg r 4).toNat ≤ areaEnd) :
    bodyBulkRing r d = d.doneAtTick r
      (.bulkRing (bits (arg r 2) 7 0) (bit (arg r 2) 8) (arg r 3).toNat (arg r 4).toNat) := by
  simp [bodyBulkRing, hpart, Nat.not_lt.2 hstart, Nat.not_lt.2 hend]

/-- Settles O31: each body passes its checks; ENDPOINT_CMD, the one long-running command among them, finds its place and queues
its command in every state of the strand (log entry 69). -/
theorem strandCommandsServed : Obligations.StrandCommandsServed := by
  refine ⟨?auxOut, ?returnCell, ?deepRest, ?wake, ?endpointCmd, ?bulkRing⟩
  case auxOut =>
    intro s r hserved hskein
    rw [exec_auxOut]
    exact onMain_iapin_served hserved rfl (bodyAuxOut_in_part hskein)
  case returnCell =>
    intro s r x u hserved hpart hx hactive hfresh hlast hwhole
    subst hx
    rw [exec_returnCell]
    exact onMain_iapin_served hserved rfl (bodyReturnCell_whole hpart hactive hfresh hlast hwhole)
  case deepRest =>
    intro s r hserved hpart hunused
    rw [exec_deepRest]
    exact onMain_iapin_served hserved rfl (bodyDeepRest_unused hpart hunused)
  case wake =>
    intro s r hserved hpart hdeep
    rw [exec_wake]
    exact onMain_iapin_served hserved rfl (bodyWake_deep hpart hdeep)
  case endpointCmd =>
    intro s r c hserved hpart hc hdeepRest hrestSet hlong
    subst hc
    rw [exec_endpointCmd]
    exact onMain_iapin_served hserved rfl (bodyEndpointCmd_permitted hpart hdeepRest hrestSet hlong)
  case bulkRing =>
    intro s r hserved hpart hstart hend
    rw [exec_bulkRing]
    exact onMain_iapin_served hserved rfl (bodyBulkRing_in_area hpart hstart hend)

end Sys2Proof.Proofs
end

section
/-!
PROOFS. The states of a strand from DETECT to ACTIVE, DEEP and FAILED (R161, R162, R163, R164, R168, R180, R187).
-/

namespace Sys2Proof.Proofs

open Sys2Proof.Machine Sys2Proof.Safety

theorem exec_receiverDetection (k : Fin 256) (seen : Bool) (s : State) :
    exec (.receiverDetection k seen) s = execReceiverDetection k seen s := rfl

theorem exec_bitLock (k : Fin 256) (s : State) : exec (.bitLock k) s = execBitLock k s := rfl

theorem exec_trainTimeout (k : Fin 256) (s : State) : exec (.trainTimeout k) s = execTrainTimeout k s := rfl

theorem exec_symbolLock (k : Fin 256) (s : State) : exec (.symbolLock k) s = execSymbolLock k s := rfl

theorem exec_lockTimeout (k : Fin 256) (s : State) : exec (.lockTimeout k) s = execLockTimeout k s := rfl

theorem exec_capsTimeout (k : Fin 256) (s : State) : exec (.capsTimeout k) s = execCapsTimeout k s := rfl

theorem exec_symbolLockLost (k : Fin 256) (s : State) : exec (.symbolLockLost k) s = execSymbolLockLost k s := rfl

theorem exec_deepSymbols (k : Fin 256) (s : State) : exec (.deepSymbols k) s = execDeepSymbols k s := rfl

theorem exec_capabilityFrame (k : Fin 256) (f : CapsFrame) (rtt : BitVec 24) (s : State) :
    exec (.capabilityFrame k f.w0 f.w1 f.w2 f.w3 ⟨f.crc, rtt⟩) s =
      execCapabilityFrame k f.w0 f.w1 f.w2 f.w3 ⟨f.crc, rtt⟩ s := rfl

variable {s : State} {k : Fin 256} {f : CapsFrame} {rtt : BitVec 24}

/-- A meaning of the main logic that acts only under a test acts where the test holds (R436). -/
theorem onMain_of_test {test : Dev → Bool} {act : Dev → Dev} (hlive : Live s) (htest : test s.dev = true) :
    onMain (fun d => if test d then act d else d) s = .next (withDev s (act s.dev)) := by
  rw [onMain_of_live hlive, if_pos htest]

/-- An attempt in DETECT on a locked cluster ends in TRAIN, in FAILED at the tenth miss, or counts its miss (R161, R444). -/
theorem exec_receiverDetection_in_detect {seen : Bool} (hlive : Live s) (hstate : (s.dev.strandOf k.val).state = .detect)
    (hpll : (s.dev.skeinOf (k.val / 16)).pllLocked = true) :
    exec (.receiverDetection k seen) s = .next (withDev s
      (if seen then s.dev.enter k.val .train 0
       else if 10 ≤ (s.dev.strandOf k.val).detectTries + 1 then (s.dev.enter k.val .failed 1).reportDown [k.val]
       else s.dev.modStrand k.val (fun x => { x with detectTries := x.detectTries + 1 }))) := by
  rw [exec_receiverDetection, execReceiverDetection]
  exact onMain_of_test hlive (by simp [hstate, hpll])

/-- A capability frame whose CRC is bad is no exchange and changes nothing (R162). -/
theorem exec_capabilityFrame_of_bad_crc (hlive : Live s) (hcrc : capsGood f = false) :
    exec (.capabilityFrame k f.w0 f.w1 f.w2 f.w3 ⟨f.crc, rtt⟩) s = .next (withDev s s.dev) := by
  rw [exec_capabilityFrame, execCapabilityFrame, onMain_of_live hlive]
  simp [hcrc]

/-- In CAPS, before the exchange is done, a frame with a good CRC fails the strand where its words fail the checks, and is
exchanged where they pass (R163, R164). -/
theorem exec_capabilityFrame_in_caps (hlive : Live s) (hcrc : capsGood f = true)
    (hstate : (s.dev.strandOf k.val).state = .caps) (hopen : (s.dev.strandOf k.val).capsDone = false) :
    exec (.capabilityFrame k f.w0 f.w1 f.w2 f.w3 ⟨f.crc, rtt⟩) s = .next (withDev s
      (if capsBad f.w0 f.w1 then (s.dev.enter k.val .failed 5).reportDown [k.val]
       else s.dev.capsExchange k.val f.w0 f.w1 f.w2 f.w3 rtt.toNat)) := by
  rw [exec_capabilityFrame, execCapabilityFrame, onMain_of_live hlive]
  simp [hcrc, hstate, hopen]

/-- In LOCK after a wake a frame with a good CRC says that the endpoint was reset, so CAPS will run in full (R180). -/
theorem exec_capabilityFrame_in_lock (hlive : Live s) (hcrc : capsGood f = true)
    (hstate : (s.dev.strandOf k.val).state = .lock) :
    exec (.capabilityFrame k f.w0 f.w1 f.w2 f.w3 ⟨f.crc, rtt⟩) s = .next (withDev s
      (s.dev.modStrand k.val (fun x => { x with capsKept := false }))) := by
  rw [exec_capabilityFrame, execCapabilityFrame, onMain_of_live hlive]
  simp [hcrc, hstate]

/-- In ACTIVE a frame with a good CRC says that the endpoint was reset: after DEEP the strand goes back to CAPS, else it loses the
link (R180, R187; log entry 74). -/
theorem exec_capabilityFrame_in_active (hlive : Live s) (hcrc : capsGood f = true)
    (hstate : (s.dev.strandOf k.val).state = .active) :
    exec (.capabilityFrame k f.w0 f.w1 f.w2 f.w3 ⟨f.crc, rtt⟩) s = .next (withDev s
      (if (s.dev.strandOf k.val).capsKept then
        ((s.dev.modStrand k.val (fun x => { x with capsKept := false })).enter k.val .caps 0).reportDown [k.val]
       else s.dev.linkLost [k.val])) := by
  rw [exec_capabilityFrame, execCapabilityFrame, onMain_of_live hlive]
  simp [hcrc, hstate]

/-- Settles O32: each event acts under the test for its state (symbol lock alone stands for both events of the LOCK row, log entry
199), and a capability frame by its CRC, the strand's state and what the state keeps (log entry 74). -/
theorem strandStatesMove : Obligations.StrandStatesMove := by
  refine ⟨?seen, ?tenthMiss, ?miss, ?bitLock, ?trainTimeout, ?symbolLock, ?lockTimeout, ?capsTimeout, ?lockLost, ?deep,
    ?exchange, ?badWords, ?resetInLock, ?afterDeep, ?resetInActive, ?badCrc⟩
  case seen =>
    intro s k hlive hstate hpll
    exact exec_receiverDetection_in_detect hlive hstate hpll
  case tenthMiss =>
    intro s k hlive hstate hpll htenth
    rw [exec_receiverDetection_in_detect hlive hstate hpll, if_neg Bool.false_ne_true, if_pos htenth]
  case miss =>
    intro s k hlive hstate hpll hbefore
    rw [exec_receiverDetection_in_detect hlive hstate hpll, if_neg Bool.false_ne_true, if_neg (Nat.not_le.2 hbefore)]
  case bitLock =>
    intro s k hlive hstate
    rw [exec_bitLock, execBitLock]
    exact onMain_of_test hlive (by simp [hstate])
  case trainTimeout =>
    intro s k hlive hstate
    rw [exec_trainTimeout, execTrainTimeout]
    exact onMain_of_test hlive (by simp [hstate])
  case symbolLock =>
    intro s k hlive hstate
    rw [exec_symbolLock, execSymbolLock]
    exact onMain_of_test hlive (by simp [hstate])
  case lockTimeout =>
    intro s k hlive hstate hunlocked
    rw [exec_lockTimeout, execLockTimeout]
    exact onMain_of_test hlive (by simp [hstate, hunlocked])
  case capsTimeout =>
    intro s k hlive hstate
    rw [exec_capsTimeout, execCapsTimeout]
    exact onMain_of_test hlive (by simp [hstate])
  case lockLost =>
    intro s k hlive
    rw [exec_symbolLockLost, execSymbolLockLost, onMain_of_live hlive]
  case deep =>
    intro s k hlive hstate
    rw [exec_deepSymbols, execDeepSymbols]
    exact onMain_of_test hlive (by simp [hstate])
  case exchange =>
    intro s k f rtt hlive hcrc hstate hopen hwords
    rw [exec_capabilityFrame_in_caps hlive hcrc hstate hopen, hwords, if_neg Bool.false_ne_true]
  case badWords =>
    intro s k f rtt hlive hcrc hstate hopen hwords
    rw [exec_capabilityFrame_in_caps hlive hcrc hstate hopen, if_pos hwords]
  case resetInLock =>
    intro s k f rtt hlive hcrc hstate
    exact exec_capabilityFrame_in_lock hlive hcrc hstate
  case afterDeep =>
    intro s k f rtt hlive hcrc hstate hkept
    rw [exec_capabilityFrame_in_active hlive hcrc hstate, if_pos hkept]
  case resetInActive =>
    intro s k f rtt hlive hcrc hstate hkept
    rw [exec_capabilityFrame_in_active hlive hcrc hstate, hkept, if_neg Bool.false_ne_true]
  case badCrc =>
    intro s k f rtt hlive hcrc
    exact exec_capabilityFrame_of_bad_crc hlive hcrc

end Sys2Proof.Proofs
end

section
/-!
PROOFS. Uplink frames, rest, cluster PLLs and strand supplies (R155, R156, R164, R167, R168, R175, R179, R444, R453, R463).
-/

namespace Sys2Proof.Proofs

open Sys2Proof.Machine Sys2Proof.Safety

theorem exec_uplinkFrame (k : Fin 256) (f : UplinkLine) (s : State) :
    exec (.uplinkFrame k f) s = execUplinkFrame k f s := rfl

theorem exec_restEntry (k : Fin 256) (s : State) : exec (.restEntry k) s = execRestEntry k s := rfl

theorem exec_restExit (k : Fin 256) (s : State) : exec (.restExit k) s = execRestExit k s := rfl

theorem exec_clusterPllLock (x : Fin 16) (s : State) : exec (.clusterPllLock x) s = execClusterPllLock x s := rfl

theorem exec_clusterPllUnlock (x : Fin 16) (s : State) : exec (.clusterPllUnlock x) s = execClusterPllUnlock x s := rfl

/-- A supply domain that comes on has its effect, or only its level while the main logic is held (R155, R453). -/
theorem exec_supplyDomainOn (dom : StrandSupply) (s : State) : exec (.supplyDomainOn dom) s = .next (withDev s
    (if s.dev.pwr.held then s.dev.setDomain dom true else s.dev.domainUp dom)) := rfl

/-- A supply domain that goes off has its effect, or only its level while the main logic is held (R155, R453). -/
theorem exec_supplyDomainOff (dom : StrandSupply) (s : State) : exec (.supplyDomainOff dom) s = .next (withDev s
    (if s.dev.pwr.held then s.dev.setDomain dom false else s.dev.domainOff dom)) := rfl

variable {s : State} {k : Fin 256} {f : UplinkLine} {d e : Dev} {i : Injection}

/-- The device once an uplink that no injection strikes has been timed and received (R164, R168). -/
def uplinkTaken (e : Dev) (k : Nat) (f : UplinkLine) : Dev :=
  (e.modStrand k (fun x => x.timed f.rtt)).modStrand k (fun x => { x with rx := some (received f) })

/-- An uplink that no injection strikes, without a bulk block, is timed and received (R164, R168). -/
theorem exec_uplinkFrame_without_bulk (hlive : Live s) (hactive : (s.dev.strandOf k.val).state = .active)
    (hmissed : s.dev.injectUnit (injKey 0 k.val 1) = (none, e)) (hbulk : f.bulk = none) :
    exec (.uplinkFrame k f) s = .next (withDev s (uplinkTaken e k.val f)) := by
  rw [exec_uplinkFrame, execUplinkFrame, onMain_of_live hlive]
  simp [hactive, hmissed, hbulk, uplinkTaken]

/-- An uplink that no injection strikes is timed and received, and its bulk block taken (R164, R168, R175). -/
theorem exec_uplinkFrame_with_bulk {h c : Word} {w : List Word} (hlive : Live s)
    (hactive : (s.dev.strandOf k.val).state = .active)
    (hmissed : s.dev.injectUnit (injKey 0 k.val 1) = (none, e)) (hbulk : f.bulk = some (h, w, c)) :
    exec (.uplinkFrame k f) s = .next (withDev s ((uplinkTaken e k.val f).takeBulk k.val h w c)) := by
  rw [exec_uplinkFrame, execUplinkFrame, onMain_of_live hlive]
  simp [hactive, hmissed, hbulk, uplinkTaken]

/-- A struck uplink is timed; unless the injection drops it, it is received with a bad CRC, and four or more bad code groups lose
the link (R463; log entry 201). -/
theorem exec_uplinkFrame_struck (hlive : Live s) (hactive : (s.dev.strandOf k.val).state = .active)
    (hstruck : s.dev.injectUnit (injKey 0 k.val 1) = (some i, e))
    (hd : d = (e.modStrand k.val (fun x => x.timed f.rtt)).modStrand k.val
      (fun x => { x with rx := some { received f with crcOk := false } })) :
    exec (.uplinkFrame k f) s = .next (withDev s
      (if i.action = 1 then e.modStrand k.val (fun x => x.timed f.rtt)
       else if i.action = 2 ∧ 4 ≤ i.n then d.linkLost [k.val] else d)) := by
  subst hd
  rw [exec_uplinkFrame, execUplinkFrame, onMain_of_live hlive]
  simp [hactive, hstruck]

/-- Drawing a free value leaves whether a strand carries a cut. -/
theorem strandCut_useFresh (d : Dev) (k : Nat) : d.useFresh.strandCut k = d.strandCut k := rfl

/-- A strand that may rest enters it at the next place of its line (R179). -/
theorem exec_restEntry_idle (hlive : Live s) (hactive : (s.dev.strandOf k.val).state = .active)
    (hrest : (s.dev.strandOf k.val).restDn = true) (hcaps : bit (s.dev.strandOf k.val).caps0 19 = true)
    (huncut : s.dev.strandCut k.val = false) (hmark : s.dev.markWithin k.val 1250 = false)
    (hframe : s.dev.frameWithin k.val 1250 = false) (hbulk : s.dev.bulkPending k.val = false) :
    exec (.restEntry k) s = .next (withDev s (s.dev.useFresh.modStrand k.val (fun x => { x with
      txRest := true, txLine := [.rest, .rest], txAt := x.gridFrom s.dev.tk.tickStart (64 * s.dev.now) }))) := by
  rw [exec_restEntry, execRestEntry, onMain_of_live hlive]
  simp [hactive, hrest, hcaps, huncut, hmark, hframe, hbulk, strandCut_useFresh]

/-- Settles O33: an uplink by what the injector of its strand strikes (log entry 201), rest and the cluster PLLs under the tests of
their commands, and a supply domain by whether the main logic is held. -/
theorem strandTrafficAndSupplies : Obligations.StrandTrafficAndSupplies := by
  refine ⟨?uplink, ?uplinkBulk, ?dropped, ?damaged, ?restEntry, ?restExit, ?pllLock, ?pllUnlock, ?domainOn, ?domainOff,
    ?heldOn, ?heldOff⟩
  case uplink =>
    intro s k f e hlive hactive hmissed hbulk
    exact exec_uplinkFrame_without_bulk hlive hactive hmissed hbulk
  case uplinkBulk =>
    intro s k f e h w c hlive hactive hmissed hbulk
    exact exec_uplinkFrame_with_bulk hlive hactive hmissed hbulk
  case dropped =>
    intro s k f e i hlive hactive hstruck hdrops
    rw [exec_uplinkFrame_struck hlive hactive hstruck rfl, if_pos hdrops]
  case damaged =>
    intro s k f e d i hlive hactive hstruck hkeeps hd
    rw [exec_uplinkFrame_struck hlive hactive hstruck hd, if_neg hkeeps]
  case restEntry =>
    intro s k hlive hactive hrest hcaps huncut hmark hframe hbulk
    exact exec_restEntry_idle hlive hactive hrest hcaps huncut hmark hframe hbulk
  case restExit =>
    intro s k hlive hactive hresting
    rw [exec_restExit, execRestExit]
    exact onMain_of_test hlive (by simp [hactive, hresting])
  case pllLock =>
    intro s x hlive hacquiring
    rw [exec_clusterPllLock, execClusterPllLock]
    exact onMain_of_test hlive hacquiring
  case pllUnlock =>
    intro s x d e act hlive hlocked hd hact he
    subst hd hact he
    rw [exec_clusterPllUnlock, execClusterPllUnlock]
    exact onMain_of_test hlive hlocked
  case domainOn =>
    intro s dom hlive
    rw [exec_supplyDomainOn, hlive, if_neg Bool.false_ne_true]
  case domainOff =>
    intro s dom hlive
    rw [exec_supplyDomainOff, hlive, if_neg Bool.false_ne_true]
  case heldOn =>
    intro s dom hheld
    rw [exec_supplyDomainOn, if_pos hheld]
  case heldOff =>
    intro s dom hheld
    rw [exec_supplyDomainOff, if_pos hheld]

end Sys2Proof.Proofs
end

section
/-!
PROOFS. The cut sources, and CUT (R188, R189, R190, R194, R195, R201, R458).
-/

namespace Sys2Proof.Proofs

open Sys2Proof.Machine Sys2Proof.Safety

theorem exec_cutIn (s : State) : exec .cutIn s = execCutIn s := rfl

theorem exec_cutInDeassert (s : State) : exec .cutInDeassert s =
    onMain (fun d => { d with cut := { d.cut with cutIn := false } }) s := rfl

theorem exec_plyCutIn (s : State) : exec .plyCutIn s = execPlyCutIn s := rfl

theorem exec_plyCutInDeassert (s : State) : exec .plyCutInDeassert s =
    onMain (fun d => { d with cut := { d.cut with plyCutIn := false } }) s := rfl

theorem exec_cutSymbols (k : Fin 256) (s : State) : exec (.cutSymbols k) s = execCutSymbols k s := rfl

theorem exec_strandSourceEnd (k : Fin 256) (s : State) : exec (.strandSourceEnd k) s =
    onMain (fun d => d.modStrand k.val (fun x => { x with cutSrc := false })) s := rfl

theorem exec_cutFire (m : Master) (v : Word) (s : State) : exec (.cutFire m v) s =
    onMain (fun d => d.guarded m 0 (fun d => d.cutFire (bits v 15 0))) s := rfl

theorem exec_cut (r : Req) (s : State) : exec (.cut r) s = onMain (iapin 0x0022 writes bodyCut r) s := rfl

variable {s : State} {k : Fin 256}

/-- CUT symbols fire on a strand of the part that hears them, does not assert its source yet and is under no test (R188). -/
theorem exec_cutSymbols_heard (hlive : Live s) (hpart : k.val < s.dev.strandCount)
    (hhears : (s.dev.strandOf k.val).state.hearsCut = true) (hquiet : (s.dev.strandOf k.val).cutSrc = false)
    (huntested : s.dev.underTest 0 k.val = false) :
    exec (.cutSymbols k) s = .next (withDev s
      ((s.dev.modStrand k.val (fun x => { x with cutSrc := true })).fire 1 k.val (s.dev.matrixRow k.val))) := by
  rw [exec_cutSymbols, execCutSymbols, onMain_of_live hlive]
  simp [Nat.not_le.2 hpart, hhears, hquiet, huntested]

/-- CUT symbols on a strand under test do nothing (R458). -/
theorem exec_cutSymbols_under_test (hlive : Live s) (htested : s.dev.underTest 0 k.val = true) :
    exec (.cutSymbols k) s = .next (withDev s s.dev) := by
  rw [exec_cutSymbols, execCutSymbols, onMain_of_live hlive]
  simp [htested]

/-- Settles O4: a pin by whether its source is asserted already, CUT symbols by the strand that hears them, CUT_FIRE by the
access table, CUT by its body. -/
theorem cutSourcesFireTheirRows : Obligations.CutSourcesFireTheirRows := by
  refine ⟨?cutIn, ?cutInDeassert, ?plyCutIn, ?plyCutInDeassert, ?heard, ?underTest, ?sourceEnd, ?cutFire, ?cut⟩
  case cutIn =>
    intro s hlive hquiet
    rw [exec_cutIn, execCutIn, onMain_of_live hlive, hquiet, if_neg Bool.false_ne_true]
  case cutInDeassert =>
    intro s hlive
    rw [exec_cutInDeassert, onMain_of_live hlive]
  case plyCutIn =>
    intro s hlive hquiet
    rw [exec_plyCutIn, execPlyCutIn, onMain_of_live hlive, hquiet, if_neg Bool.false_ne_true]
  case plyCutInDeassert =>
    intro s hlive
    rw [exec_plyCutInDeassert, onMain_of_live hlive]
  case heard =>
    intro s k hlive hpart hhears hquiet huntested
    exact exec_cutSymbols_heard hlive hpart hhears hquiet huntested
  case underTest =>
    intro s k hlive htested
    exact exec_cutSymbols_under_test hlive htested
  case sourceEnd =>
    intro s k hlive
    rw [exec_strandSourceEnd, onMain_of_live hlive]
  case cutFire =>
    intro s m v hwrite
    rw [exec_cutFire, onMain_guarded hwrite]
  case cut =>
    intro s r d hserved hd
    subst hd
    rw [exec_cut]
    exact onMain_iapin_served hserved rfl rfl

end Sys2Proof.Proofs
end

section
/-!
PROOFS. CUT_MATRIX, CUT_GROUP and CUT_RELEASE (R189, R190, R195, R411, R412).
-/

namespace Sys2Proof.Proofs

open Sys2Proof.Machine Sys2Proof.Safety

theorem exec_cutMatrix (r : Req) (s : State) :
    exec (.cutMatrix r) s = onMain (iapin 0x0020 readsRec bodyCutMatrix r) s := rfl

theorem exec_cutGroup (r : Req) (s : State) :
    exec (.cutGroup r) s = onMain (iapin 0x0021 readsRec bodyCutGroup r) s := rfl

theorem exec_cutRelease (r : Req) (s : State) :
    exec (.cutRelease r) s = onMain (iapin 0x0023 writes bodyCutRelease r) s := rfl

variable {r : Req} {f : RecForm} {d : Dev}

/-- Before the sequencer runs, what is done at once is answered with tick 0 (R411). -/
theorem doneNow_stopped (hrun : d.tk.seqRun = false) : d.doneNow = (.ok [0], d) := by
  simp [Dev.doneNow, Dev.nowTick, hrun]

/-- A read of a matrix row answers it (R189, R412). -/
theorem bodyCutMatrix_read (hform : recForm r 260 1 = some f) (hread : r.write = false) :
    bodyCutMatrix r d = d.say (f.readReply r [word (d.matrixRow f.index)]) := by
  simp [bodyCutMatrix, hform, hread]

/-- A write of the row of a strand that the part does not have is a bad argument (R189, R411). -/
theorem bodyCutMatrix_write_absent (hform : recForm r 260 1 = some f) (hwrite : r.write = true) (hstrand : f.index < 256)
    (habsent : d.strandCount ≤ f.index) : bodyCutMatrix r d = d.say (.badArg 2) := by
  simp [bodyCutMatrix, hform, hwrite, hstrand, habsent]

/-- A write of a row that the part has is refused while SEQ_RUN is set, and else lands at once, firing nothing (R189; log entry
170). -/
theorem bodyCutMatrix_write_present (hform : recForm r 260 1 = some f) (hwrite : r.write = true)
    (hpresent : f.index < 256 → f.index < d.strandCount) :
    bodyCutMatrix r d = if d.tk.seqRun then d.say (.wrongState 1) else
      Dev.doneNow { d with cut := { d.cut with
        matrix := tblSet 0xFFFF d.cut.matrix f.index (bits (f.wordOr 0 0) 15 0) } } := by
  have hpart : ¬ (f.index < 256 ∧ d.strandCount ≤ f.index) := by omega
  simp only [bodyCutMatrix, hform, hwrite, if_neg hpart, Bool.not_true, Bool.false_eq_true, if_false]

/-- A read of a group answers its words (R189, R412). -/
theorem bodyCutGroup_read (hform : recForm r 16 10 = some f) (hread : r.write = false) :
    bodyCutGroup r d = d.say (f.readReply r (d.groupWords f.index)) := by
  simp [bodyCutGroup, hform, hread]

/-- A write of a group is refused while SEQ_RUN is set, and else lands at once, and the targets of the cut groups follow (R189,
R190). -/
theorem bodyCutGroup_write (hform : recForm r 16 10 = some f) (hwrite : r.write = true) :
    bodyCutGroup r d = if d.tk.seqRun then d.say (.wrongState 1) else
      (Dev.regroup { d with cut := { d.cut with
        groups := tblSet {} d.cut.groups f.index ((d.groupOf f.index).write f) } }).doneNow := by
  simp [bodyCutGroup, hform, hwrite]

/-- A release of groups to which no asserted source maps waits for its boundary (R195). -/
theorem bodyCutRelease_free (hfree : d.assertedGroups &&& bits (arg r 2) 15 0 = 0) :
    bodyCutRelease r d = (.ok [if d.tk.seqRun then word (d.tk.tick + 1 + d.releaseSkip) else 0],
      { d with cut := { d.cut with
          releases := d.cut.releases ++ [(bits (arg r 2) 15 0, d.acceptedNow (b1 d.inGuard))] } }) :=
  if_neg (not_not_intro hfree)

/-- A release of a group to which an asserted source maps is refused (R195). -/
theorem bodyCutRelease_held (hheld : d.assertedGroups &&& bits (arg r 2) 15 0 ≠ 0) :
    bodyCutRelease r d = d.say (.wrongState 2) :=
  if_pos hheld

/-- Settles O5: the tables by the write bit, the strands of the part and SEQ_RUN (a matrix write fires nothing, log entry 170), the
release by the sources that are asserted. -/
theorem cutTablesAndRelease : Obligations.CutTablesAndRelease := by
  refine ⟨?rowRead, ?rowWrite, ?rowAbsent, ?rowRunning, ?groupRunning, ?groupRead, ?groupWrite, ?release, ?releaseHeld⟩
  case rowRead =>
    intro s r f hserved hread hform
    rw [exec_cutMatrix]
    exact onMain_iapin_served hserved (readsRec_of_read hread) (bodyCutMatrix_read hform hread)
  case rowWrite =>
    intro s r f hserved hwrite hform hpresent hrun
    rw [exec_cutMatrix]
    refine onMain_iapin_served hserved (readsRec_of_write hwrite) ?_
    rw [bodyCutMatrix_write_present hform hwrite hpresent, hrun, if_neg Bool.false_ne_true]
    exact doneNow_stopped hrun
  case rowAbsent =>
    intro s r f hserved hwrite hform hstrand habsent
    rw [exec_cutMatrix]
    exact onMain_iapin_served hserved (readsRec_of_write hwrite) (bodyCutMatrix_write_absent hform hwrite hstrand habsent)
  case rowRunning =>
    intro s r f hserved hwrite hform hpresent hrun
    rw [exec_cutMatrix]
    refine onMain_iapin_served hserved (readsRec_of_write hwrite) ?_
    rw [bodyCutMatrix_write_present hform hwrite hpresent, if_pos hrun, Dev.say]
  case groupRunning =>
    intro s r f hserved hwrite hform hrun
    rw [exec_cutGroup]
    refine onMain_iapin_served hserved (readsRec_of_write hwrite) ?_
    rw [bodyCutGroup_write hform hwrite, if_pos hrun, Dev.say]
  case groupRead =>
    intro s r f hserved hread hform
    rw [exec_cutGroup]
    exact onMain_iapin_served hserved (readsRec_of_read hread) (bodyCutGroup_read hform hread)
  case groupWrite =>
    intro s r f d hserved hwrite hform hrun hd
    subst hd
    rw [exec_cutGroup]
    refine onMain_iapin_served hserved (readsRec_of_write hwrite) ?_
    rw [bodyCutGroup_write hform hwrite, hrun, if_neg Bool.false_ne_true, Dev.doneNow]
  case release =>
    intro s r hserved hfree
    rw [exec_cutRelease]
    exact onMain_iapin_served hserved rfl (bodyCutRelease_free hfree)
  case releaseHeld =>
    intro s r hserved hheld
    rw [exec_cutRelease]
    exact onMain_iapin_served hserved rfl (bodyCutRelease_held hheld)

end Sys2Proof.Proofs
end

section
/-!
PROOFS. The gate drivers of the trim channels: short trips, stuck gates, bootstraps, pre-charge and ownership (R203 to R209, R257).
-/

namespace Sys2Proof.Proofs

open Sys2Proof.Machine Sys2Proof.Safety

theorem exec_shortTrip (x : Trip) (others : List Trip) (s : State) :
    exec (.shortTrip x others) s = execShortTrip x others s := rfl

theorem exec_stuck (n : Fin 32) (highWaiting : Bool) (s : State) :
    exec (.stuck n highWaiting) s = execStuck n highWaiting s := rfl

theorem exec_bstUv (n : Fin 32) (s : State) : exec (.bstUv n) s = execBstUv n s := rfl

theorem exec_bstUvRelease (n : Fin 32) (s : State) : exec (.bstUvRelease n) s = onMain (fun d =>
    d.modDrive n.val (fun t => t.bstBack d.cut.trimOwn (d.trimCut n.val) d.now)) s := rfl

theorem exec_prechargeEnd (n : Fin 32) (s : State) : exec (.prechargeEnd n) s = execPrechargeEnd n s := rfl

theorem exec_trimOwnershipTake (s : State) : exec .trimOwnershipTake s = execTrimOwnershipTake s := rfl

theorem exec_ownershipWait (s : State) : exec .ownershipWait s = execOwnershipWait s := rfl

/-- The trips of one core cycle, one for each channel, whose voltage crosses the threshold in force (R204). -/
def crossingTrips (d : Dev) (x : Trip) (others : List Trip) : List Trip :=
  (x :: others.filter (fun t => t.chan != x.chan)).filter (fun t => (d.trimOf t.chan.val).crosses d.now t.didt)

/-- Every channel of a list of trips trips (R204, R206). -/
def tripAll (d : Dev) (ts : List Trip) : Dev := ts.foldl (fun d t => d.modTrim t.chan.val (fun x => x.trip d.now)) d

/-- The occurrences of trips that leave the device d, with the lowest channel and the channels that lock out (R206, R243). -/
def tripEvents (d : Dev) (low : Nat) (locked : List Nat) : List (Nat × Word) :=
  [(0x048, pack [(9, b1 (d.trimOf low).tripHs), (8, b1 (d.trimOf low).tripBlank), (0, low)])] ++
    match locked with
    | [] => []
    | n :: _ => [(0x04B, word n)]

/-- TRIM_DUAL latches and fires its row two core cycles later (R205; log entry 79). -/
def dualFired (d : Dev) (low : Nat) : Dev :=
  (({ d with cut := { d.cut with dualTrip := true } }).advance 2).fire 2 low (d.matrixRow 256)

variable {s : State} {x y low : Trip} {others more : List Trip} {n : Fin 32} {d e : Dev}

/-- Without a voltage that crosses there is no trip (R204). -/
theorem exec_shortTrip_no_crossing (hlive : Live s) (hnone : crossingTrips s.dev x others = []) :
    exec (.shortTrip x others) s = .next (withDev s s.dev) := by
  unfold crossingTrips at hnone
  rw [exec_shortTrip, execShortTrip, onMain_of_live hlive]
  simp only [hnone]

/-- The channels that cross trip and report; two or more fire the dual-trip row (R204, R205, R206). -/
theorem exec_shortTrip_crossing (hlive : Live s) (hsome : crossingTrips s.dev x others = y :: more)
    (hlow : low = lowestTrip y (y :: more)) (hd : d = tripAll s.dev (y :: more))
    (he : e = d.events (tripEvents d low.chan.val (s.dev.lockouts (y :: more)))) :
    exec (.shortTrip x others) s = .next (withDev s (if more.isEmpty then e else dualFired e low.chan.val)) := by
  subst he hd hlow
  unfold crossingTrips at hsome
  rw [exec_shortTrip, execShortTrip, onMain_of_live hlive]
  simp only [hsome]
  rfl

/-- A single trip is the one crossing of its cycle, where it crosses (R204). -/
theorem crossingTrips_single : crossingTrips d x [] = if (d.trimOf x.chan.val).crosses d.now x.didt then [x] else [] := by
  cases hcross : (d.trimOf x.chan.val).crosses d.now x.didt <;> simp [crossingTrips, hcross]

/-- A single trip that crosses trips its channel and reports it, and the lock-out that it may bring (R204, R206). -/
theorem exec_shortTrip_single (hlive : Live s) (hcross : (s.dev.trimOf x.chan.val).crosses s.dev.now x.didt = true)
    (hd : d = s.dev.modTrim x.chan.val (fun t => t.trip s.dev.now)) :
    exec (.shortTrip x []) s = .next (withDev s (d.events (tripEvents d x.chan.val (s.dev.lockouts [x])))) := by
  have hlowest : x = lowestTrip x [x] := by simp [lowestTrip]
  exact exec_shortTrip_crossing hlive (crossingTrips_single.trans (if_pos hcross)) hlowest hd rfl

/-- A single trip locks its channel out where it is the fourth in a row and the channel is not locked out yet (R206). -/
theorem lockouts_single : d.lockouts [x] =
    if (d.trimOf x.chan.val).lockout = false ∧ 3 ≤ (d.trimOf x.chan.val).retrip then [x.chan.val] else [] := by
  have hchan : (List.range 32).filter (· == x.chan.val) = [x.chan.val] := by
    rw [List.filter_beq, List.count_eq_one_of_mem List.nodup_range (List.mem_range.2 x.chan.isLt), List.replicate_one]
  have hlocks : d.lockouts [x] = ((List.range 32).filter (· == x.chan.val)).filter (fun n =>
      !(d.trimOf n).lockout && decide (3 ≤ (d.trimOf n).retrip)) := by
    simp [Dev.lockouts, Bool.and_comm, Bool.and_assoc, Bool.beq_comm]
  rw [hlocks, hchan]
  simp [List.filter_singleton]

/-- The channels of two or more crossings trip, report and fire the dual-trip row (R205, R206; log entry 79). -/
theorem exec_shortTrip_dual {ts : List Trip} (hlive : Live s) (hts : ts = crossingTrips s.dev x others)
    (hsplit : ts = y :: more) (hmore : more ≠ []) (hlow : low = lowestTrip y ts) (hd : d = tripAll s.dev ts)
    (he : e = d.events (tripEvents d low.chan.val (s.dev.lockouts ts))) :
    exec (.shortTrip x others) s = .next (withDev s (dualFired e low.chan.val)) := by
  subst hsplit
  rw [exec_shortTrip_crossing hlive hts.symm hlow hd he, if_neg (by simp [hmore])]

/-- The end of the last pre-charge gap comes as the clock reaches it: BOOT_FAIL where the bootstrap is still low, else READY is
due (R208). -/
theorem exec_prechargeEnd_running (hlive : Live s) (hpre : (s.dev.trimOf n.val).prechg = true)
    (hd : d = s.dev.advanceUntil
      ((s.dev.trimOf n.val).preAt + 2 * (s.dev.trimOf n.val).drv.preN * (s.dev.trimOf n.val).preWidth)) :
    exec (.prechargeEnd n) s = .next (withDev s
      (if (s.dev.trimOf n.val).bstUv then
        (d.modDrive n.val (fun t => { t.endPre d.now with bootFail := true })).event 0x04D (word n.val)
       else d.modTrim n.val (fun t => { t.endPre d.now with readyDue := true }))) := by
  subst hd
  rw [exec_prechargeEnd, execPrechargeEnd, onMain_of_live hlive]
  simp only [hpre, if_true, Bool.not_true, Bool.false_eq_true, if_false]

/-- Settles O8: trips by the crossings of their cycle and the lock-outs they bring, two or more of them by the dual-trip row (log
entry 79); the other events by the test of the driver's state (a bootstrap's release by `bstBack`, log entry 169). -/
theorem trimDriverEvents : Obligations.TrimDriverEvents := by
  refine ⟨?below, ?trip, ?lockOut, ?dual, ?dualLockOut, ?stuck, ?bstUv, ?bstUvRelease, ?readyDue, ?bootFail, ?take, ?wait⟩
  case below =>
    intro s x hlive hbelow
    exact exec_shortTrip_no_crossing hlive (by rw [crossingTrips_single, hbelow, if_neg Bool.false_ne_true])
  case trip =>
    intro s x u d hlive hcross hd hu hkept
    have hnone : s.dev.lockouts [x] = [] := by
      rw [lockouts_single, if_neg]
      rintro ⟨hopen, hfourth⟩
      rcases hkept with hbefore | hlocked
      · omega
      · simp [hopen] at hlocked
    rw [exec_shortTrip_single hlive hcross hd, hnone, hu]
    rfl
  case lockOut =>
    intro s x u d hlive hcross hd hu hfourth hopen
    rw [exec_shortTrip_single hlive hcross hd, lockouts_single, if_pos ⟨hopen, hfourth⟩, hu]
    rfl
  case dual =>
    intro s x y low others ts more u d e hlive hts hsplit hmore hlow hnone hd hu he
    rw [hu] at he
    exact exec_shortTrip_dual hlive hts hsplit hmore hlow hd (by rw [hnone]; exact he)
  case dualLockOut =>
    intro s x y low others ts more n ns u d e hlive hts hsplit hmore hlow hlocked hd hu he
    rw [hu] at he
    exact exec_shortTrip_dual hlive hts hsplit hmore hlow hd (by rw [hlocked]; exact he)
  case stuck =>
    intro s n highWaiting hlive hwaits
    rw [exec_stuck, execStuck]
    exact onMain_of_test hlive hwaits
  case bstUv =>
    intro s n hlive hup
    rw [exec_bstUv, execBstUv, onMain_of_live hlive, hup, if_neg Bool.false_ne_true, Dev.bstLow]
  case bstUvRelease =>
    intro s n hlive
    rw [exec_bstUvRelease, onMain_of_live hlive]
  case readyDue =>
    intro s n d hlive hpre hup hd
    rw [exec_prechargeEnd_running hlive hpre hd, hup, if_neg Bool.false_ne_true]
  case bootFail =>
    intro s n d hlive hpre hlow hd
    rw [exec_prechargeEnd_running hlive hpre hd, if_pos hlow]
  case take =>
    intro s hlive hmember hactive hown hin
    rw [exec_trimOwnershipTake, execTrimOwnershipTake]
    exact onMain_of_test hlive (by simp [hmember, hactive, hown, hin])
  case wait =>
    intro s hlive hmember hactive hown hin hlong
    rw [exec_ownershipWait, execOwnershipWait]
    exact onMain_of_test hlive (by simp [hmember, hactive, hown, hin, hlong])

end Sys2Proof.Proofs
end

section
/-!
PROOFS. The steps of a ply member: grant, resync, claim, yield, join, transfer and the compared ticks (R209, R217, R224, R226,
R227, R230, R232, R234, R235, R237, R253, R463).
-/

namespace Sys2Proof.Proofs

open Sys2Proof.Machine Sys2Proof.Safety

theorem exec_grant (s : State) : exec .grant s = execGrant s := rfl

theorem exec_resync (s : State) : exec .resync s = execResync s := rfl

theorem exec_claim (s : State) : exec .claim s = execClaim s := rfl

theorem exec_yieldClaim (s : State) : exec .yieldClaim s = execYieldClaim s := rfl

theorem exec_plyJoin (s : State) : exec .plyJoin s = execPlyJoin s := rfl

theorem exec_xferUnit (left : Nat) (u : XferMsg) (s : State) : exec (.xferUnit left u) s = execXferUnit left u s := rfl

theorem exec_xferEnd (x : XferClose) (s : State) : exec (.xferEnd x) s = execXferEnd x s := rfl

theorem exec_xferTimeout (s : State) : exec .xferTimeout s = execXferTimeout s := rfl

theorem exec_comparedTicksDone (s : State) : exec .comparedTicksDone s = execComparedTicksDone s := rfl

/-- A grant takes effect on a fit member that is CANDIDATE without a tick clash, or STANDBY (R226, R234). -/
def grantable (d : Dev) : Bool :=
  (d.ply.pstate == .candidate && !d.ply.tickClash || d.ply.pstate == .standby) && d.fits

/-- A transfer can start anew from SHADOW and STANDBY (R226). -/
def resyncs (d : Dev) : Bool := d.ply.pstate == .shadow || d.ply.pstate == .standby

variable {s : State} {d e : Dev} {t : Nat} {h : Hello} {good : Bool} {f : Dev → Dev}

/-- A member notes a grant, and its claim is due or the grant is ignored (R234). -/
theorem exec_grant_of_member (hlive : Live s) (hmember : s.dev.isMember = true) :
    exec .grant s = .next (withDev s (s.dev.modPly (fun p =>
      { p with grantSeen := true, grantIgnored := p.grantIgnored || !grantable s.dev
               claimDue := if grantable s.dev then some s.dev.now else p.claimDue }))) := by
  rw [exec_grant, execGrant, onMain_of_live hlive, hmember]
  rfl

/-- A member notes a RESYNC, and starts its transfer anew or ignores it (R226). -/
theorem exec_resync_of_member (hlive : Live s) (hmember : s.dev.isMember = true) :
    exec .resync s = .next (withDev s (s.dev.modPly (fun p =>
      if resyncs s.dev then Ply.resync { p with resyncSeen := true, grantIgnored := p.grantIgnored || !resyncs s.dev }
      else { p with resyncSeen := true, grantIgnored := p.grantIgnored || !resyncs s.dev }))) := by
  rw [exec_resync, execResync, onMain_of_live hlive, hmember]
  rfl

/-- A claim that has been due for 1.0 µs makes a CANDIDATE or STANDBY the active, which applies its own power limit, unless its
claims are exhausted (R224, R234, R290). -/
theorem exec_claim_due (hlive : Live s) (hdue : s.dev.ply.claimDue = some t) (htime : t + 1250 ≤ s.dev.now)
    (hstate : s.dev.ply.pstate = .candidate ∨ s.dev.ply.pstate = .standby) :
    exec .claim s = .next (withDev s
      (if s.dev.becomeActive.ply.pstate = .active then s.dev.becomeActive.limitNow else s.dev.becomeActive)) := by
  rw [exec_claim, execClaim, onMain_of_live hlive]
  simp only [hdue, if_pos (And.intro htime hstate)]

/-- A CANDIDATE without a tick clash that sees an ACTIVE partner over a link that is UP: while its sequencer runs it asks for a
transfer or notes the clash, and else it starts at the partner's tick once its alignment is ready (R226, R227). -/
theorem exec_plyJoin_of_candidate (hlive : Live s) (hmember : s.dev.isMember = true)
    (hstate : s.dev.ply.pstate = .candidate) (hlink : s.dev.ply.link = .up) (hpartner : s.dev.ply.partnerActive = true)
    (hhello : s.dev.ply.hello = some h) (hclash : s.dev.ply.tickClash = false) :
    exec .plyJoin s = .next (withDev s
      (if s.dev.tk.seqRun then
        if s.dev.sameTick h then s.dev.modPly (fun p => { p with xferDue := true, xferReq := true })
        else (s.dev.modPly (fun p => { p with tickClash := true })).event 0x051 1
       else if s.dev.tk.starting.isSome then s.dev
       else if !(s.dev.adoptTick h).alignReady then s.dev.adoptTick h
       else ({ s.dev.adoptTick h with tk := { (s.dev.adoptTick h).tk with
          starting := some 0, noBank := true, startAt := (s.dev.adoptTick h).now, firstPulse := none } }).modPly
          (fun p => { p with joined := true, xferDue := true, xferReq := true }))) := by
  rw [exec_plyJoin, execPlyJoin, onMain_of_live hlive]
  simp [hmember, hstate, hlink, hpartner, hhello, hclash]

/-- A unit that an injection strikes is what the injection makes of it (R217, R463; log entry 201). -/
theorem onUnit_struck (hstruck : d.struckUnit = some e) : d.onUnit good f = e := by simp only [Dev.onUnit, hstruck]

/-- A unit that no injection strikes is taken where its UCRC holds, and else counted (R217). -/
theorem onUnit_unstruck (hfree : d.struckUnit = none) : d.onUnit good f = if good then f d else d.badUnit := by
  simp only [Dev.onUnit, hfree]

/-- Over a link that is UP a transfer unit arrives at a member (R217, R237). -/
theorem exec_xferUnit_arrives {left : Nat} {u : XferMsg} (hlive : Live s) (hmember : s.dev.isMember = true)
    (hlink : s.dev.ply.link = .up) :
    exec (.xferUnit left u) s = .next (withDev s (s.dev.onUnit u.ucrcOk (fun d =>
      if d.ply.pstate != .xfer then d
      else (d.landXfer u.unit).modPly (fun p => { p with xferLeft := left, xferAsk := false })))) := by
  rw [exec_xferUnit, execXferUnit, onMain_of_live hlive]
  simp [hmember, hlink]

/-- Over a link that is UP the end of a transfer arrives at a member (R217, R226). -/
theorem exec_xferEnd_arrives {x : XferClose} (hlive : Live s) (hmember : s.dev.isMember = true)
    (hlink : s.dev.ply.link = .up) :
    exec (.xferEnd x) s = .next (withDev s (s.dev.onUnit x.ucrcOk (fun d =>
      if d.ply.pstate != .xfer then d
      else d.modPly (fun p => if x.crcOk then { p with shadowDue := true } else { p with xferAsk := true })))) := by
  rw [exec_xferEnd, execXferEnd, onMain_of_live hlive]
  simp [hmember, hlink]

/-- In XFER the end of a transfer makes SHADOW due where the CRC of the whole transfer holds, and else asks for it again (R226,
R237). -/
theorem exec_xferEnd_in_xfer {crcOk : Bool} (hlive : Live s) (hmember : s.dev.isMember = true) (hlink : s.dev.ply.link = .up)
    (hfree : s.dev.struckUnit = none) (hxfer : s.dev.ply.pstate = .xfer) :
    exec (.xferEnd ⟨true, crcOk⟩) s = .next (withDev s
      (s.dev.modPly (fun p => if crcOk then { p with shadowDue := true } else { p with xferAsk := true }))) := by
  rw [exec_xferEnd_arrives hlive hmember hlink, onUnit_unstruck hfree]
  simp [hxfer]

/-- Settles O35: grant, RESYNC and claim by the state they find, the join by the partner's HELLO, the transfer by what an injection
strikes (log entry 201), the UCRC and the state. -/
theorem plyMemberSteps : Obligations.PlyMemberSteps := by
  refine ⟨?granted, ?grantIgnored, ?resync, ?resyncIgnored, ?claim, ?claimExhausted, ?yield, ?joinRunning, ?joinStarts,
    ?joinClash, ?unitStruck, ?endStruck, ?unitBad, ?unitLands, ?endBad, ?endWhole, ?endBroken, ?timeout, ?standby⟩
  case granted =>
    intro s hlive hmember hstate hfit
    have hgrant : grantable s.dev = true := by
      obtain ⟨hcandidate, hclash⟩ | hstandby := hstate
      · simp [grantable, hcandidate, hclash, hfit]
      · simp [grantable, hstandby, hfit]
    rw [exec_grant_of_member hlive hmember, hgrant]
    simp
  case grantIgnored =>
    intro s hlive hmember hunfit
    have hignored : grantable s.dev = false := by
      obtain hfit | ⟨hcandidate, hclash⟩ | ⟨hcandidate, hstandby⟩ := hunfit
      · simp [grantable, hfit]
      · simp [grantable, hcandidate, hclash]
      · simp [grantable, hcandidate, hstandby]
    rw [exec_grant_of_member hlive hmember, hignored]
    simp
  case resync =>
    intro s hlive hmember hstate
    have hok : resyncs s.dev = true := by
      rcases hstate with hshadow | hstandby
      · simp [resyncs, hshadow]
      · simp [resyncs, hstandby]
    rw [exec_resync_of_member hlive hmember, hok]
    simp
  case resyncIgnored =>
    intro s hlive hmember hshadow hstandby
    have hignored : resyncs s.dev = false := by simp [resyncs, hshadow, hstandby]
    rw [exec_resync_of_member hlive hmember, hignored]
    simp
  case claim =>
    intro s t hlive hdue htime hstate hactive
    rw [exec_claim_due hlive hdue htime hstate, if_pos hactive]
  case claimExhausted =>
    intro s t hlive hdue htime hstate hinactive
    rw [exec_claim_due hlive hdue htime hstate, if_neg hinactive]
  case yield =>
    intro s hlive hdue hactive
    rw [exec_yieldClaim, execYieldClaim]
    exact onMain_of_test hlive (by simp [hdue, hactive])
  case joinRunning =>
    intro s h hlive hmember hstate hlink hpartner hhello hclash hrun hsame
    rw [exec_plyJoin_of_candidate hlive hmember hstate hlink hpartner hhello hclash, if_pos hrun, if_pos hsame]
  case joinStarts =>
    intro s h d hlive hmember hstate hlink hpartner hhello hclash hrun hstart hd hready
    subst hd
    rw [exec_plyJoin_of_candidate hlive hmember hstate hlink hpartner hhello hclash]
    simp [hrun, hstart, hready]
  case joinClash =>
    intro s h hlive hmember hstate hlink hpartner hhello hclash hrun hother
    rw [exec_plyJoin_of_candidate hlive hmember hstate hlink hpartner hhello hclash, if_pos hrun, hother,
      if_neg Bool.false_ne_true]
  case unitStruck =>
    intro s left u e hlive hmember hlink hstruck
    rw [exec_xferUnit_arrives hlive hmember hlink, onUnit_struck hstruck]
  case endStruck =>
    intro s x e hlive hmember hlink hstruck
    rw [exec_xferEnd_arrives hlive hmember hlink, onUnit_struck hstruck]
  case unitBad =>
    intro s left u hlive hmember hlink hfree
    rw [exec_xferUnit_arrives hlive hmember hlink, onUnit_unstruck hfree, if_neg Bool.false_ne_true, Dev.badUnit]
  case unitLands =>
    intro s left u hlive hmember hlink hfree hxfer
    rw [exec_xferUnit_arrives hlive hmember hlink, onUnit_unstruck hfree]
    simp [hxfer]
  case endBad =>
    intro s c hlive hmember hlink hfree
    rw [exec_xferEnd_arrives hlive hmember hlink, onUnit_unstruck hfree, if_neg Bool.false_ne_true, Dev.badUnit]
  case endWhole =>
    intro s hlive hmember hlink hfree hxfer
    exact exec_xferEnd_in_xfer hlive hmember hlink hfree hxfer
  case endBroken =>
    intro s hlive hmember hlink hfree hxfer
    exact exec_xferEnd_in_xfer hlive hmember hlink hfree hxfer
  case timeout =>
    intro s hlive hxfer
    rw [exec_xferTimeout, execXferTimeout]
    exact onMain_of_test hlive (by simp [hxfer])
  case standby =>
    intro s hlive hshadow hclean
    rw [exec_comparedTicksDone, execComparedTicksDone]
    exact onMain_of_test hlive (by simp [hshadow, hclean])

end Sys2Proof.Proofs
end

section
/-!
PROOFS. The ply link from DOWN to UP, the HELLO and its loss (R214, R216, R217, R218, R226, R463, R465).
-/

namespace Sys2Proof.Proofs

open Sys2Proof.Machine Sys2Proof.Safety

theorem exec_plyLinkLock (s : State) : exec .plyLinkLock s = execPlyLinkLock s := rfl

theorem exec_plyLinkAlign (s : State) : exec .plyLinkAlign s = execPlyLinkAlign s := rfl

theorem exec_plyLinkError (s : State) : exec .plyLinkError s = execPlyLinkError s := rfl

theorem exec_plyLinkRestart (s : State) : exec .plyLinkRestart s = execPlyLinkRestart s := rfl

theorem exec_hello (h : Hello) (s : State) : exec (.hello h) s = execHello h s := rfl

theorem exec_helloTimer (s : State) : exec .helloTimer s = execHelloTimer s := rfl

theorem exec_helloAbsent (s : State) : exec .helloAbsent s = execHelloAbsent s := rfl

/-- A HELLO with a right UCRC, by the state of the link in which it arrives (R216, R218). -/
def hearHello (h : Hello) (d : Dev) : Dev :=
  match d.ply.link with
  | .align =>
    if d.sameDevice h then (d.modPly (fun p => { p with link := .up })).takeHello h
    else ((d.modPly (fun p => { p with link := .incompat })).keepHello h).event 0x051 0
  | .up => d.takeHello h
  | .incompat => d.keepHello h
  | .down | .lock => d

variable {s : State} {d : Dev} {h : Hello}

/-- In ALIGN a HELLO decides between UP and INCOMPAT (R216). -/
theorem hearHello_in_align (hlink : d.ply.link = .align) :
    hearHello h d =
      if d.sameDevice h then (d.modPly (fun p => { p with link := .up })).takeHello h
      else ((d.modPly (fun p => { p with link := .incompat })).keepHello h).event 0x051 0 := by
  simp only [hearHello, hlink]

/-- In UP a HELLO is taken (R218). -/
theorem hearHello_in_up (hlink : d.ply.link = .up) : hearHello h d = d.takeHello h := by
  simp only [hearHello, hlink]

/-- In INCOMPAT a HELLO is kept and nothing else (R216, R218). -/
theorem hearHello_in_incompat (hlink : d.ply.link = .incompat) : hearHello h d = d.keepHello h := by
  simp only [hearHello, hlink]

/-- Over a link that is not DOWN a HELLO arrives at a member (R216, R217). -/
theorem exec_hello_arrives (hlive : Live s) (hmember : s.dev.isMember = true) (hlink : s.dev.ply.link ≠ .down) :
    exec (.hello h) s = .next (withDev s (s.dev.onUnit h.ucrcOk (hearHello h))) := by
  have hhears : ¬ (!s.dev.isMember || s.dev.ply.link == .down) = true := by simp [hmember, hlink]
  rw [exec_hello, execHello, onMain_of_live hlive, if_neg hhears]
  rfl

/-- A HELLO that no injection strikes is heard where its UCRC holds (R217). -/
theorem exec_hello_heard (hlive : Live s) (hmember : s.dev.isMember = true) (hlink : s.dev.ply.link ≠ .down)
    (hfree : s.dev.struckUnit = none) (hgood : h.ucrcOk = true) :
    exec (.hello h) s = .next (withDev s (hearHello h s.dev)) := by
  rw [exec_hello_arrives hlive hmember hlink, onUnit_unstruck hfree, if_pos hgood]

/-- Without the partner's HELLO a member forgets it, and one in XFER falls back to CANDIDATE (R218, R226). -/
theorem exec_helloAbsent_live (hlive : Live s) :
    exec .helloAbsent s = .next (withDev s (s.dev.modPly (fun p =>
      if p.pstate == .xfer then Ply.toCandidate { p with hello := none } else { p with hello := none }))) := by
  rw [exec_helloAbsent, execHelloAbsent, onMain_of_live hlive]

/-- Settles O34: the events of the link and the HELLO timer by their tests, a HELLO by what an injection strikes (log entry 201), its
UCRC and the state of the link (an image is told by its version, log entry 134; an error leaves INCOMPAT too, log entry 94). -/
theorem plyLinkStates : Obligations.PlyLinkStates := by
  refine ⟨?lock, ?align, ?error, ?restart, ?same, ?other, ?up, ?incompat, ?struck, ?timer, ?bad, ?absent, ?absentXfer⟩
  case lock =>
    intro s hlive hmember hlink hfree
    rw [exec_plyLinkLock, execPlyLinkLock]
    exact onMain_of_test hlive (by simp [hmember, hlink, hfree])
  case align =>
    intro s hlive hmember hlink
    rw [exec_plyLinkAlign, execPlyLinkAlign]
    exact onMain_of_test hlive (by simp [hmember, hlink])
  case error =>
    intro s hlive hmember hlink
    rw [exec_plyLinkError, execPlyLinkError]
    exact onMain_of_test hlive (by simp [hmember, hlink])
  case restart =>
    intro s hlive hmember hlink
    rw [exec_plyLinkRestart, execPlyLinkRestart]
    exact onMain_of_test hlive (by simp [hmember, hlink])
  case same =>
    intro s h hlive hmember hfree hgood hlink hsame
    rw [exec_hello_heard hlive hmember (by simp [hlink]) hfree hgood, hearHello_in_align hlink, if_pos hsame]
  case other =>
    intro s h hlive hmember hfree hgood hlink hother
    rw [exec_hello_heard hlive hmember (by simp [hlink]) hfree hgood, hearHello_in_align hlink, hother,
      if_neg Bool.false_ne_true]
  case up =>
    intro s h hlive hmember hfree hgood hlink
    rw [exec_hello_heard hlive hmember (by simp [hlink]) hfree hgood, hearHello_in_up hlink]
  case incompat =>
    intro s h hlive hmember hfree hgood hlink
    rw [exec_hello_heard hlive hmember (by simp [hlink]) hfree hgood, hearHello_in_incompat hlink]
  case struck =>
    intro s h e hlive hmember hlink hstruck
    rw [exec_hello_arrives hlive hmember hlink, onUnit_struck hstruck]
  case timer =>
    intro s hlive hmember hrun hlink
    have hsends : (s.dev.isMember && !s.dev.tk.seqRun &&
        (s.dev.ply.link == .align || s.dev.ply.link == .up || s.dev.ply.link == .incompat)) = true := by
      rcases hlink with hlink | hlink | hlink <;> simp [hmember, hrun, hlink]
    rw [exec_helloTimer, execHelloTimer, onMain_of_live hlive, if_pos hsends, Dev.sayHello]
  case bad =>
    intro s h hlive hmember hfree hbad hlink
    rw [exec_hello_arrives hlive hmember hlink, onUnit_unstruck hfree, hbad, if_neg Bool.false_ne_true, Dev.badUnit]
  case absent =>
    intro s hlive hstate
    rw [exec_helloAbsent_live hlive]
    simp [Dev.modPly, hstate]
  case absentXfer =>
    intro s hlive hxfer
    rw [exec_helloAbsent_live hlive]
    simp [Dev.modPly, hxfer]

end Sys2Proof.Proofs
end

section
/-!
PROOFS. Ply units, the image deadline, the lockstep cores, PLY_START and CLAIM_START (R217, R219, R221, R223, R225, R226, R235,
R236, R243, R426, R463).
-/

namespace Sys2Proof.Proofs

open Sys2Proof.Machine Sys2Proof.Safety

theorem exec_plyUnit (u : PlyRx) (s : State) : exec (.plyUnit u) s = execPlyUnit u s := rfl

theorem exec_imageDeadline (s : State) : exec .imageDeadline s = execImageDeadline s := rfl

theorem exec_lockstepMismatch (pc : Word) (s : State) : exec (.lockstepMismatch pc) s = execLockstepMismatch pc s := rfl

theorem exec_plyStart (r : Req) (s : State) : exec (.plyStart r) s = onMain (iapin 0x0401 writes bodyPlyStart r) s := rfl

theorem exec_claimStart (r : Req) (s : State) :
    exec (.claimStart r) s = onMain (iapin 0x0402 writes bodyClaimStart r) s := rfl

variable {s : State} {u : PlyRx} {r : Req} {d : Dev}

/-- Over a link that is UP a unit of the image arrives at a member, and acts on one that gathers images (R217, R219, R226). -/
theorem exec_plyUnit_arrives (hlive : Live s) (hmember : s.dev.isMember = true) (hlink : s.dev.ply.link = .up) :
    exec (.plyUnit u) s = .next (withDev s (s.dev.onUnit (goodUnit u) (fun d =>
      if d.ply.receives && d.tk.seqRun then d.plyUnit u else d))) := by
  have hhears : ¬ (!s.dev.isMember || s.dev.ply.link != .up) = true := by simp [hmember, hlink]
  rw [exec_plyUnit, execPlyUnit, onMain_of_live hlive, if_neg hhears]

/-- PLY_START of a member in INIT makes it CANDIDATE (R226, R426). -/
theorem bodyPlyStart_in_init (hmember : d.isMember = true) (hinit : d.ply.pstate = .init) :
    bodyPlyStart r d = (d.modPly (fun p => { p with pstate := .candidate })).doneNow := by
  simp [bodyPlyStart, hmember, hinit]

/-- CLAIM_START of a single device that holds no claim and awaits none (R225, R426). -/
theorem bodyClaimStart_unclaimed (hrole : d.ply.role = .single) (hheld : d.ply.held = none) (hfirst : d.ply.claimStart = false) :
    bodyClaimStart r d = (.ok [d.landTick], d.modPly (fun p => { p with claimStart := true })) := by
  simp [bodyClaimStart, hrole, hheld, hfirst]

/-- Settles O36: a unit by what an injection strikes (log entry 201), its UCRC and the member's state, the deadline by its test, the
two commands by their bodies. -/
theorem plyUnitsAndStarts : Obligations.PlyUnitsAndStarts := by
  refine ⟨?struck, ?bad, ?acts, ?deadline, ?lockstep, ?plyStart, ?claimStart⟩
  case struck =>
    intro s u e hlive hmember hlink hstruck
    rw [exec_plyUnit_arrives hlive hmember hlink, onUnit_struck hstruck]
  case bad =>
    intro s u hlive hmember hlink hfree hbad
    rw [exec_plyUnit_arrives hlive hmember hlink, onUnit_unstruck hfree, hbad, if_neg Bool.false_ne_true, Dev.badUnit]
  case acts =>
    intro s u hlive hmember hlink hfree hgood hreceives hrun
    have hgathers : (s.dev.ply.receives && s.dev.tk.seqRun) = true := by simp [hreceives, hrun]
    rw [exec_plyUnit_arrives hlive hmember hlink, onUnit_unstruck hfree, if_pos hgood, if_pos hgathers]
  case deadline =>
    intro s hlive hmember hreceives hrun hopen
    rw [exec_imageDeadline, execImageDeadline]
    exact onMain_of_test hlive (by simp [Dev.toJudge, hmember, hreceives, hrun, hopen])
  case lockstep =>
    intro s pc hlive
    rw [exec_lockstepMismatch, execLockstepMismatch, onMain_of_live hlive]
  case plyStart =>
    intro s r d hserved hmember hinit hd
    subst hd
    rw [exec_plyStart]
    exact onMain_iapin_served hserved rfl (bodyPlyStart_in_init hmember hinit)
  case claimStart =>
    intro s r hserved hrole hheld hfirst
    rw [exec_claimStart]
    exact onMain_iapin_served hserved rfl (bodyClaimStart_unclaimed hrole hheld hfirst)

end Sys2Proof.Proofs
end

section
/-!
PROOFS. The referee: its commands and what it sees of each member (R228, R229, R231 to R233, R426).
-/

namespace Sys2Proof.Proofs

open Sys2Proof.Machine Sys2Proof.Safety

theorem exec_refereeTick (r : Req) (s : State) :
    exec (.refereeTick r) s = onMain (iapin 0x0403 writes bodyRefereeTick r) s := rfl

theorem exec_refereeStart (r : Req) (s : State) :
    exec (.refereeStart r) s = onMain (iapin 0x0404 writes bodyRefereeStart r) s := rfl

theorem exec_aliveEdge (mem : Member) (s : State) : exec (.aliveEdge mem) s = execAliveEdge mem s := rfl

theorem exec_aliveOkLost (mem : Member) (s : State) : exec (.aliveOkLost mem) s = execAliveOkLost mem s := rfl

theorem exec_reportOkLost (mem : Member) (s : State) : exec (.reportOkLost mem) s = execReportOkLost mem s := rfl

theorem exec_healthReportReceived (mem : Member) (w0 w1 w2 w3 : Word) (s : State) :
    exec (.healthReportReceived mem w0 w1 w2 w3) s = execHealthReportReceived mem w0 w1 w2 w3 s := rfl

theorem exec_grantHoldoffExpiry (s : State) : exec .grantHoldoffExpiry s = execGrantHoldoffExpiry s := rfl

variable {s : State} {r : Req} {d : Dev} {mem : Member} {w0 w1 w2 w3 : Word}

/-- A tick length in range before the referee runs is its tick length at once (R426). -/
theorem bodyRefereeTick_in_range (hrole : d.ply.role = .referee) (hidle : d.ref.run = false) (hlo : 781 ≤ (arg r 2).toNat)
    (hhi : (arg r 2).toNat ≤ 6249) :
    bodyRefereeTick r d = (d.modRef (fun x => { x with tickSteps := (arg r 2).toNat })).doneNow := by
  have hrange : ¬ ((arg r 2).toNat < 781 ∨ 6249 < (arg r 2).toNat) := by omega
  have htaken : ¬ (d.ply.role != .referee || d.ref.run) = true := by simp [hrole, hidle]
  simp only [bodyRefereeTick, if_neg htaken, if_neg hrange]

/-- REFEREE_START starts a device of the referee role (R233). -/
theorem bodyRefereeStart_of_referee (hrole : d.ply.role = .referee) :
    bodyRefereeStart r d = (d.modRef (fun x => { x with run := true })).doneNow := by
  simp [bodyRefereeStart, hrole]

/-- A health report changes the referee's view of its member where its HCRC holds, and else nothing (R231, R233). -/
theorem exec_healthReportReceived_live (hlive : Live s) :
    exec (.healthReportReceived mem w0 w1 w2 w3) s = .next (withDev s
      (if bits w3 31 16 ≠ healthCrc w0 w1 w2 w3 then s.dev
       else s.dev.refereeActs (fun x => x.modView mem (fun v =>
        { v with reportOk := true, report := some [w0, w1, w2, w3]
                 candidateRun := if bits w2 29 27 = 1 then v.candidateRun + 1 else 0 })))) := by
  rw [exec_healthReportReceived, execHealthReportReceived, onMain_of_live hlive]

/-- Settles O37: the two commands by their bodies, a report by its HCRC, and each other event by its one change of the referee's
view. -/
theorem refereeSteps : Obligations.RefereeSteps := by
  refine ⟨?tick, ?start, ?alive, ?aliveLost, ?reportLost, ?report, ?reportBad, ?holdoff⟩
  case tick =>
    intro s r d hserved hrole hidle hlo hhi hd
    subst hd
    rw [exec_refereeTick]
    exact onMain_iapin_served hserved rfl (bodyRefereeTick_in_range hrole hidle hlo hhi)
  case start =>
    intro s r d hserved hrole hd
    subst hd
    rw [exec_refereeStart]
    exact onMain_iapin_served hserved rfl (bodyRefereeStart_of_referee hrole)
  case alive =>
    intro s mem hlive
    rw [exec_aliveEdge, execAliveEdge, onMain_of_live hlive]
  case aliveLost =>
    intro s mem hlive
    rw [exec_aliveOkLost, execAliveOkLost, onMain_of_live hlive]
  case reportLost =>
    intro s mem hlive
    rw [exec_reportOkLost, execReportOkLost, onMain_of_live hlive]
  case report =>
    intro s mem w0 w1 w2 w3 hlive hcrc
    rw [exec_healthReportReceived_live hlive, if_neg (not_not_intro hcrc)]
  case reportBad =>
    intro s mem w0 w1 w2 w3 hlive hcrc
    rw [exec_healthReportReceived_live hlive, if_pos hcrc]
  case holdoff =>
    intro s hlive
    rw [exec_grantHoldoffExpiry, execGrantHoldoffExpiry, onMain_of_live hlive]

end Sys2Proof.Proofs
end

section
/-!
PROOFS. The accesses of the fault collector (R241, R248, R249, R252, R256), the hank's entry (R250), the watchdog (R243, R439) and
the thermal ticks (R282, R286, R289).
-/

namespace Sys2Proof.Proofs

open Sys2Proof.Machine Sys2Proof.Safety

theorem exec_statusClear (m : Master) (w : Fin 16) (v : Word) (s : State) : exec (.statusClear m w v) s = onMain (fun d =>
    d.guarded m 1 (fun d => forEach (maskBits 32 v.toNat) (fun b d => d.clearStatus (32 * w.val + b)) d)) s := rfl

theorem exec_hankAck (m : Master) (v : Word) (s : State) :
    exec (.hankAck m v) s = onMain (fun d => d.guarded m 1 (fun d => d.ackHank (bits v 31 16))) s := rfl

theorem exec_feValidClear (m : Master) (v : Word) (s : State) : exec (.feValidClear m v) s = onMain (fun d =>
    d.guarded m 1 (fun d => if bit v 31 then { d with flt := { d.flt with fe := none } } else d)) s := rfl

theorem exec_hankEntry (s : State) : exec .hankEntry s = onMain Dev.hankStep s := rfl

theorem exec_watchdogExpiry (s : State) : exec .watchdogExpiry s = onMain (fun d =>
    { d with pwr := { d.pwr with wdogAt := some d.now } }.event 0x0C0 0) s := rfl

theorem exec_thermalStepTick (s : State) : exec .thermalStepTick s = execThermalStepTick s := rfl

theorem exec_sensorSample (readings : List Int) (s : State) :
    exec (.sensorSample readings) s = execSensorSample readings s := rfl

variable {s : State} {d : Dev} {x : HankRec} {rest : List HankRec}

/-- The head of a hank queue that is not empty takes the next sequence number and its slot (R249, R250). -/
theorem hankStep_of_queue (hqueue : d.flt.queue = x :: rest) :
    d.hankStep = { d with flt := { d.flt with
      queue := rest, lastSeq := (d.flt.lastSeq + 1) % 65536
      slots := tblSet {} d.flt.slots ((d.flt.lastSeq + 1) % 65536 % 32) { x with seq := (d.flt.lastSeq + 1) % 65536 }
      hankOvf := if 32 ≤ d.flt.hankCount then satInc 16 d.flt.hankOvf else d.flt.hankOvf
      hankCount := min 32 (d.flt.hankCount + 1) } } := by
  simp only [Dev.hankStep, hqueue]

/-- No sensor calls for shutdown while none has two samples in a row over the limit (R289). -/
theorem find?_overRun_eq_none (hcool : ∀ i < 16, (tblGet {} d.therm.sensors i).overRun < 2) :
    (List.range 16).find? (fun i => decide (2 ≤ (tblGet {} d.therm.sensors i).overRun)) = none := by
  simpa using hcool

/-- Settles O3: the accesses by the access table, the hank's entry by the head of its queue, a step tick by its test and a sample
by the first sensor that calls for shutdown. -/
theorem faultAccessesAct : Obligations.FaultAccessesAct := by
  refine ⟨?statusClear, ?hankAck, ?feValid, ?hankEntry, ?watchdog, ?stepTick, ?sample, ?shutdown⟩
  case statusClear =>
    intro s m w v hwrite
    rw [exec_statusClear, onMain_guarded hwrite]
  case hankAck =>
    intro s m v left hwrite hleft
    subst hleft
    rw [exec_hankAck, onMain_guarded hwrite, Dev.ackHank]
  case feValid =>
    intro s m v hwrite
    rw [exec_feValidClear, onMain_guarded hwrite]
  case hankEntry =>
    intro s x rest q hlive hqueue hq
    subst hq
    rw [exec_hankEntry, onMain_of_live hlive, hankStep_of_queue hqueue]
  case watchdog =>
    intro s hlive
    rw [exec_watchdogExpiry, onMain_of_live hlive]
  case stepTick =>
    intro s hlive htick
    rw [exec_thermalStepTick, execThermalStepTick]
    exact onMain_of_test hlive htick
  case sample =>
    intro s readings hlive hrunning hcool
    rw [exec_sensorSample, execSensorSample, onMain_of_live hlive]
    simp only [hrunning, find?_overRun_eq_none hcool, Bool.false_eq_true, if_false]
  case shutdown =>
    intro s readings n hlive hrunning hfirst
    rw [exec_sensorSample, execSensorSample, onMain_of_live hlive]
    simp only [hrunning, hfirst, Bool.false_eq_true, if_false]

end Sys2Proof.Proofs
end

section
/-!
PROOFS. The five steps of a mailbox channel (R257, R399 to R403, R408, R431, R432).
-/

namespace Sys2Proof.Proofs

open Sys2Proof.Machine Sys2Proof.Safety

theorem exec_goPost (m : Master) (ch : Fin 32) (s : State) :
    exec (.goPost m ch) s = onMain (fun d => d.boxWrite m ch.val Chan.reqId (fun d => d.post ch.val)) s := rfl

theorem exec_goWithdraw (m : Master) (ch : Fin 32) (s : State) :
    exec (.goWithdraw m ch) s = onMain (fun d => d.boxWrite m ch.val Chan.reqId (fun d => d.withdraw ch.val)) s := rfl

theorem exec_pick (m : Master) (ch : Fin 32) (s : State) :
    exec (.pick m ch) s = onMain (fun d => d.boxWrite m ch.val Chan.rspId (fun d => d.pickUp ch.val)) s := rfl

theorem exec_land (m : Master) (ch : Fin 32) (s : State) :
    exec (.land m ch) s = onMain (fun d => d.boxWrite m ch.val Chan.rspId (fun d => d.landed ch.val)) s := rfl

theorem exec_doneSet (m : Master) (ch : Fin 32) (s : State) :
    exec (.doneSet m ch) s = onMain (fun d => d.boxWrite m ch.val Chan.rspId (fun d => d.complete ch.val)) s := rfl

/-- A channel whose requester posts a message at core cycle `now` (R402). -/
def postedChan (now : Nat) (c : Chan) : Chan :=
  { c with prevRep := c.rep, go := true, goAt := now, seq := (c.seq + 1) % 65536
           done := false, withdrawn := false, disc := false }

variable {s : State} {d : Dev} {m : Master} {ch : Fin 32} {n : Nat} {side : Chan → Nat} {f : Dev → Dev}

/-- A mailbox write by the identity that the locked binding gives that side acts (R397 to R399). -/
theorem onMain_boxWrite (hside : BoxSide m ch side s) :
    onMain (fun d => d.boxWrite m ch.val side f) s = .next (withDev s (f s.dev)) := by
  obtain ⟨hlive, hawake, hlocked, hvalid, hid⟩ := hside
  have hacts : s.dev.boxWrite m ch.val side f = f s.dev := by simp [Dev.boxWrite, hawake, hlocked, hvalid, hid]
  rw [onMain_of_live hlive, hacts]

/-- The identity that the locked binding gives the writer's side (R398). -/
theorem boxSide_id (hside : BoxSide m ch side s) : side (s.dev.boxOf ch.val) = masterId m := by
  obtain ⟨_, _, _, _, hid⟩ := hside
  exact hid

/-- A message leaves the fault collector alone and takes no time (R409). -/
theorem message_flt_now (d : Dev) (id b : Nat) : (d.message id b).flt = d.flt ∧ (d.message id b).now = d.now := by
  unfold Dev.message
  split
  · exact ⟨rfl, rfl⟩
  · split <;> exact ⟨rfl, rfl⟩

/-- A cause set at an identity leaves the fault collector alone and takes no time (R408). -/
theorem raise_flt_now (d : Dev) (id b : Nat) : (d.raise id b).flt = d.flt ∧ (d.raise id b).now = d.now := by
  dsimp only [Dev.raise]
  split
  · exact ⟨rfl, rfl⟩
  · exact message_flt_now _ id b

/-- A post does not move the first core cycle of a discard (R257). -/
theorem discardOpen_post (d : Dev) (n id b : Nat) (g : Chan → Chan) :
    ((d.modBox n g).raise id b).discardOpen = d.discardOpen := by
  obtain ⟨hflt, hnow⟩ := raise_flt_now (d.modBox n g) id b
  simp only [Dev.discardOpen, hflt, hnow, Dev.modBox_flt, Dev.modBox_now]

/-- A post on an idle channel sets GO and the responder's cause, and goes with an open discard (R257, R402). -/
theorem post_of_idle (hidle : (d.boxOf n).go = false) :
    d.post n =
      if d.discardOpen then ((d.modBox n (postedChan d.now)).raise (d.boxOf n).rspId 2).discardBox n
      else (d.modBox n (postedChan d.now)).raise (d.boxOf n).rspId 2 := by
  rw [← discardOpen_post d n (d.boxOf n).rspId 2 (postedChan d.now)]
  simp only [Dev.post, hidle, Bool.false_eq_true, if_false]
  rfl

/-- A post while GO is set changes nothing (R402). -/
theorem post_of_busy (hbusy : (d.boxOf n).go = true) : d.post n = d := by simp [Dev.post, hbusy]

/-- The withdrawal of a message is in time before its pickup and late after it (R402). -/
theorem withdraw_of_busy (hbusy : (d.boxOf n).go = true) :
    d.withdraw n =
      if (d.boxOf n).picked then d.modBox n (fun c => { c with wdLate := true })
      else d.modBox n (fun c => { c with go := false, withdrawn := true }) := by
  simp [Dev.withdraw, hbusy]

/-- On an idle channel there is nothing to withdraw (R402). -/
theorem withdraw_of_idle (hidle : (d.boxOf n).go = false) : d.withdraw n = d := by simp [Dev.withdraw, hidle]

/-- A responder other than the management processor picks a waiting message up at once (R402). -/
theorem pickUp_of_host (hbusy : (d.boxOf n).go = true) (hwaits : (d.boxOf n).picked = false)
    (hhost : (d.boxOf n).rspId ≠ 0x20) : d.pickUp n = d.modBox n Chan.pick := by
  simp [Dev.pickUp, hbusy, hwaits, hhost]

/-- The management processor picks up in its order, and answers a message of no command in the same step (R431; log entry 37). -/
theorem pickUp_in_turn (hbusy : (d.boxOf ch.val).go = true) (hwaits : (d.boxOf ch.val).picked = false)
    (hmgmt : (d.boxOf ch.val).rspId = 0x20) (hturn : d.hasTurn ch.val = true) :
    d.pickUp ch.val = (d.modBox ch.val Chan.pick).turnAway ch := by
  simp [Dev.pickUp, hbusy, hwaits, hmgmt, hturn]

/-- The management processor leaves a channel whose turn has not come (R431). -/
theorem pickUp_out_of_turn (hmgmt : (d.boxOf n).rspId = 0x20) (hturn : d.hasTurn n = false) : d.pickUp n = d := by
  simp [Dev.pickUp, hmgmt, hturn]

/-- Without a message that waits there is nothing to pick up (R402). -/
theorem pickUp_without_message (hnone : (d.boxOf n).go = false ∨ (d.boxOf n).picked = true) : d.pickUp n = d := by
  rcases hnone with h | h <;> simp [Dev.pickUp, h]

/-- Settles O10: each step acts for the side that the binding names, by the state of its channel (R431's order, log entries 37
and 207 included). -/
theorem mailboxProtocolSteps : Obligations.MailboxProtocolSteps := by
  refine ⟨?post, ?postDiscarded, ?withdraw, ?withdrawLate, ?pick, ?pickInTurn, ?pickOutOfTurn, ?land, ?done, ?postBusy,
    ?withdrawIdle, ?pickNone, ?landNone, ?doneNone⟩
  case post =>
    intro s m ch hside hidle hopen
    rw [exec_goPost, onMain_boxWrite hside, post_of_idle hidle, hopen]
    rfl
  case postDiscarded =>
    intro s m ch hside hidle hopen
    rw [exec_goPost, onMain_boxWrite hside, post_of_idle hidle, hopen]
    rfl
  case withdraw =>
    intro s m ch hside hbusy hwaits
    rw [exec_goWithdraw, onMain_boxWrite hside, withdraw_of_busy hbusy, hwaits, if_neg Bool.false_ne_true]
  case withdrawLate =>
    intro s m ch hside hbusy hpicked
    rw [exec_goWithdraw, onMain_boxWrite hside, withdraw_of_busy hbusy, if_pos hpicked]
  case pick =>
    intro s m ch hside hbusy hwaits hhost
    rw [exec_pick, onMain_boxWrite hside, pickUp_of_host hbusy hwaits (boxSide_id hside ▸ hhost)]
    rfl
  case pickInTurn =>
    intro s m ch hside hbusy hwaits hmgmt hturn
    rw [exec_pick, onMain_boxWrite hside, pickUp_in_turn hbusy hwaits ((boxSide_id hside).trans hmgmt) hturn]
    rfl
  case pickOutOfTurn =>
    intro s m ch hside hmgmt hturn
    rw [exec_pick, onMain_boxWrite hside, pickUp_out_of_turn ((boxSide_id hside).trans hmgmt) hturn]
  case land =>
    intro s m ch hside hbusy hpicked hopen howes
    rw [exec_land, onMain_boxWrite hside, Dev.landed, if_pos (by simp [hbusy, hpicked, hopen, howes])]
  case done =>
    intro s m ch hside hbusy hpicked howes
    rw [exec_doneSet, onMain_boxWrite hside, Dev.complete, if_pos (by simp [hbusy, hpicked, howes])]
  case postBusy =>
    intro s m ch hside hbusy
    rw [exec_goPost, onMain_boxWrite hside, post_of_busy hbusy]
  case withdrawIdle =>
    intro s m ch hside hidle
    rw [exec_goWithdraw, onMain_boxWrite hside, withdraw_of_idle hidle]
  case pickNone =>
    intro s m ch hside hnone
    rw [exec_pick, onMain_boxWrite hside, pickUp_without_message hnone]
  case landNone =>
    intro s m ch hside hnone
    rw [exec_land, onMain_boxWrite hside, Dev.landed, if_neg (by rcases hnone with h | h | h | h <;> simp [h])]
  case doneNone =>
    intro s m ch hside hnone
    rw [exec_doneSet, onMain_boxWrite hside, Dev.complete, if_neg (by rcases hnone with h | h | h <;> simp [h])]

end Sys2Proof.Proofs
end

section
/-!
PROOFS. The states of the PLLs: lock, unlock, loss and return of the reference (R243, R328, R333, R334, R335, R442).
-/

namespace Sys2Proof.Proofs

open Sys2Proof.Machine Sys2Proof.Safety

theorem exec_pllLocked (p : PllId) (s : State) : exec (.pllLocked p) s = execPllLocked p s := rfl

theorem exec_lockClear (p : PllId) (s : State) : exec (.lockClear p) s = execLockClear p s := rfl

theorem exec_acquireTimeout (p : PllId) (s : State) : exec (.acquireTimeout p) s = execAcquireTimeout p s := rfl

theorem exec_refLost (s : State) : exec .refLost s = execRefLost s := rfl

theorem exec_refValid (errA errB : Int) (s : State) : exec (.refValid errA errB) s = execRefValid errA errB s := rfl

theorem exec_returnSlewEnd (p : PllId) (s : State) : exec (.returnSlewEnd p) s = execReturnSlewEnd p s := rfl

/-- The two PLLs with their reference valid again (R333, R335). -/
def refsBack (d : Dev) (errA errB : Int) : Dev :=
  { d with clk := { d.clk with
    pllA := d.clk.pllA.refBack d.cfg.refHz errA, pllB := d.clk.pllB.refBack d.cfg.refHz errB } }

/-- What follows the reference's return, where `outA` and `outB` say which PLL builds its phase out: a build-out locks its PLL, a
PLL in OFF starts, and the first build-out is reported (R333, R335). -/
def afterReturn (outA outB : Bool) (errA errB : Int) (d : Dev) : Dev :=
  let d := if outA then d.lockPll .a else d
  let d := if outB then d.lockPll .b else d
  let d := (d.startPll .a).startPll .b
  if outA then d.event 0x063 (sword (satI 32 errA)) else if outB then d.event 0x063 (sword (satI 32 errB)) else d

variable {s : State} {d : Dev} {p : PllId} {errA errB : Int}

/-- A PLL locks without touching the boot stage (R333). -/
theorem toLocked_bootStage (d : Dev) (p : PllId) :
    ((d.firstLock p).modPll p Pll.toLocked).host.bootStage = d.host.bootStage := by
  cases p <;> simp only [Dev.firstLock, Dev.modPll] <;> split <;> rfl

/-- A lock of PLL_B, or after boot stage 0, ends no stage (R333, R442). -/
theorem lockPll_of_booted (hbooted : p = .b ∨ d.host.bootStage ≠ 0) :
    d.lockPll p = (d.firstLock p).modPll p Pll.toLocked := by
  have hstays : ¬ (p = .a ∧ d.host.bootStage = 0) := by rcases hbooted with h | h <;> simp [h]
  simp only [Dev.lockPll, toLocked_bootStage, if_neg hstays]

/-- The first lock of PLL_A ends boot stage 0 (R442). -/
theorem lockPll_first (hfirst : d.host.bootStage = 0) :
    d.lockPll .a = ((d.firstLock .a).modPll .a Pll.toLocked).setStage 1 := by
  simp [Dev.lockPll, toLocked_bootStage, hfirst]

/-- A lock event in ACQUIRE locks its PLL (R333). -/
theorem exec_pllLocked_in_acquire (hlive : Live s) (hstate : (s.dev.pll p).state = .acquire) :
    exec (.pllLocked p) s = .next (withDev s (s.dev.lockPll p)) := by
  rw [exec_pllLocked, execPllLocked]
  exact onMain_of_test hlive (by simp [hstate])

/-- A returned reference is valid at both PLLs, and the build-outs follow from the phase errors (R333, R335). -/
theorem exec_refValid_live (hlive : Live s) :
    exec (.refValid errA errB) s = .next (withDev s (afterReturn (s.dev.clk.pllA.buildsOut s.dev.cfg.refHz errA)
      (s.dev.clk.pllB.buildsOut s.dev.cfg.refHz errB) errA errB (refsBack s.dev errA errB))) := by
  have hrun : ¬ (refsBack s.dev errA errB).pwr.held = true := by simp [refsBack, hlive]
  exact congrArg (fun d => Host.Outcome.next (withDev s d)) (if_neg hrun)

/-- Settles O19: a lock by the boot stage, LOCK's loss by the state and the reference, and the reference's return by which PLL
builds its phase out (the slew's end as log entry 206 counts it). -/
theorem pllStatesMove : Obligations.PllStatesMove := by
  refine ⟨?locked, ?firstLocked, ?unlocked, ?timeout, ?clear, ?lost, ?slewed, ?builtA, ?builtB, ?slewEnd, ?slewing⟩
  case locked =>
    intro s p hlive hstate hbooted
    rw [exec_pllLocked_in_acquire hlive hstate, lockPll_of_booted hbooted]
  case firstLocked =>
    intro s d hlive hstate hfirst hd
    subst hd
    rw [exec_pllLocked_in_acquire (p := .a) hlive hstate, lockPll_first hfirst]
  case unlocked =>
    intro s p hlive hstate href
    rw [exec_lockClear, execLockClear, onMain_of_live hlive]
    simp [hstate, href]
  case timeout =>
    intro s p hlive hstate hever
    rw [exec_acquireTimeout, execAcquireTimeout]
    exact onMain_of_test hlive (by simp [hstate, hever])
  case clear =>
    intro s p hlive hstate
    rw [exec_lockClear, execLockClear, onMain_of_live hlive]
    rcases hstate with h | h <;> simp [h]
  case lost =>
    intro s d hd
    subst hd
    rw [exec_refLost]
    rfl
  case slewed =>
    intro s errA errB hz c hlive hhz hc hslewsA hslewsB
    subst hhz
    rw [exec_refValid_live hlive, hslewsA, hslewsB, refsBack, ← hc]
    simp only [afterReturn, Bool.false_eq_true, if_false]
  case builtA =>
    intro s errA errB hz c hlive hhz hc hbuildsA hslewsB
    subst hhz
    rw [exec_refValid_live hlive, hbuildsA, hslewsB, refsBack, ← hc]
    simp only [afterReturn, if_true, Bool.false_eq_true, if_false]
  case builtB =>
    intro s errA errB hz c hlive hhz hc hslewsA hbuildsB
    subst hhz
    rw [exec_refValid_live hlive, hslewsA, hbuildsB, refsBack, ← hc]
    simp only [afterReturn, if_true, Bool.false_eq_true, if_false]
  case slewEnd =>
    intro s p hlive hstate hback hsmall
    rw [exec_returnSlewEnd, execReturnSlewEnd]
    exact onMain_of_test hlive (by simp [Dev.slewDone, hstate, hback, hsmall])
  case slewing =>
    intro s p hlive hopen
    have hmore : s.dev.slewDone p = false := by
      rcases hopen with h | h <;> simp [Dev.slewDone, h]
    rw [exec_returnSlewEnd, execReturnSlewEnd, onMain_of_live hlive, hmore]
    simp

end Sys2Proof.Proofs
end

section
/-!
PROOFS. A step and the command at the front of its queue (R12, R405), the queue that a command leaves alone (R405), and the held main
logic (R436, R451).
-/

namespace Sys2Proof.Proofs

open Sys2Proof.Machine Sys2Proof.Safety

/-- Every command answers a next state, and the queue of that state is the one it was given (R405). -/
theorem exec_next (c : Instr) (s : State) : ∃ d, exec c s = .next (withDev s d) := by
  cases c
  all_goals exact ⟨_, rfl⟩

/-- A command outside the list of `runsHeld` is one of the main logic: it leaves a held device as it is (R436, R451). -/
theorem exec_of_main {c : Instr} (hmain : runsHeld c = false) (s : State) :
    ∃ d, exec c s = .next (withDev s (if s.dev.pwr.held then s.dev else d)) := by
  cases c
  all_goals cases hmain
  all_goals exact ⟨_, rfl⟩

/-- Settles O47: a step takes the command at the queue's front, and with an empty queue lets one core cycle pass (log entry 1). -/
theorem stepRunsFrontCommand : Obligations.StepRunsFrontCommand := by
  refine ⟨?front, ?empty⟩
  case front =>
    intro s c rest hqueue
    simp only [step, hqueue]
  case empty =>
    intro s hqueue
    simp only [step, hqueue, withDev]

/-- Settles O50: a command answers the queue that it was given (`exec_next`). -/
theorem commandsLeaveTheQueue : Obligations.CommandsLeaveTheQueue := by
  unfold Obligations.CommandsLeaveTheQueue
  intro c s t hexec
  obtain ⟨d, hnext⟩ := exec_next c s
  cases hnext.symm.trans hexec
  rfl

/-- Settles O51: outside the list every command is one of the main logic (`exec_of_main`). -/
theorem heldMainLogicIsInert : Obligations.HeldMainLogicIsInert := by
  unfold Obligations.HeldMainLogicIsInert
  intro c s hheld hmain
  obtain ⟨d, hnext⟩ := exec_of_main hmain s
  rw [hnext, if_pos hheld]
  rfl

end Sys2Proof.Proofs
end

section
/-!
PROOFS. QUERY, and what becomes of a request that the firmware does not carry out: refused, repeated, not ready for, or not the one
on its channel (R389, R398, R402, R410, R413, R414, R417, R430, R431).
-/

namespace Sys2Proof.Proofs

open Sys2Proof.Machine Sys2Proof.Safety

variable {c : Instr} {s : State} {op : Nat} {read : Bool} {r : Req}

theorem exec_query (r : Req) (s : State) : exec (.query r) s = onMain (iapin 0x0002 reads bodyQuery r) s := rfl

/-- Settles O46: the three answers by the kept command that the TAG names and by its state. -/
theorem queryReply : Obligations.QueryReply := by
  refine ⟨?unknown, ?running, ?complete⟩
  case unknown =>
    intro s r hserved hnamed
    rw [exec_query]
    exact onMain_iapin_served hserved rfl (by simp only [bodyQuery, hnamed, Dev.say])
  case running =>
    intro s r x hserved hnamed hstate
    rw [exec_query]
    exact onMain_iapin_served hserved rfl (by simp only [bodyQuery, hnamed, hstate, Dev.say])
  case complete =>
    intro s r x st ws hserved hnamed hstate
    rw [exec_query]
    exact onMain_iapin_served hserved rfl (by simp only [bodyQuery, hnamed, hstate])

/-! ### Requests that the firmware does not carry out -/

/-- What keeps a request from being taken: the firmware is not ready (R389), the channel holds another message (R402), the
request repeats an answered one (R413), or a refusal (R398, R410, R430, R431). -/
def Untaken (op : Nat) (read : Bool) (r : Req) (d : Dev) : Prop :=
  d.host.bootStage ≠ 3 ∨ d.carries op r = false ∨ d.storedReply r ≠ none ∨ d.refusal op read r ≠ none

/-- DEVICE_RESET alone has the opcode 0x00FE, and it writes (R422). -/
theorem deviceReset_of_opcode (hreq : requestOf c = some (0x00FE, read, r)) : c = .deviceReset r ∧ read = false := by
  cases c
  all_goals cases hreq
  exact ⟨rfl, rfl⟩

/-- A DEVICE_RESET that is not taken does not reset (R435). -/
theorem exec_deviceReset_untaken (hlive : Live s) (huntaken : Untaken 0x00FE false r s.dev) :
    exec (.deviceReset r) s = onMain (iapin 0x00FE writes bodyDeviceReset r) s := by
  have harm : exec (.deviceReset r) s = execDeviceReset r s := rfl
  rw [harm, execDeviceReset, onMain_of_live hlive, onMain_of_live hlive]
  rcases huntaken with h | h | h | h
  all_goals simp [h]

/-- A request that is not taken ends in the firmware's one rule, whatever its command (R389, R398, R410, R413, R430). -/
theorem exec_of_untaken (hreq : requestOf c = some (op, read, r)) (hlive : Live s) (huntaken : Untaken op read r s.dev) :
    ∃ (direction : Req → Bool) (body : Body), exec c s = onMain (iapin op direction body r) s ∧ direction r = read := by
  by_cases hreset : op = 0x00FE
  · subst hreset
    obtain ⟨rfl, rfl⟩ := deviceReset_of_opcode hreq
    exact ⟨writes, bodyDeviceReset, exec_deviceReset_untaken hlive huntaken, rfl⟩
  · exact exec_of_requestOf hreq hreset s


variable {direction : Req → Bool} {body : Body} {d : Dev}

/-- Before the firmware is ready, and while the channel holds another message, a request does nothing (R389, R402). -/
theorem iapin_absent (habsent : d.host.bootStage ≠ 3 ∨ d.carries op r = false) : iapin op direction body r d = d := by
  simp only [iapin, if_pos habsent]

/-- A repeated request is answered from the store (R413). -/
theorem iapin_repeated {b : List Word} (hstage : d.host.bootStage = 3) (hcarries : d.carries op r = true)
    (hstored : d.storedReply r = some b) : iapin op direction body r d = d.repeatReply r b := by
  simp [iapin, carryOut, hstage, hcarries, hstored]

/-- A refused request is answered with its refusal (R398, R410, R430, R431). -/
theorem iapin_refused {p : Rep} (hstage : d.host.bootStage = 3) (hcarries : d.carries op r = true)
    (hstored : d.storedReply r = none) (hrefusal : d.refusal op (direction r) r = some p) :
    iapin op direction body r d = d.useFresh.answer op r p := by
  simp [iapin, carryOut, hstage, hcarries, hstored, hrefusal]

/-- A request that finds the firmware not ready, or another message on its channel, changes nothing (R389, R402). -/
theorem exec_of_absent (hreq : requestOf c = some (op, read, r)) (hlive : Live s)
    (habsent : s.dev.host.bootStage ≠ 3 ∨ s.dev.carries op r = false) : exec c s = .next s := by
  have huntaken : Untaken op read r s.dev := by
    rcases habsent with h | h
    · exact .inl h
    · exact .inr (.inl h)
  obtain ⟨direction, body, hexec, -⟩ := exec_of_untaken hreq hlive huntaken
  rw [hexec, onMain_of_live hlive, iapin_absent habsent]
  rfl

/-- Settles O54: a refused request ends in the firmware's one rule, whose refusal is its reply. -/
theorem refusedRequestsOnlyAnswer : Obligations.RefusedRequestsOnlyAnswer := by
  refine ⟨?refused, ?notReady⟩
  case refused =>
    intro c s op read r p hreq hlive hstage hcarries hstored hrefusal
    have huntaken : Untaken op read r s.dev := .inr (.inr (.inr (by simp [hrefusal])))
    obtain ⟨direction, body, hexec, rfl⟩ := exec_of_untaken hreq hlive huntaken
    rw [hexec, onMain_of_live hlive, iapin_refused hstage hcarries hstored hrefusal]
  case notReady =>
    intro c s op read r hreq hlive hstage
    exact exec_of_absent hreq hlive (.inl hstage)

/-! ### The stored reply of a channel -/

/-- A changed mailbox channel reads as changed, where it is not the channel of reset. -/
theorem boxOf_modBox_same {n : Nat} {f : Chan → Chan} (hset : f (d.boxOf n) ≠ {}) : (d.modBox n f).boxOf n = f (d.boxOf n) :=
  Laws.tblGet_tblSet_same_of_ne hset

/-- The channel that a reply leaves (R399, R413). -/
def answered (op : Nat) (r : Req) (p : Rep) (c : Chan) : Chan :=
  { c with
    stored := if p.status = 0x0201 ∨ p.status = 0x0001 then c.stored else some (r.w1, p.block op r)
    rep := if c.picked then p.block op r else c.rep }

/-- A reply is given to its channel alone, which keeps a reply stored where one is to be stored or stood there (R413). -/
theorem boxOf_answer {p : Rep} (hset : (answered op r p (d.boxOf r.chan.val)).stored ≠ none) :
    (d.answer op r p).boxOf r.chan.val = answered op r p (d.boxOf r.chan.val) := by
  refine boxOf_modBox_same (f := answered op r p) (fun hreset => hset ?_)
  rw [hreset]

/-- Word 1 of a request picks its channel's stored reply (R413). -/
theorem storedReply_of_stored {b : List Word} (hstored : (d.boxOf r.chan.val).stored = some (r.w1, b)) :
    d.storedReply r = some b := by
  simp [Dev.storedReply, hstored]

/-- Settles O52: a reply is stored by its status, and a request with a stored reply ends in the firmware's one rule. -/
theorem repeatedRequestIsNotExecutedAgain : Obligations.RepeatedRequestIsNotExecutedAgain := by
  refine ⟨?stores, ?keeps, ?repeats⟩
  case stores =>
    intro d op r p hdiscarded haccepted
    have hstored : (answered op r p (d.boxOf r.chan.val)).stored = some (r.w1, p.block op r) := by
      simp [answered, hdiscarded, haccepted]
    rw [boxOf_answer (by simp [hstored]), hstored]
  case keeps =>
    intro d op r p x hstatus hold
    have hstored : (answered op r p (d.boxOf r.chan.val)).stored = some x := by
      simp only [answered, if_pos hstatus, hold]
    rw [boxOf_answer (by simp [hstored]), hstored]
  case repeats =>
    intro c s op read r b hreq hlive hstage hcarries hold
    have hstored := storedReply_of_stored hold
    have huntaken : Untaken op read r s.dev := .inr (.inr (.inl (by simp [hstored])))
    obtain ⟨direction, body, hexec, -⟩ := exec_of_untaken hreq hlive huntaken
    rw [hexec, onMain_of_live hlive, iapin_repeated hstage hcarries hstored]

/-! ### Opcodes and their commands -/

/-- Every Iapin command but the kinds of TB_CORRECT is the one that its opcode names (R414). -/
theorem commandOf_requestOf (hreq : requestOf c = some (op, read, r)) (hkind : op ≠ 0x0710) : commandOf op r = some c := by
  cases c
  case tbSet | tbStep | tbSlew | tbRate | tbState | tbHoldLimit => exact absurd (by cases hreq; rfl) hkind
  all_goals cases hreq
  all_goals rfl

/-- Each kind of TB_CORRECT is a write with the opcode 0x0710 (R429). -/
theorem requestOf_tbCommand (r : Req) : requestOf (tbCommand r) = some (0x0710, false, r) := by
  unfold tbCommand
  split <;> rfl

/-- The command that an opcode names has that opcode (R414). -/
theorem requestOf_commandOf (hnames : commandOf op r = some c) : ∃ read, requestOf c = some (op, read, r) := by
  unfold commandOf at hnames
  split at hnames
  all_goals cases hnames
  on_goal 76 => exact ⟨_, requestOf_tbCommand r⟩
  all_goals exact ⟨_, rfl⟩

/-- The firmware turns a message away whose opcode names no command on a channel that carries its group (R414; log entry 37). -/
theorem turnAway_unlisted {ch : Fin 32} (hr : r = Req.ofBlock ch true (d.boxOf ch.val).req)
    (hop : op = opcodeOf (d.boxOf ch.val).req) (hstage : d.host.bootStage = 3) (hnone : commandOf op r = none)
    (hstored : d.storedReply r = none) (hgroup : 0x1000 ≤ op ∨ nbit (d.boxOf ch.val).groups (op / 256) = true) :
    d.turnAway ch = d.answer op r .badOpcode := by
  subst hr hop
  have hbound : ¬ (opcodeOf (d.boxOf ch.val).req < 0x1000 ∧
      !nbit (d.boxOf ch.val).groups (opcodeOf (d.boxOf ch.val).req / 256)) := by
    rintro ⟨hlow, hbit⟩
    rcases hgroup with h | h
    · omega
    · simp [h] at hbit
  simp only [Dev.turnAway, hstage, hnone, hstored, if_neg hbound]
  simp

/-- Settles O53: opcodes and commands by their two tables, a message of neither by the pickup (log entry 37), and a command that
is not the one on its channel by the firmware's one rule (log entry 207). -/
theorem opcodeNamesItsCommand : Obligations.OpcodeNamesItsCommand := by
  refine ⟨?named, ?names, ?unlisted, ?elsewhere⟩
  case named =>
    intro c op read r hreq hkind
    exact commandOf_requestOf hreq hkind
  case names =>
    intro c op r hnames
    exact requestOf_commandOf hnames
  case unlisted =>
    intro s m ch r op hside hmgmt hstage hbusy hwaits hturn hr hop hnone hstored hgroup
    have hpicked : (s.dev.modBox ch.val Chan.pick).boxOf ch.val = (s.dev.boxOf ch.val).pick :=
      boxOf_modBox_same (fun h => absurd (congrArg Chan.picked h) (by simp [Chan.pick]))
    have haway : (s.dev.modBox ch.val Chan.pick).turnAway ch = (s.dev.modBox ch.val Chan.pick).answer op r .badOpcode := by
      refine turnAway_unlisted (hpicked ▸ hr) (hpicked ▸ hop) hstage hnone ?_ (hpicked ▸ hgroup)
      subst hr
      simpa only [Dev.storedReply, Req.ofBlock, hpicked, Chan.pick] using hstored
    rw [exec_pick, onMain_boxWrite hside, pickUp_in_turn hbusy hwaits ((boxSide_id hside).trans hmgmt) hturn, haway]
    rfl
  case elsewhere =>
    intro c s op read r hreq hlive hbusy hfirmware hother
    have hcarries : s.dev.carries op r = false := by
      rcases hother with h | h | h
      all_goals simp [Dev.carries, spells, hbusy, hfirmware, h]
    exact exec_of_absent hreq hlive (.inr hcarries)

end Sys2Proof.Proofs
end

section
/-!
PROOFS. The safety island's commands and its own events (R258, R259, R262, R263, R269 to R272, R274, R275, R278, R418, R428, R439,
R453).
-/

namespace Sys2Proof.Proofs

open Sys2Proof.Machine Sys2Proof.Safety

/-- A meaning on the always-powered side acts whether or not the main logic is held (R258, R436). -/
theorem onDev_eq (f : Dev → Dev) (s : State) : onDev f s = .next (withDev s (f s.dev)) := rfl

/-! ### The commands of the safety group -/

theorem exec_safetyLoad (r : Req) (s : State) :
    exec (.safetyLoad r) s = onMain (iapin 0x0601 writes bodySafetyLoad r) s := rfl

theorem exec_safetyConfirm (r : Req) (s : State) :
    exec (.safetyConfirm r) s = onMain (iapin 0x0602 writes bodySafetyConfirm r) s := rfl

theorem exec_zoneRequest (r : Req) (s : State) :
    exec (.zoneRequest r) s = onMain (iapin 0x0603 writes bodyZoneRequest r) s := rfl

theorem exec_resetArm (r : Req) (s : State) : exec (.resetArm r) s = onMain (iapin 0x0604 writes bodyResetArm r) s := rfl

theorem exec_safetyStatus (r : Req) (s : State) :
    exec (.safetyStatus r) s = onMain (iapin 0x0605 reads bodySafetyStatus r) s := rfl

theorem exec_pendingDrop (s : State) : exec .pendingDrop s = .next (withDev s
    (if 120000 ≤ s.dev.isl.pendingCyc then { s.dev with isl := { s.dev.isl with pending := none } } else s.dev)) := rfl

theorem exec_armedExpiry (z : Fin 8) (s : State) : exec (.armedExpiry z) s = .next (withDev s
    (s.dev.modZone z.val (fun x => if 10000 ≤ x.armedCyc then { x with armed := false } else x))) := rfl

variable {r : Req} {d : Dev} {f : RecForm}

/-- A set whose words and CRC are right is kept as the pending one, but not under CHECK_ONLY (R263, R410, R418). -/
theorem bodySafetyLoad_good (hobject : arg r 2 = 0) (hargs : imgArgs r (some (4 * setWords)) = none)
    (hoff : d.isl.outputs = 0) (hcrc : crc32 (wordsBytes (d.image r)) = arg r 5)
    (hwords : ∀ i < setWords, setWordBad (d.image r) i = false) :
    bodySafetyLoad r d = (.ok [setCrc (d.image r)], if checkOnly r then d
      else { d with isl := { d.isl with
        pending := some (d.image r), pendingCrc := setCrc (d.image r), pendingCyc := 0 } }) := by
  have hgood : (List.range setWords).find? (setWordBad (d.image r)) = none := by
    rw [List.find?_eq_none]
    intro i hi
    simp [hwords i (List.mem_range.1 hi)]
  simp [bodySafetyLoad, hobject, hargs, hoff, Dev.imageCrcOk, hcrc, hgood]

/-- The CRC of the pending set confirms it (R263). -/
theorem bodySafetyConfirm_same {p : List Word} (hpending : d.isl.pending = some p) (hcrc : arg r 2 = d.isl.pendingCrc) :
    bodySafetyConfirm r d =
      Dev.doneNow { d with isl := { d.isl with accepted := some p, pending := none } } := by
  simp [bodySafetyConfirm, hpending, hcrc]

/-- A zone that is locked, or holds its UV channels off, is armed where it may reset and has a reset input (R275). -/
theorem bodyResetArm_armed (hmay : d.isl.mayReset (bits (arg r 2) 2 0) = true)
    (hneeds : (d.isl.zone (bits (arg r 2) 2 0)).locked = true ∨ (d.isl.zone (bits (arg r 2) 2 0)).uvHold = true)
    (hinput : resetEn d.isl.params (bits (arg r 2) 2 0) = true) :
    bodyResetArm r d =
      (d.modZone (bits (arg r 2) 2 0) (fun s => { s with armed := true, armedCyc := 0 })).doneNow := by
  rcases hneeds with h | h <;> simp [bodyResetArm, hmay, hinput, h]

/-- Object 8 of SAFETY_STATUS is the island's word (R278). -/
theorem bodySafetyStatus_island (hobject : bits (arg r 2) 31 16 = 8) (hform : recForm r 9 1 = some f) :
    bodySafetyStatus r d = (f.readReply r [d.isl.word], d) := by
  simp only [bodySafetyStatus, if_pos hobject, hform, Dev.say]

/-- Objects 0 to 7 of SAFETY_STATUS are the zones' words (R278). -/
theorem bodySafetyStatus_zone (hobject : bits (arg r 2) 31 16 ≠ 8) (hform : recForm r 8 2 = some f) :
    bodySafetyStatus r d = (f.readReply r (d.isl.zoneWords f.index), d) := by
  rw [bodySafetyStatus, if_neg hobject, recRead_in_range hform]

/-- Settles O22: each body passes its checks, and the two timers act by the cycles that the island has counted. -/
theorem safetySetCommands : Obligations.SafetySetCommands := by
  refine ⟨?load, ?confirm, ?request, ?arm, ?island, ?zone, ?drop, ?expiry⟩
  case load =>
    intro s r p hserved hobject hargs hoff hcrc hwords hp
    subst hp
    rw [exec_safetyLoad]
    exact onMain_iapin_served hserved rfl (bodySafetyLoad_good hobject hargs hoff hcrc hwords)
  case confirm =>
    intro s r p hserved hpending hcrc
    rw [exec_safetyConfirm]
    exact onMain_iapin_served hserved rfl (bodySafetyConfirm_same hpending hcrc)
  case request =>
    intro s r d hserved hd
    subst hd
    rw [exec_zoneRequest]
    exact onMain_iapin_served hserved rfl rfl
  case arm =>
    intro s r z d hserved hz hmay hneeds hinput hd
    subst hz hd
    rw [exec_resetArm]
    exact onMain_iapin_served hserved rfl (bodyResetArm_armed hmay hneeds hinput)
  case island =>
    intro s r f hserved hobject hform
    rw [exec_safetyStatus]
    exact onMain_iapin_served hserved rfl (bodySafetyStatus_island hobject hform)
  case zone =>
    intro s r f hserved hobject hform
    rw [exec_safetyStatus]
    exact onMain_iapin_served hserved rfl (bodySafetyStatus_zone hobject hform)
  case drop =>
    intro s htime
    rw [exec_pendingDrop, if_pos htime]
  case expiry =>
    intro s z _
    exact exec_armedExpiry z s

/-! ### The island's own events -/

theorem exec_islandCycle (i : IslandIn) (s : State) : exec (.islandCycle i) s = execIslandCycle i s := rfl

theorem exec_soloExpired (s : State) : exec .soloExpired s = execSoloExpired s := rfl

theorem exec_testPulse (tp : Fin 4) (l : PulseLevels) (s : State) : exec (.testPulse tp l) s = execTestPulse tp l s := rfl

theorem exec_outputTest (n : Fin 8) (low pass : Bool) (s : State) :
    exec (.outputTest n low pass) s = execOutputTest n low pass s := rfl

theorem exec_islandSelfTest (pass : Bool) (s : State) : exec (.islandSelfTest pass) s = execIslandSelfTest pass s := rfl

theorem exec_vsafePowerOn (s : State) :
    exec .vsafePowerOn s = .next (withDev s { s.dev with isl := { sev5Seen := s.dev.flt.sev5Pulses } }) := rfl

theorem exec_vsafeLoss (s : State) : exec .vsafeLoss s = .next (withDev s s.dev.vsafeLost) := rfl

variable {s : State} {i : IslandIn}

/-- A cycle whose cores and memory agree and whose oscillator is right runs the zones, in RUN or with a confirmed set (R258, R263). -/
theorem exec_islandCycle_runs
    (hstate : s.dev.isl.state = .run ∨ s.dev.isl.state = .noParams ∧ s.dev.isl.accepted.isSome = true)
    (hagree : cycleStops i = false) : exec (.islandCycle i) s = .next (withDev s (s.dev.runCycle i)) := by
  rw [exec_islandCycle, execIslandCycle, onDev_eq]
  rcases hstate with h | ⟨h, haccepted⟩
  · simp only [h, hagree, Bool.false_eq_true, if_false]
  · simp only [h, hagree, haccepted, Bool.false_eq_true, if_false, if_true]

/-- A disagreement stops the island (R259). -/
theorem exec_islandCycle_stops (hstate : s.dev.isl.state = .run ∨ s.dev.isl.state = .noParams)
    (hstops : cycleStops i = true) : exec (.islandCycle i) s = .next (withDev s s.dev.safeStop) := by
  rw [exec_islandCycle, execIslandCycle, onDev_eq]
  rcases hstate with h | h <;> simp only [h, hstops, if_true]

/-- In SAFE_STOP, and without a confirmed set, a cycle only samples (R258, R259). -/
theorem exec_islandCycle_rests
    (hstate : s.dev.isl.state = .safeStop ∨
      s.dev.isl.state = .noParams ∧ s.dev.isl.accepted = none ∧ cycleStops i = false) :
    exec (.islandCycle i) s = .next (withDev s (s.dev.restCycle i)) := by
  rw [exec_islandCycle, execIslandCycle, onDev_eq]
  rcases hstate with h | ⟨h, hnone, hagree⟩
  · simp only [h]
  · simp only [h, hnone, hagree, Option.isSome_none, Bool.false_eq_true, if_false]

/-- Settles O23: the cycle by the island's state and what stops it, the tests by the zones that they lock, and the island's supply
and self-test by its state. -/
theorem islandCyclesAndTests : Obligations.IslandCyclesAndTests := by
  refine ⟨?runs, ?stops, ?rests, ?solo, ?pulse, ?output, ?powerOn, ?passed, ?failed, ?loss⟩
  case runs =>
    intro s i hstate hagree
    exact exec_islandCycle_runs hstate hagree
  case stops =>
    intro s i hstate hstops
    exact exec_islandCycle_stops hstate hstops
  case rests =>
    intro s i hstate
    exact exec_islandCycle_rests hstate
  case solo =>
    intro s q hstate hsolo htime hq
    subst hq
    rw [exec_soloExpired, execSoloExpired, onDev_eq, if_pos (by simp [hstate, hsolo, htime])]
  case pulse =>
    intro s tp a b bad t q hstate hbad ht hq
    subst hbad ht hq
    rw [exec_testPulse, execTestPulse, onDev_eq, if_neg (by simp [hstate])]
  case output =>
    intro s n low q hdriven hq
    subst hq
    rw [exec_outputTest, execOutputTest, onDev_eq, if_neg (by simp [hdriven])]
  case powerOn => exact exec_vsafePowerOn
  case passed =>
    intro s hstate
    rw [exec_islandSelfTest, execIslandSelfTest, onDev_eq, if_neg (by simp [hstate]), if_pos rfl]
  case failed =>
    intro s hstate
    rw [exec_islandSelfTest, execIslandSelfTest, onDev_eq, if_neg (by simp [hstate]), if_neg Bool.false_ne_true]
  case loss => exact exec_vsafeLoss

end Sys2Proof.Proofs
end

section
/-!
PROOFS. The supplies, the resets, the collapse, the close record and the release (R289, R308, R422, R435 to R437, R439, R440, R442,
R450, R453).
-/

namespace Sys2Proof.Proofs

open Sys2Proof.Machine Sys2Proof.Safety

theorem exec_vaonPowerOn (s : State) : exec .vaonPowerOn s = .next (withDev s s.dev.vaonReset) := rfl

theorem exec_resetN (s : State) : exec .resetN s = .next (withDev s (s.dev.mainReset .resetPin)) := rfl

theorem exec_supplyOutOfRange (dom : Domain) (s : State) :
    exec (.supplyOutOfRange dom) s = execSupplyOutOfRange dom s := rfl

theorem exec_collapse (c : CollapseCause) (s : State) : exec (.collapse c) s = .next (withDev s
    (if c == .thermal && !s.dev.therm.shutdown then s.dev else s.dev.collapse c s.dev.therm.hotSensor)) := rfl

theorem exec_closeRecordWritten (s : State) : exec .closeRecordWritten s = execCloseRecordWritten s := rfl

theorem exec_firmwareWatchdogReset (s : State) : exec .firmwareWatchdogReset s = execFirmwareWatchdogReset s := rfl

theorem exec_resetRelease (x : ReleaseIn) (low held : Bool) (s : State) : exec (.resetRelease x low held) s =
    .next (withDev s (if s.dev.mayRelease x then s.dev.release x.role low held else s.dev)) := rfl

theorem exec_deviceReset (r : Req) (s : State) : exec (.deviceReset r) s = execDeviceReset r s := rfl

variable {s : State} {x : ReleaseIn} {r : Req}

/-- What a domain that the main logic alone needs takes with it while the main logic runs (R453; log entry 111). -/
theorem exec_supplyOutOfRange_live (hlive : Live s) :
    exec (.supplyOutOfRange .vsda) s = .next (withDev s (s.dev.domainOff .vsda)) ∧
    exec (.supplyOutOfRange .vsdb) s = .next (withDev s (s.dev.domainOff .vsdb)) ∧
    exec (.supplyOutOfRange .vnet) s =
      .next (withDev s (forEach (List.range s.dev.portCount) (fun p d => d.ethDown p) s.dev.plyLinkDown)) ∧
    exec (.supplyOutOfRange .vhost) s = .next (withDev s (s.dev.event 0x0A0 0)) := by
  have hrun : ¬ s.dev.pwr.held = true := by simp [hlive]
  simp only [exec_supplyOutOfRange, execSupplyOutOfRange, onDev_eq, if_neg hrun, and_self]

/-- The trim channels whose bootstraps hold (R208). -/
def bootstrapped (d : Dev) : List Nat := (List.range 32).filter (fun n => !(d.trimOf n).bstUv)

/-- Every gate driver loses its bootstrap with VDRV, and the lowest that had one is reported (R208, R453). -/
theorem exec_supplyOutOfRange_vdrv {n : Nat} {l : List Nat} (hlive : Live s) (hlist : bootstrapped s.dev = n :: l) :
    exec (.supplyOutOfRange .vdrv) s =
      .next (withDev s ((forEach (List.range 32) (fun n d => d.vdrvLow n) s.dev).event 0x04C (word n))) := by
  have hrun : ¬ s.dev.pwr.held = true := by simp [hlive]
  rw [bootstrapped] at hlist
  simp only [exec_supplyOutOfRange, execSupplyOutOfRange, onDev_eq, if_neg hrun, hlist]

/-- Where no driver has a bootstrap there is none to report (R208, R453). -/
theorem exec_supplyOutOfRange_vdrv_none (hlive : Live s) (hlist : bootstrapped s.dev = []) :
    exec (.supplyOutOfRange .vdrv) s = .next (withDev s (forEach (List.range 32) (fun n d => d.vdrvLow n) s.dev)) := by
  have hrun : ¬ s.dev.pwr.held = true := by simp [hlive]
  rw [bootstrapped] at hlist
  simp only [exec_supplyOutOfRange, execSupplyOutOfRange, onDev_eq, if_neg hrun, hlist]

/-- A held main logic loses only the two strand supplies (R436, R453). -/
theorem exec_supplyOutOfRange_held (hheld : s.dev.pwr.held = true) :
    exec (.supplyOutOfRange .vsda) s = .next (withDev s (s.dev.setDomain .vsda false)) ∧
    exec (.supplyOutOfRange .vsdb) s = .next (withDev s (s.dev.setDomain .vsdb false)) ∧
    exec (.supplyOutOfRange .vnet) s = .next s ∧ exec (.supplyOutOfRange .vhost) s = .next s ∧
    exec (.supplyOutOfRange .vdrv) s = .next s := by
  simp only [exec_supplyOutOfRange, execSupplyOutOfRange, onDev_eq, if_pos hheld, withDev, and_self]

/-- The firmware watchdog resets where the signed configuration has it, 1 s after its expiry (R439). -/
theorem exec_firmwareWatchdogReset_due {t : Nat} {d : Dev} (hlive : Live s) (hcfg : s.dev.cfg.wdogReset = true)
    (hexpired : s.dev.pwr.wdogAt = some t) (hup : s.dev.timeUp (1250000000 + t) = some d) :
    exec .firmwareWatchdogReset s = .next (withDev s (d.mainReset .wdog)) := by
  rw [exec_firmwareWatchdogReset, execFirmwareWatchdogReset, onMain_of_live hlive]
  simp only [hcfg, hexpired, hup, if_true]

/-- Without WDOG_RESET, or without an expiry, the firmware watchdog resets nothing (R439). -/
theorem exec_firmwareWatchdogReset_none (hlive : Live s) (hnone : s.dev.cfg.wdogReset = false ∨ s.dev.pwr.wdogAt = none) :
    exec .firmwareWatchdogReset s = .next (withDev s s.dev) := by
  rw [exec_firmwareWatchdogReset, execFirmwareWatchdogReset, onMain_of_live hlive]
  rcases hnone with h | h <;> simp [h]

/-- What releases the reset: every domain back, both pins high, no latch, no close record under way (R289, R308, R440). -/
theorem mayRelease_iff {d : Dev} : d.mayRelease x = true ↔ d.pwr.held = true ∧ (∀ dom ∈ d.pwr.out, dom ∈ x.back) ∧
    x.resetHigh = true ∧ x.pfailHigh = true ∧ d.therm.shutdown = false ∧ d.pwr.closeWriting = none := by
  simp [Dev.mayRelease, List.all_eq_true, and_assoc]

/-- Where something holds the reset, RESET_RELEASE changes nothing (R440). -/
theorem exec_resetRelease_refused {low held : Bool} (hheld : ¬ s.dev.mayRelease x = true) :
    exec (.resetRelease x low held) s = .next (withDev s s.dev) := by
  rw [exec_resetRelease, if_neg hheld]

/-- A served request leaves the device that its body and its reply make (R411, R413, R432). -/
theorem iapin_served {op : Nat} {b : Bool} {read : Req → Bool} {body : Body} {p : Rep} {d : Dev} (hserved : Served op b r s)
    (hread : read r = b) (hbody : body r s.dev = (p, d)) : iapin op read body r s.dev = (taken op b r p d s).dev := by
  obtain ⟨hlive, -⟩ := id hserved
  have htaken := onMain_iapin_served hserved hread hbody
  rw [onMain_of_live hlive] at htaken
  injection htaken with hstate
  exact congrArg State.dev hstate

/-- A served DEVICE_RESET with its key is answered, and the reset follows in the same step (R422; log entry 66). -/
theorem exec_deviceReset_served (hserved : Served 0x00FE false r s) (hkey : arg r 2 = 0x00009256) :
    exec (.deviceReset r) s =
      .next (withDev s ((taken 0x00FE false r (.ok [s.dev.nowTick]) s.dev s).dev.mainReset .swReset)) := by
  have hbody : bodyDeviceReset r s.dev = (.ok [s.dev.nowTick], s.dev) := by
    simp only [bodyDeviceReset, if_pos hkey, Dev.doneNow]
  have hiapin := iapin_served (read := writes) hserved rfl hbody
  obtain ⟨hlive, hstage, hstored, hrefusal, -, hcarries⟩ := hserved
  rw [exec_deviceReset, execDeviceReset, onMain_of_live hlive]
  simp [hstage, hstored, hrefusal, hcarries, hkey, hiapin]

/-- Settles O44: each domain by what it takes with it, the release by what may hold the reset, and DEVICE_RESET by its key (log
entries 66, 110, 111 and 186). -/
theorem resetsAndReleases : Obligations.ResetsAndReleases := by
  refine ⟨exec_vaonPowerOn, exec_resetN, ?always, ?required, ?vsda, ?vsdb, ?vnet, ?vhost, ?vdrv, ?vdrvNone, ?held, ?collapse,
    ?cold, ?written, ?watchdog, ?noWatchdog, ?release, ?out, ?holds, ?deviceReset⟩
  case always =>
    intro s
    exact ⟨rfl, rfl, rfl⟩
  case required =>
    intro s dom hdom
    rcases hdom with rfl | rfl | rfl | rfl | rfl | rfl <;> rfl
  case vsda =>
    intro s hlive
    exact (exec_supplyOutOfRange_live hlive).1
  case vsdb =>
    intro s hlive
    exact (exec_supplyOutOfRange_live hlive).2.1
  case vnet =>
    intro s hlive
    exact (exec_supplyOutOfRange_live hlive).2.2.1
  case vhost =>
    intro s hlive
    exact (exec_supplyOutOfRange_live hlive).2.2.2
  case vdrv =>
    intro s n l hlive hlist
    exact exec_supplyOutOfRange_vdrv hlive hlist
  case vdrvNone =>
    intro s hlive hlist
    exact exec_supplyOutOfRange_vdrv_none hlive hlist
  case held =>
    intro s hheld
    exact exec_supplyOutOfRange_held hheld
  case collapse =>
    intro s c hlatch
    have hacts : ¬ (c == .thermal && !s.dev.therm.shutdown) = true := by simpa using hlatch
    rw [exec_collapse, if_neg hacts]
  case cold =>
    intro s hlatch
    rw [exec_collapse, if_pos (by simp [hlatch])]
  case written =>
    intro s c d hwriting hd
    subst hd
    rw [exec_closeRecordWritten, execCloseRecordWritten, onDev_eq, hwriting]
  case watchdog =>
    intro s t d hlive hcfg hexpired hup
    exact exec_firmwareWatchdogReset_due hlive hcfg hexpired hup
  case noWatchdog =>
    intro s hlive hnone
    exact exec_firmwareWatchdogReset_none hlive hnone
  case release =>
    intro s x low held hheld hback hreset hpfail hlatch hclosed
    rw [exec_resetRelease, if_pos (mayRelease_iff.2 ⟨hheld, hback, hreset, hpfail, hlatch, hclosed⟩)]
  case out =>
    intro s x low held dom hout hback
    refine exec_resetRelease_refused (fun hmay => ?_)
    obtain ⟨-, hall, -⟩ := mayRelease_iff.1 hmay
    exact hback (hall dom hout)
  case holds =>
    intro s x low held hholds
    refine exec_resetRelease_refused (fun hmay => ?_)
    obtain ⟨hheld, -, hreset, hpfail, hlatch, hclosed⟩ := mayRelease_iff.1 hmay
    simp [hheld, hreset, hpfail, hlatch, hclosed] at hholds
  case deviceReset =>
    intro s r hserved hkey
    exact exec_deviceReset_served hserved hkey

end Sys2Proof.Proofs
end

section
/-!
PROOFS. METER_PARAM, PULSE_IN, PULSE_OUT, METER_CLEAR and SNAP_REQ, the pulse inputs and outputs, and the images of the accumulators
(R298, R300 to R305, R307, R309, R311, R411, R427).
-/

namespace Sys2Proof.Proofs

open Sys2Proof.Machine Sys2Proof.Safety

/-! ### The commands -/

theorem exec_meterParam (r : Req) (s : State) : exec (.meterParam r) s = onMain (iapin 0x0501 writes bodyMeterParam r) s := rfl

theorem exec_pulseIn (r : Req) (s : State) : exec (.pulseIn r) s = onMain (iapin 0x0502 writes bodyPulseIn r) s := rfl

theorem exec_pulseOut (r : Req) (s : State) : exec (.pulseOut r) s = onMain (iapin 0x0503 writes bodyPulseOut r) s := rfl

theorem exec_meterClear (r : Req) (s : State) : exec (.meterClear r) s = onMain (iapin 0x0504 writes bodyMeterClear r) s := rfl

theorem exec_snapReq (m : Master) (v : Word) (s : State) :
    exec (.snapReq m v) s = onMain (fun d => d.guarded m 2 (fun d => d.writeMeter0 v)) s := rfl

variable {r : Req}

/-- A metering parameter in range waits for the boundary (R298). -/
theorem bodyMeterParam_in_range (d : Dev)
    (hrange : meterParamBad (bits (arg r 2) 15 8) (bits (arg r 2) 7 0) (arg r 3) = none) :
    bodyMeterParam r d = d.doneAtTick r (.meterParam (bits (arg r 2) 15 8) (bits (arg r 2) 7 0) (arg r 3)) := by
  simp only [bodyMeterParam, hrange]

/-- A pulse input's configuration in range waits for the boundary (R301). -/
theorem bodyPulseIn_in_range (d : Dev) (hdebLo : 1 ≤ bits (arg r 3) 6 0) (hdebHi : bits (arg r 3) 6 0 ≤ 100)
    (hlimLo : 1 ≤ (arg r 4).toNat) (hlimHi : (arg r 4).toNat ≤ 3600) (hrateLo : 1 ≤ (arg r 5).toNat)
    (hrateHi : (arg r 5).toNat ≤ 1000) :
    bodyPulseIn r d = d.doneAtTick r (.pulseIn (bits (arg r 2) 3 0) (arg r 3) (arg r 4) (arg r 5)) := by
  have hdeb : ¬ (bits (arg r 3) 6 0 = 0 ∨ 100 < bits (arg r 3) 6 0) := by omega
  have hlim : ¬ ((arg r 4).toNat = 0 ∨ 3600 < (arg r 4).toNat) := by omega
  have hrate : ¬ ((arg r 5).toNat = 0 ∨ 1000 < (arg r 5).toNat) := by omega
  simp only [bodyPulseIn, if_neg hdeb, if_neg hlim, if_neg hrate]

/-- A pulse output's configuration in range waits for the boundary (R304). -/
theorem bodyPulseOut_in_range (d : Dev) (hsrc : bits (arg r 3) 23 16 ≤ 135) (hwidth : bits (arg r 3) 7 0 ≠ 0)
    (hweight : arg r 4 ≠ 0) :
    bodyPulseOut r d = d.doneAtTick r (.pulseOut (bits (arg r 2) 2 0) (arg r 3) (arg r 4)) := by
  have hword3 : ¬ (135 < bits (arg r 3) 23 16 ∨ bits (arg r 3) 7 0 = 0) := by omega
  simp only [bodyPulseOut, if_neg hword3, if_neg hweight]

/-- Settles O24: each body passes its range checks, METER_CLEAR acts at once, and the permitted write reaches its word. -/
theorem meterCommandsServed : Obligations.MeterCommandsServed := by
  refine ⟨?param, ?pulseIn, ?pulseOut, ?clear, ?snap⟩
  case param =>
    intro s r hserved hrange
    rw [exec_meterParam]
    exact onMain_iapin_served hserved rfl (bodyMeterParam_in_range s.dev hrange)
  case pulseIn =>
    intro s r hserved hdebLo hdebHi hlimLo hlimHi hrateLo hrateHi
    rw [exec_pulseIn]
    exact onMain_iapin_served hserved rfl
      (bodyPulseIn_in_range s.dev hdebLo hdebHi hlimLo hlimHi hrateLo hrateHi)
  case pulseOut =>
    intro s r hserved hsrc hwidth hweight
    rw [exec_pulseOut]
    exact onMain_iapin_served hserved rfl (bodyPulseOut_in_range s.dev hsrc hwidth hweight)
  case clear =>
    intro s r hserved
    rw [exec_meterClear]
    exact onMain_iapin_served hserved rfl rfl
  case snap =>
    intro s m v hwrite
    rw [exec_snapReq, onMain_guarded hwrite]

/-! ### Pulses and images -/

theorem exec_pulseInputChange (i : Fin 16) (active : Bool) (s : State) :
    exec (.pulseInputChange i active) s = execPulseInputChange i active s := rfl

theorem exec_pulseInputStuck (i : Fin 16) (s : State) : exec (.pulseInputStuck i) s = execPulseInputStuck i s := rfl

theorem exec_overRateWindow (s : State) : exec .overRateWindow s = onMain (fun d =>
    if !d.tk.seqRun || decide (d.tk.tick % d.windowTicks ≠ 0) || d.meter.windowTick == some d.tk.tick then d
    else if (d.meter.windowTick.map (· + d.windowTicks)) == some d.tk.tick then d.judgeWindows.openWindows
    else d.openWindows) s := rfl

theorem exec_pulseOutputStart (j : Fin 8) (s : State) : exec (.pulseOutputStart j) s = execPulseOutputStart j s := rfl

theorem exec_pulseOutputEnd (j : Fin 8) (s : State) : exec (.pulseOutputEnd j) s = execPulseOutputEnd j s := rfl

theorem exec_meterImageLatch (s : State) : exec .meterImageLatch s = execMeterImageLatch s := rfl

theorem exec_imageWriteDone (ok : Bool) (s : State) : exec (.imageWriteDone ok) s = execImageWriteDone ok s := rfl

variable {s : State} {i : Fin 16} {j : Fin 8}

/-- An active edge of an enabled input counts a pulse at its accumulator (R302). -/
theorem exec_pulseInputChange_counts (hlive : Live s) (hen : (s.dev.inOf i.val).en = true)
    (hlevel : (s.dev.inOf i.val).level = false) (hraw : (s.dev.inOf i.val).stuckRaw = false) {d : Dev}
    (hd : d = (s.dev.modIn i.val (fun p => { p with level := true, activeAt := s.dev.now })).modIn i.val
      (fun p => { p with window := p.window + 1 })) :
    exec (.pulseInputChange i true) s =
      .next (withDev s ((d.gain (104 + i.val) (d.corrected (104 + i.val) 1 false)).useFresh)) := by
  subst hd
  rw [exec_pulseInputChange, execPulseInputChange, onMain_of_live hlive]
  simp [hlevel, hen, hraw]

/-- An active edge of an input that is not enabled, or is still stuck, only shows (R302). -/
theorem exec_pulseInputChange_shows (hlive : Live s) (hlevel : (s.dev.inOf i.val).level = false)
    (hmute : (s.dev.inOf i.val).stuckRaw = true ∨ (s.dev.inOf i.val).en = false) :
    exec (.pulseInputChange i true) s =
      .next (withDev s (s.dev.modIn i.val (fun p => { p with level := true, activeAt := s.dev.now }))) := by
  rw [exec_pulseInputChange, execPulseInputChange, onMain_of_live hlive]
  rcases hmute with h | h <;> simp [hlevel, h]

/-- An input that stays active beyond STUCK_LIM is marked and raises 0x091 (R302). -/
theorem exec_pulseInputStuck_up {d : Dev} (hlive : Live s) (hen : (s.dev.inOf i.val).en = true)
    (hlevel : (s.dev.inOf i.val).level = true) (hraw : (s.dev.inOf i.val).stuckRaw = false)
    (hup : s.dev.timeUp ((s.dev.inOf i.val).activeAt + 1250000000 * (s.dev.inOf i.val).stuckLim) = some d) :
    exec (.pulseInputStuck i) s = .next (withDev s
      ((d.modIn i.val (fun p => { p with stuck := true, stuckRaw := true })).level 0x091 (word i.val))) := by
  rw [exec_pulseInputStuck, execPulseInputStuck, onMain_of_live hlive]
  simp only [hen, hlevel, hraw, hup, Bool.not_false, Bool.and_self, if_true]

/-- Before STUCK_LIM nothing is stuck (R302). -/
theorem exec_pulseInputStuck_early (hlive : Live s)
    (hearly : s.dev.timeUp ((s.dev.inOf i.val).activeAt + 1250000000 * (s.dev.inOf i.val).stuckLim) = none) :
    exec (.pulseInputStuck i) s = .next (withDev s s.dev) := by
  rw [exec_pulseInputStuck, execPulseInputStuck, onMain_of_live hlive]
  simp only [hearly, ite_self]

/-- At a multiple of the window, windows that began one window ago are judged, and the next begin (R303; log entry 150). -/
theorem exec_overRateWindow_judges {w : Nat} (hlive : Live s) (hrun : s.dev.tk.seqRun = true)
    (hwindow : s.dev.meter.windowTick = some w) (hend : w + s.dev.windowTicks = s.dev.tk.tick)
    (hmultiple : s.dev.tk.tick % s.dev.windowTicks = 0) (hlong : 0 < s.dev.windowTicks) :
    exec .overRateWindow s = .next (withDev s s.dev.judgeWindows.openWindows) := by
  have hbegan : w ≠ s.dev.tk.tick := by omega
  rw [exec_overRateWindow, onMain_of_live hlive]
  simp [hrun, hwindow, hend, hmultiple, hbegan]

/-- WIDTH ends the phase of a pulse output, and before its time nothing does (R304; log entry 90). -/
theorem exec_pulseOutputEnd_in_phase (hlive : Live s) (hphase : (s.dev.outOf j.val).phase ≠ 0) :
    exec (.pulseOutputEnd j) s = .next (withDev s
      (((s.dev.timeUp ((s.dev.outOf j.val).phaseAt + 1250000 * (s.dev.outOf j.val).width)).map (fun d =>
        d.modOut j.val (fun o => { o with phase := if o.phase = 1 then 2 else 0, phaseAt := d.now }))).getD s.dev)) := by
  rw [exec_pulseOutputEnd, execPulseOutputEnd, onMain_of_live hlive, if_neg hphase]
  cases s.dev.timeUp ((s.dev.outOf j.val).phaseAt + 1250000 * (s.dev.outOf j.val).width) <;> rfl

/-- The end of a write under way, while the main logic runs, by its read-back (R307). -/
theorem exec_imageWriteDone_live {x : MeterImage} {ok : Bool} (hlive : Live s) (hlatched : s.dev.meter.latched = some x)
    (hwriting : s.dev.meter.writing = true) :
    exec (.imageWriteDone ok) s = .next (withDev s
      (if ok then { s.dev with
          fram := s.dev.fram.put x, meter := { s.dev.meter with saveSeq := x.seq, saveTick := x.tick, writing := false } }
       else { s.dev with
          fram := s.dev.fram.put { x with good := false }
          meter := { s.dev.meter with saveFail := true, retried := true, writing := !s.dev.meter.retried } })) := by
  rw [exec_imageWriteDone, execImageWriteDone, onDev_eq]
  simp [hlatched, hwriting, hlive]

/-- Settles O25: an edge by the input's state, the window by its tick (log entry 150), an output by its phase (log entry 90), and the
image by its tick and its read-back. -/
theorem pulsesAndMeterImages : Obligations.PulsesAndMeterImages := by
  refine ⟨?counts, ?shows, ?falls, ?stuck, ?notStuck, ?judges, ?opens, ?between, ?starts, ?ends, ?goesOn, ?latches, ?good, ?bad⟩
  case counts =>
    intro s i a d hlive hen hlevel ha hraw hd
    exact exec_pulseInputChange_counts hlive hen hlevel hraw (ha ▸ hd)
  case shows =>
    intro s i hlive hlevel hmute
    exact exec_pulseInputChange_shows hlive hlevel hmute
  case falls =>
    intro s i hlive hlevel
    rw [exec_pulseInputChange, execPulseInputChange, onMain_of_live hlive]
    simp [hlevel]
  case stuck =>
    intro s i d hlive hen hlevel hraw hup
    exact exec_pulseInputStuck_up hlive hen hlevel hraw hup
  case notStuck =>
    intro s i hlive hearly
    exact exec_pulseInputStuck_early hlive hearly
  case judges =>
    intro s fast d e g w hlive hfast hd he hg hrun hwindow hend hmultiple hlong
    subst hg he hd hfast
    exact exec_overRateWindow_judges hlive hrun hwindow hend hmultiple hlong
  case opens =>
    intro s hlive hrun hnone hmultiple
    rw [exec_overRateWindow, onMain_of_live hlive]
    simp [hrun, hnone, hmultiple]
  case between =>
    intro s hlive hrun hbetween
    rw [exec_overRateWindow, onMain_of_live hlive]
    simp [hrun, hbetween]
  case starts =>
    intro s j hlive hdrives hen hidle howes
    rw [exec_pulseOutputStart, execPulseOutputStart, onMain_of_live hlive, if_pos (by simp [hdrives, hen, hidle, howes])]
  case ends =>
    intro s j d hlive hphase hup
    rw [exec_pulseOutputEnd_in_phase hlive hphase, hup]
    rfl
  case goesOn =>
    intro s j hlive hphase hearly
    rw [exec_pulseOutputEnd_in_phase hlive hphase, hearly]
    rfl
  case latches =>
    intro s hlive hrun hmultiple hnew
    rw [exec_meterImageLatch, execMeterImageLatch, onMain_of_live hlive, if_pos (by simp [hrun, hmultiple, hnew])]
  case good =>
    intro s i hlive hlatched hwriting
    rw [exec_imageWriteDone_live hlive hlatched hwriting, if_pos rfl]
  case bad =>
    intro s i hlive hlatched hwriting
    rw [exec_imageWriteDone_live hlive hlatched hwriting, if_neg Bool.false_ne_true]

end Sys2Proof.Proofs
end

section
/-!
PROOFS. The converters: their records, urgent conversions, calibrations and conversion ends (R316, R318 to R321, R323 to R325, R416,
R427).
-/

namespace Sys2Proof.Proofs

open Sys2Proof.Machine Sys2Proof.Safety

theorem exec_adc (r : Req) (s : State) : exec (.adc r) s = onMain (iapin 0x0505 readsRec bodyAdc r) s := rfl

theorem exec_adcUrgent (r : Req) (s : State) : exec (.adcUrgent r) s = onMain (iapin 0x0506 writes bodyAdcUrgent r) s := rfl

theorem exec_adcCal (r : Req) (s : State) : exec (.adcCal r) s = onMain (iapin 0x0507 writes bodyAdcCal r) s := rfl

theorem exec_adcCoef (r : Req) (s : State) : exec (.adcCoef r) s = onMain (iapin 0x0508 reads
    (recRead 128 4 (fun d i => (tblGet ({} : AdcCoef) d.adcs.coefs i).words)) r) s := rfl

theorem exec_conversionEnd (c : Fin 8) (raw : Int) (s : State) :
    exec (.conversionEnd c raw) s = execConversionEnd c raw s := rfl

theorem exec_oddConversionStart (pair : Fin 4) (s : State) :
    exec (.oddConversionStart pair) s = execOddConversionStart pair s := rfl

variable {r : Req} {f : RecForm} {d : Dev}

/-! ### The commands -/

/-- Object 8 of ADC is the mains bit: a read answers it (R325). -/
theorem bodyAdc_read_mains (hobject : bits (arg r 2) 31 16 = 8) (hform : recForm r 9 1 = some f) (hread : r.write = false) :
    bodyAdc r d = (f.readReply r [word (b1 d.adcs.mainsNom)], d) := by
  simp [bodyAdc, hobject, hform, hread, Dev.say]

/-- A write of the mains bit waits for the boundary (R325). -/
theorem bodyAdc_write_mains (hobject : bits (arg r 2) 31 16 = 8) (hform : recForm r 9 1 = some f) (hwrite : r.write = true) :
    bodyAdc r d = d.doneAtTick r (.adc 8 0 [f.wordOr 0 0]) := by
  simp [bodyAdc, hobject, hform, hwrite]

/-- A read of a converter's record answers its words (R325). -/
theorem bodyAdc_read (hobject : bits (arg r 2) 31 16 ≠ 8) (hform : recForm r 8 8 = some f) (hread : r.write = false) :
    bodyAdc r d = (f.readReply r (d.adcWords f.index), d) := by
  simp [bodyAdc, hobject, hform, hread, Dev.say]

/-- A valid write of a converter's record clears its flags at once, and its settings wait for the boundary (R325). -/
theorem bodyAdc_write (hobject : bits (arg r 2) 31 16 ≠ 8) (hform : recForm r 8 8 = some f) (hwrite : r.write = true)
    (hgood : d.adcBad f.index f = none) :
    bodyAdc r d = (d.modAdc f.index (fun x => { x with
      refFail := x.refFail && !bit (f.wordOr 4 0) 12, ovrSeen := x.ovrSeen && !bit (f.wordOr 4 0) 11 })).doneAtTick r
        (.adc f.index f.first (f.data.take f.count)) := by
  simp [bodyAdc, hobject, hform, hwrite, hgood]

/-- An urgent conversion of a converter that is not interleaved is accepted (R321, R416). -/
theorem bodyAdcUrgent_accepted (halone : d.interleaved (bits (arg r 2) 2 0) = false) (hfree : LongFree 0x0506 r d) :
    bodyAdcUrgent r d = (.accepted r, (begun 0x0506 r d).modAdc (bits (arg r 2) 2 0) (fun x =>
      { x with urgent := some { input := bits (arg r 3) 4 0, range := bits (arg r 3) 9 8, stage := 0 } })) := by
  simp [bodyAdcUrgent, halone, beginLong_free hfree, Rep.accepted]

/-- A calibration with its value in range goes to the converter that has its input (log entry 25), where none waits there (R323, R416). -/
theorem bodyAdcCal_in_range
    (hvalue : bit (arg r 2) 31 = true → 50 * rangeMicrovolts (bits (arg r 2) 9 8) ≤ 100 * (sval (arg r 3)).natAbs ∧
      100 * (sval (arg r 3)).natAbs ≤ 95 * rangeMicrovolts (bits (arg r 2) 9 8))
    (hfree : LongFree 0x0507 r d) :
    bodyAdcCal r d =
      if (d.adcOf (d.calConverter (bits (arg r 2) 4 0))).cal.isSome then (.busy, d)
      else (.accepted r, ((begun 0x0507 r d).modAdc (d.calConverter (bits (arg r 2) 4 0)) (fun x => { x with cal := some {
        full := bit (arg r 2) 31, input := bits (arg r 2) 4 0, range := bits (arg r 2) 9 8
        vApp := sval (arg r 3) } })).useFresh) := by
  have hrange : ¬ (bit (arg r 2) 31 = true ∧
      (100 * (sval (arg r 3)).natAbs < 50 * rangeMicrovolts (bits (arg r 2) 9 8) ∨
        95 * rangeMicrovolts (bits (arg r 2) 9 8) < 100 * (sval (arg r 3)).natAbs)) := by
    rintro ⟨hfull, hout⟩
    have hin := hvalue hfull
    omega
  simp only [bodyAdcCal, if_neg hrange, beginLong_free hfree, Rep.accepted, if_true, Dev.say]

/-! ### The conversions -/

variable {s : State} {c : Fin 8} {raw : Int}

/-- The window of a busy converter ends the conversion once its time is up (R314). -/
theorem exec_conversionEnd_up (hlive : Live s) (hbusy : (s.dev.adcOf c.val).busy = true)
    (hup : (s.dev.openWindow c.val).timeUp (((s.dev.openWindow c.val).adcOf c.val).conv.startAt +
      ((s.dev.openWindow c.val).adcOf c.val).conv.len) = some d) :
    exec (.conversionEnd c raw) s = .next (withDev s (d.conversionEnd c.val raw)) := by
  rw [exec_conversionEnd, execConversionEnd, onMain_of_live hlive]
  simp only [hbusy, hup, if_true]

/-- Before its time no conversion ends (R314). -/
theorem exec_conversionEnd_early (hlive : Live s)
    (hearly : (s.dev.openWindow c.val).timeUp (((s.dev.openWindow c.val).adcOf c.val).conv.startAt +
      ((s.dev.openWindow c.val).adcOf c.val).conv.len) = none) :
    exec (.conversionEnd c raw) s = .next (withDev s s.dev) := by
  rw [exec_conversionEnd, execConversionEnd, onMain_of_live hlive]
  simp only [hearly, ite_self]

/-- The odd converter of an interleaved pair starts half a conversion after its even one, under the same setting (R320). -/
theorem exec_oddConversionStart_up {pair : Fin 4} {v : AdcConv} (hlive : Live s)
    (hinter : s.dev.interleaved (2 * pair.val) = true) (hbusy : (s.dev.adcOf (2 * pair.val)).busy = true)
    (hodd : (s.dev.adcOf (2 * pair.val + 1)).busy = false) (hpair : (s.dev.adcOf (2 * pair.val)).conv.pair = true)
    (hv : v = ((s.dev.openWindow (2 * pair.val)).adcOf (2 * pair.val)).conv)
    (hup : (s.dev.openWindow (2 * pair.val)).timeUp (v.startAt + v.len / 2) = some d) :
    exec (.oddConversionStart pair) s = .next (withDev s
      (d.startWith (2 * pair.val + 1) v.kind v.input v.range 0 v.tmode v.ncyc v.tfix)) := by
  subst hv
  rw [exec_oddConversionStart, execOddConversionStart, onMain_of_live hlive]
  simp only [hinter, hbusy, hodd, hpair, hup, Bool.not_false, Bool.and_self, if_true]

/-- Settles O26: the record by the write bit (log entry 12) and its object, the two long-running commands by what they find at their
converter (log entry 25), and the conversions by their windows. -/
theorem converterCommands : Obligations.ConverterCommands := by
  refine ⟨?readMains, ?read, ?writeMains, ?write, ?urgent, ?paired, ?cal, ?calBusy, ?coef, ?ends, ?early, ?odd⟩
  case readMains =>
    intro s r f hserved hread hobject hform
    rw [exec_adc]
    exact onMain_iapin_served hserved (readsRec_of_read hread) (bodyAdc_read_mains hobject hform hread)
  case read =>
    intro s r f hserved hread hobject hform
    rw [exec_adc]
    exact onMain_iapin_served hserved (readsRec_of_read hread) (bodyAdc_read hobject hform hread)
  case writeMains =>
    intro s r f hserved hwrite hobject hform
    rw [exec_adc]
    exact onMain_iapin_served hserved (readsRec_of_write hwrite) (bodyAdc_write_mains hobject hform hwrite)
  case write =>
    intro s r f d hserved hwrite hobject hform hgood hd
    subst hd
    rw [exec_adc]
    exact onMain_iapin_served hserved (readsRec_of_write hwrite) (bodyAdc_write hobject hform hwrite hgood)
  case urgent =>
    intro s r hserved halone hfree
    rw [exec_adcUrgent]
    exact onMain_iapin_served hserved rfl (bodyAdcUrgent_accepted halone hfree)
  case paired =>
    intro s r hserved hpaired
    rw [exec_adcUrgent]
    exact onMain_iapin_served hserved rfl (by simp only [bodyAdcUrgent, if_pos hpaired, Dev.say])
  case cal =>
    intro s r full fs c hserved hfull hfs hvalue hfree hc hnone
    subst hfull hfs hc
    have hidle : ¬ (s.dev.adcOf (s.dev.calConverter (bits (arg r 2) 4 0))).cal.isSome = true := by simp [hnone]
    rw [exec_adcCal]
    exact onMain_iapin_served hserved rfl ((bodyAdcCal_in_range hvalue hfree).trans (if_neg hidle))
  case calBusy =>
    intro s r full fs c hserved hfull hfs hvalue hfree hc hwaits
    subst hfull hfs hc
    rw [exec_adcCal]
    exact onMain_iapin_served hserved rfl
      ((bodyAdcCal_in_range hvalue hfree).trans (if_pos (Option.isSome_iff_ne_none.2 hwaits)))
  case coef =>
    intro s r f hserved hform
    rw [exec_adcCoef]
    exact onMain_iapin_served hserved rfl
      (recRead_in_range (words := fun d i => (tblGet ({} : AdcCoef) d.adcs.coefs i).words) hform)
  case ends =>
    intro s c raw o d hlive hbusy ho hup
    subst ho
    exact exec_conversionEnd_up hlive hbusy hup
  case early =>
    intro s c raw o hlive ho hearly
    subst ho
    exact exec_conversionEnd_early hlive hearly
  case odd =>
    intro s pair e o d v hlive he hinter hbusy hodd hpair ho hv hup
    subst he ho
    exact exec_oddConversionStart_up hlive hinter hbusy hodd hpair hv hup

end Sys2Proof.Proofs
end

section
/-!
PROOFS. The timers of the start sequence (R446, R447).
-/

namespace Sys2Proof.Proofs

open Sys2Proof.Machine Sys2Proof.Safety

theorem exec_fbTimeExpiry (s : State) : exec .fbTimeExpiry s = execFbTimeExpiry s := rfl

theorem exec_preTimeout (s : State) : exec .preTimeout s = execPreTimeout s := rfl

theorem exec_syncTimeout (s : State) : exec .syncTimeout s = execSyncTimeout s := rfl

theorem exec_feedbackDisagree (s : State) : exec .feedbackDisagree s = execFeedbackDisagree s := rfl

variable {s : State} {d e : Dev} {r t : Nat}

/-- A timer that is up notes its reason for the next run of the sequence (R446; log entry 114). -/
theorem tripAt_up (hup : d.timeUp t = some e) : d.tripAt r t = e.tripReason r := by simp only [Dev.tripAt, hup]

/-- A timer that is not up notes nothing (R446). -/
theorem tripAt_early (hearly : d.timeUp t = none) : d.tripAt r t = d := by simp only [Dev.tripAt, hearly]

/-- In PRECHARGE the feedback time runs from PRE_CMD until PRE_FB has risen (R446). -/
theorem exec_fbTimeExpiry_in_precharge (hlive : Live s) (hstate : s.dev.pwr.start = .precharge) :
    exec .fbTimeExpiry s = .next (withDev s
      (if s.dev.preInTime then s.dev else s.dev.tripAt 1 (s.dev.pwr.preCmdTime + msCycles s.dev.cfg.fbTime))) := by
  rw [exec_fbTimeExpiry, execFbTimeExpiry, onMain_of_live hlive]
  cases hrose : s.dev.preInTime <;> simp [hstate]

/-- In CLOSING the feedback time runs from MAIN_CMD until MAIN_FB has risen, and then from PRE_CMD until PRE_FB has fallen (R446). -/
theorem exec_fbTimeExpiry_in_closing (hlive : Live s) (hstate : s.dev.pwr.start = .closing) :
    exec .fbTimeExpiry s = .next (withDev s
      (if s.dev.pwr.preCmd then
        (if s.dev.pwr.mainFb then s.dev else s.dev.tripAt 2 (s.dev.pwr.mainCmdTime + msCycles s.dev.cfg.fbTime))
       else if s.dev.pwr.preFb then s.dev.tripAt 2 (s.dev.pwr.preCmdTime + msCycles s.dev.cfg.fbTime) else s.dev)) := by
  rw [exec_fbTimeExpiry, execFbTimeExpiry, onMain_of_live hlive]
  cases hcmd : s.dev.pwr.preCmd
  · simp [hstate, hcmd]
  · cases hfb : s.dev.pwr.mainFb <;> simp [hstate, hcmd, hfb]

/-- From PRECHARGE to RUN one feedback that has disagreed long enough notes reason 7 (R446). -/
theorem exec_feedbackDisagree_of_one (hlive : Live s) (hstate : s.dev.pwr.start.live = true)
    (hone : [s.dev.disagreeEnd s.dev.pwr.preCmdTime s.dev.pwr.preDiff,
      s.dev.disagreeEnd s.dev.pwr.mainCmdTime s.dev.pwr.mainDiff].filterMap id = [t]) :
    exec .feedbackDisagree s = .next (withDev s (s.dev.tripAt 7 t)) := by
  rw [exec_feedbackDisagree, execFeedbackDisagree, onMain_of_live hlive]
  simp only [hone, hstate, if_true, List.foldl_nil]

/-- Settles O15: each timer by the state that it belongs to, and each reason by whether its time is up. -/
theorem startSequenceTimers : Obligations.StartSequenceTimers := by
  refine ⟨?notRisen, ?early, ?inTime, ?mainFb, ?preFb, ?precharge, ?sync, ?preDisagrees, ?mainDisagrees, ?agree⟩
  case notRisen =>
    intro s d hlive hstate hrose hup
    rw [exec_fbTimeExpiry_in_precharge hlive hstate, hrose, if_neg Bool.false_ne_true, tripAt_up hup]
  case early =>
    intro s hlive hstate hrose hearly
    rw [exec_fbTimeExpiry_in_precharge hlive hstate, hrose, if_neg Bool.false_ne_true, tripAt_early hearly]
  case inTime =>
    intro s hlive hstate hrose
    rw [exec_fbTimeExpiry_in_precharge hlive hstate, if_pos hrose]
  case mainFb =>
    intro s d hlive hstate hcmd hfb hup
    rw [exec_fbTimeExpiry_in_closing hlive hstate, if_pos hcmd, hfb, if_neg Bool.false_ne_true, tripAt_up hup]
  case preFb =>
    intro s d hlive hstate hcmd hfb hup
    rw [exec_fbTimeExpiry_in_closing hlive hstate, hcmd, if_neg Bool.false_ne_true, if_pos hfb, tripAt_up hup]
  case precharge =>
    intro s d hlive hstate hup
    rw [exec_preTimeout, execPreTimeout, onMain_of_live hlive, if_pos (by simp [hstate]), tripAt_up hup]
  case sync =>
    intro s d hlive hstate hup
    rw [exec_syncTimeout, execSyncTimeout, onMain_of_live hlive, if_pos (by simp [hstate]), tripAt_up hup]
  case preDisagrees =>
    intro s t d hlive hstate hpre hmain hup
    rw [exec_feedbackDisagree_of_one hlive hstate (by rw [hpre, hmain]; rfl), tripAt_up hup]
  case mainDisagrees =>
    intro s t d hlive hstate hpre hmain hup
    rw [exec_feedbackDisagree_of_one hlive hstate (by rw [hpre, hmain]; rfl), tripAt_up hup]
  case agree =>
    intro s hlive hpre hmain
    rw [exec_feedbackDisagree, execFeedbackDisagree, onMain_of_live hlive]
    simp [Dev.disagreeEnd, hpre, hmain]

end Sys2Proof.Proofs
end

section
/-!
PROOFS. Interrupt causes, the QSPI port and the PCIe functions (R390, R392 to R394, R408, R409).
-/

namespace Sys2Proof.Proofs

open Sys2Proof.Machine Sys2Proof.Safety

theorem exec_intCauseClear (m : Master) (v : Word) (s : State) : exec (.intCauseClear m v) s =
    onMain (fun d => d.guarded m 0 (fun d => d.clearCauses (masterId m) v)) s := rfl

theorem exec_qspiStatus (s : State) : exec .qspiStatus s = onMain Dev.qspiStatus s := rfl

theorem exec_qspiProtocolError (s : State) : exec .qspiProtocolError s = onMain Dev.qspiError s := rfl

theorem exec_perstN (s : State) : exec .perstN s = onMain (fun d => (d.resetFn 0).resetFn 1) s := rfl

theorem exec_functionLevelReset (f : Fin 2) (s : State) :
    exec (.functionLevelReset f) s = onMain (fun d => d.resetFn f.val) s := rfl

theorem exec_pcieLinkDown (s : State) : exec .pcieLinkDown s = onMain (fun d => d.retrainPcie.event 0x0A0 0) s := rfl

theorem exec_powerStateChange (f : Fin 2) (d3hot : Bool) (s : State) :
    exec (.powerStateChange f d3hot) s = execPowerStateChange f d3hot s := rfl

/-- Settles O12: the write by the access table, the port's and the functions' events by their own rules (log entry 183), and the power
state by the one that it leaves. -/
theorem hostPortEvents : Obligations.HostPortEvents := by
  refine ⟨?clear, ?status, ?error, ?perst, ?flr, ?linkDown, ?sleeps, ?awake, ?wakes⟩
  case clear =>
    intro s m v hwrite
    rw [exec_intCauseClear, onMain_guarded hwrite]
  case status =>
    intro s hlive
    rw [exec_qspiStatus, onMain_of_live hlive, Dev.qspiStatus]
  case error =>
    intro s hlive
    rw [exec_qspiProtocolError, onMain_of_live hlive, Dev.qspiError]
  case perst =>
    intro s hlive
    rw [exec_perstN, onMain_of_live hlive]
    rfl
  case flr =>
    intro s f hlive
    rw [exec_functionLevelReset, onMain_of_live hlive, Dev.resetFn]
  case linkDown =>
    intro s hlive
    rw [exec_pcieLinkDown, onMain_of_live hlive, Dev.retrainPcie]
  case sleeps =>
    intro s f hlive
    rw [exec_powerStateChange, execPowerStateChange, onMain_of_live hlive, if_neg (by simp)]
  case awake =>
    intro s f hlive hwas
    rw [exec_powerStateChange, execPowerStateChange, onMain_of_live hlive, if_neg (by simp [hwas])]
  case wakes =>
    intro s f d hlive hwas hd
    subst hd
    rw [exec_powerStateChange, execPowerStateChange, onMain_of_live hlive, if_pos (by simp [hwas])]

end Sys2Proof.Proofs
end

section
/-!
PROOFS. TEST_MODE, LOOPBACK, INJECT, CAPTURE and TELEMETRY, and the checkers of a lane under test (R367, R411, R429, R454, R455, R457,
R458, R460 to R463).
-/

namespace Sys2Proof.Proofs

open Sys2Proof.Machine Sys2Proof.Safety

theorem exec_testMode (r : Req) (s : State) : exec (.testMode r) s = onMain (iapin 0x0801 writes bodyTestMode r) s := rfl

theorem exec_loopback (r : Req) (s : State) : exec (.loopback r) s = onMain (iapin 0x0802 writes bodyLoopback r) s := rfl

theorem exec_inject (r : Req) (s : State) : exec (.inject r) s = onMain (iapin 0x0803 writes bodyInject r) s := rfl

theorem exec_capture (r : Req) (s : State) : exec (.capture r) s = onMain (iapin 0x0804 writes bodyCapture r) s := rfl

theorem exec_telemetry (r : Req) (s : State) : exec (.telemetry r) s = onMain (iapin 0x0805 writes bodyTelemetry r) s := rfl

theorem exec_prbsCheckerLock (cls : LaneClass) (lane : Fin 256) (s : State) :
    exec (.prbsCheckerLock cls lane) s = execPrbsCheckerLock cls lane s := rfl

theorem exec_prbsCheckerLockLost (cls : LaneClass) (lane : Fin 256) (s : State) :
    exec (.prbsCheckerLockLost cls lane) s = execPrbsCheckerLockLost cls lane s := rfl

theorem exec_telemetrySend (s : State) : exec .telemetrySend s = execTelemetrySend s := rfl

variable {r : Req} {d : Dev} {s : State}

/-- Commissioning mode waits for the boundary; it is switched on with no safety output energised only (R454). -/
theorem bodyTestMode_off (hoff : bit (arg r 2) 0 = true → d.outputsOn = false) :
    bodyTestMode r d = d.doneAtTick r (.testMode (bit (arg r 2) 0)) := by
  have hallowed : ¬ (bit (arg r 2) 0 && d.outputsOn) = true := by
    rw [Bool.and_eq_true]
    rintro ⟨hon, hout⟩
    simp [hoff hon] at hout
  rw [bodyTestMode, if_neg hallowed]

/-- A LOOPBACK word names a lane of the part and a mode of its class (R457). -/
def LoopbackArgs (d : Dev) (w : Word) : Prop :=
  ¬ (bits w 31 19 ≠ 0 ∨ bits w 7 2 ≠ 0 ∨ d.laneCount (bits w 1 0) ≤ bits w 15 8) ∧
    ¬ (bits w 1 0 = 3 ∧ (bits w 17 16 = 1 ∨ bits w 17 16 = 2))

theorem loopbackArgs_of_fields {w : Word} (hfields : bits w 31 19 = 0) (hzero : bits w 7 2 = 0)
    (hlane : bits w 15 8 < d.laneCount (bits w 1 0))
    (hmode : bits w 1 0 = 3 → bits w 17 16 ≠ 1 ∧ bits w 17 16 ≠ 2) : LoopbackArgs d w := by
  refine ⟨by omega, ?_⟩
  rintro ⟨hpcie, hbad⟩
  have hgood := hmode hpcie
  omega

/-- A LOOPBACK read, in commissioning with no output on, counts the lane's errors, answers its record and clears LOCK_LOST (R454, R461). -/
theorem bodyLoopback_read (hargs : LoopbackArgs d (arg r 2)) (hcommissioning : d.test.commissioning = true)
    (houtputs : d.outputsOn = false) (hread : bit (arg r 2) 18 = true) :
    bodyLoopback r d =
      (.ok (arg r 2 :: (d.countErrors (laneKey (bits (arg r 2) 1 0) (bits (arg r 2) 15 8))).laneWords
          (laneKey (bits (arg r 2) 1 0) (bits (arg r 2) 15 8))),
        (d.countErrors (laneKey (bits (arg r 2) 1 0) (bits (arg r 2) 15 8))).modLane
          (laneKey (bits (arg r 2) 1 0) (bits (arg r 2) 15 8)) (fun x => { x with lockLost := false })) := by
  obtain ⟨hword, hclass⟩ := hargs
  simp only [bodyLoopback, if_neg hword, if_neg hclass, hcommissioning, houtputs, hread, Bool.not_true, Bool.false_eq_true,
    if_false, if_true]

/-- A LOOPBACK mode that neither the lane's state nor an injection forbids waits for the boundary (R454, R457, R466). -/
theorem bodyLoopback_mode (hargs : LoopbackArgs d (arg r 2)) (hcommissioning : d.test.commissioning = true)
    (houtputs : d.outputsOn = false) (hwrite : bit (arg r 2) 18 = false)
    (hreason : d.loopbackReason r.chan.val (bits (arg r 2) 1 0) (bits (arg r 2) 15 8) = none)
    (hinjected : bits (arg r 2) 17 16 ≠ 0 → bits (arg r 2) 1 0 ≠ 3 →
      d.injected (bits (arg r 2) 1 0) (bits (arg r 2) 15 8) = false) :
    bodyLoopback r d = d.doneAtTick r (.loopback (laneKey (bits (arg r 2) 1 0) (bits (arg r 2) 15 8)) (bits (arg r 2) 17 16)) := by
  obtain ⟨hword, hclass⟩ := hargs
  have hclear : ¬ (bits (arg r 2) 17 16 ≠ 0 ∧ bits (arg r 2) 1 0 ≠ 3 ∧
      d.injected (bits (arg r 2) 1 0) (bits (arg r 2) 15 8) = true) := by
    rintro ⟨hon, hlane, hinj⟩
    simp [hinjected hon hlane] at hinj
  simp only [bodyLoopback, if_neg hword, if_neg hclass, hcommissioning, houtputs, hwrite, hreason, if_neg hclear, Bool.not_true,
    Bool.false_eq_true, if_false]

/-- An injection into a ready lane waits for the boundary (R462, R463). -/
theorem bodyInject_ready
    (hargs : d.injectBad (bits (arg r 2) 1 0) (bits (arg r 2) 15 8) (bits (arg r 2) 16 16) (bits (arg r 3) 2 0)
      (bits (arg r 3) 15 8) (arg r 4).toNat = none)
    (haction : bits (arg r 3) 2 0 ≠ 0) (hcommissioning : d.test.commissioning = true) (houtputs : d.outputsOn = false)
    (hready : d.injectReady (bits (arg r 2) 1 0) (bits (arg r 2) 15 8) = true) :
    bodyInject r d = d.doneAtTick r (.inject (injKey (bits (arg r 2) 1 0) (bits (arg r 2) 15 8) (bits (arg r 2) 16 16))
      (bits (arg r 3) 2 0) (bits (arg r 3) 15 8) (arg r 4).toNat) := by
  simp [bodyInject, hargs, haction, hcommissioning, houtputs, hready]

/-- The device among whose stops that of a request waits, on an injection's key, for the tick in which it lands (R462). -/
def stopping (d : Dev) (r : Req) (key : Nat) : Dev :=
  { d with test := { d.test with
      stops := d.test.stops ++ [{ req := r, key := key, tick := d.landTickOf (.inject key 0 0 0) }] } }

/-- Action 0 stops an injection at the boundary (R462). -/
theorem bodyInject_stop (haction : bits (arg r 3) 2 0 = 0)
    (hargs : d.injectBad (bits (arg r 2) 1 0) (bits (arg r 2) 15 8) (bits (arg r 2) 16 16) 0 (bits (arg r 3) 15 8)
      (arg r 4).toNat = none) :
    bodyInject r d =
      (.ok [d.landTickOf (.inject (injKey (bits (arg r 2) 1 0) (bits (arg r 2) 15 8) (bits (arg r 2) 16 16)) 0 0 0)],
        (stopping d r (injKey (bits (arg r 2) 1 0) (bits (arg r 2) 15 8) (bits (arg r 2) 16 16))).landFor r
          (.inject (injKey (bits (arg r 2) 1 0) (bits (arg r 2) 15 8) (bits (arg r 2) 16 16)) 0 0 0)) := by
  simp only [bodyInject, haction, hargs, if_true, stopping]

/-- While its stop waits, a request gets no answer (R462). -/
theorem give_stopping (key : Nat) (l : Landing) (p : Rep) :
    ((stopping d r key).landFor r l).give 0x0803 false r p = (stopping d r key).landFor r l := by
  simp [Dev.give, stopping]

/-- A stop that lands ends the injection and answers the request that waits for it (R462). -/
theorem landInject_stop {key : Nat} {x : StopWait} (hfind : d.test.stops.find? (fun y => y.key == key) = some x) :
    landInject key 0 0 0 d = ({ d with test := { d.test with
        injections := tblSet {} d.test.injections key {}, stops := d.test.stops.erase x } } : Dev).answer 0x0803 x.req
      (.ok [x.tick, word (d.injectCount key)]) := by
  simp [landInject, Dev.answerStop, hfind]

/-- A telemetry period from 1 to 3600 waits for the boundary (R367). -/
theorem bodyTelemetry_in_range (hlo : 1 ≤ (arg r 3).toNat) (hhi : (arg r 3).toNat ≤ 3600) :
    bodyTelemetry r d = d.doneAtTick r (.telemetry (arg r 2) (arg r 3).toNat) := by
  have hrange : ¬ ((arg r 3).toNat = 0 ∨ 3600 < (arg r 3).toNat) := by omega
  simp only [bodyTelemetry, if_neg hrange]

/-- Settles O38: each body passes its checks, the checkers act by the lane's mode and lock (log entry 99), and a telemetry that is due
goes out (log entry 27). -/
theorem testCommandsServed : Obligations.TestCommandsServed := by
  refine ⟨?testMode, ?read, ?mode, ?lock, ?lockLost, ?inject, ?stop, ?stopLands, ?capture, ?telemetry, ?send⟩
  case testMode =>
    intro s r hserved hoff
    rw [exec_testMode]
    exact onMain_iapin_served hserved rfl (bodyTestMode_off hoff)
  case read =>
    intro s r w k d hserved hw hfields hzero hlane hmode hcommissioning houtputs hread hk hd
    subst hw hd hk
    rw [exec_loopback]
    exact onMain_iapin_served hserved rfl
      (bodyLoopback_read (loopbackArgs_of_fields hfields hzero hlane hmode) hcommissioning houtputs hread)
  case mode =>
    intro s r w hserved hw hfields hzero hlane hmode hcommissioning houtputs hwrite hreason hinjected
    subst hw
    rw [exec_loopback]
    exact onMain_iapin_served hserved rfl (bodyLoopback_mode (loopbackArgs_of_fields hfields hzero hlane hmode) hcommissioning
      houtputs hwrite hreason hinjected)
  case lock =>
    intro s cls lane k hlive hk hmode hunlocked
    subst hk
    rw [exec_prbsCheckerLock, execPrbsCheckerLock, onMain_of_live hlive, if_pos ⟨hmode, by simp [hunlocked]⟩]
  case lockLost =>
    intro s cls lane k d hlive hk hlocked hd
    subst hd hk
    rw [exec_prbsCheckerLockLost, execPrbsCheckerLockLost, onMain_of_live hlive, if_pos hlocked]
  case inject =>
    intro s r cls lane dir act n hserved hcls hlane hdir hact hn hargs haction hcommissioning houtputs hready
    subst hcls hlane hdir hact hn
    rw [exec_inject]
    exact onMain_iapin_served hserved rfl (bodyInject_ready hargs haction hcommissioning houtputs hready)
  case stop =>
    intro s r cls lane dir key t e hserved hcls hlane hdir haction hargs hkey ht he
    subst he ht hkey hcls hlane hdir
    rw [exec_inject, onMain_iapin_served hserved rfl (bodyInject_stop haction hargs), taken, give_stopping]
    rfl
  case stopLands =>
    intro d key x e hfind he
    subst he
    exact landInject_stop hfind
  case capture =>
    intro s r hserved
    rw [exec_capture]
    exact onMain_iapin_served hserved rfl rfl
  case telemetry =>
    intro s r hserved hlo hhi
    rw [exec_telemetry]
    exact onMain_iapin_served hserved rfl (bodyTelemetry_in_range hlo hhi)
  case send =>
    intro s d hlive hperiod hmask hdue hd
    subst hd
    have hsends : ¬ (s.dev.eth.telePeriod = 0 ∨ s.dev.eth.teleMask = 0 ∨ s.dev.now < s.dev.eth.teleDue) := by
      rintro (h | h | h)
      · exact hperiod h
      · exact hmask h
      · omega
    rw [exec_telemetrySend, execTelemetrySend, onMain_of_live hlive, if_neg hsends]

end Sys2Proof.Proofs
end

section
/-!
PROOFS. PORT, the links of the ports and low-power idle, and LAUNCH (R348, R350, R352, R357, R358, R361, R411, R412, R459).
-/

namespace Sys2Proof.Proofs

open Sys2Proof.Machine Sys2Proof.Safety

theorem exec_port (r : Req) (s : State) : exec (.port r) s = onMain (iapin 0x0030 readsRec bodyPort r) s := rfl

theorem exec_ethLinkUp (p : Fin 2) (s : State) : exec (.ethLinkUp p) s = execEthLinkUp p s := rfl

theorem exec_ethLinkDown (p : Fin 2) (s : State) : exec (.ethLinkDown p) s = onMain (fun d => d.ethDown p.val) s := rfl

theorem exec_lpiEntry (p : Fin 2) (s : State) : exec (.lpiEntry p) s = execLpiEntry p s := rfl

theorem exec_launch (p : Fin 2) (s : State) : exec (.launch p) s = execLaunch p s := rfl

variable {r : Req} {f : RecForm} {d e : Dev} {s : State} {p : Fin 2}

/-! ### The record and the links -/

/-- A read of a port's record answers its words (R361, R412). -/
theorem bodyPort_read (hform : recForm r d.portCount 6 = some f) (hread : r.write = false) :
    bodyPort r d = (f.readReply r (d.portWords f.index), d) := by
  simp [bodyPort, hform, hread, Dev.say]

/-- A write of a port's record whose word 0, where it carries one, is right waits for the boundary (R361). -/
theorem bodyPort_write (hform : recForm r d.portCount 6 = some f) (hwrite : r.write = true)
    (hword0 : ∀ w, f.wordFor 0 = some w → d.portWord0Bad w = false) :
    bodyPort r d = d.doneAtTick r (.port f.index f.first (f.data.take f.count)) := by
  have hgood : ((f.wordFor 0).map d.portWord0Bad).getD false = false := by
    cases hword : f.wordFor 0 with
    | none => rfl
    | some w => exact hword0 w hword
  simp [bodyPort, hform, hwrite, hgood]

/-- LPI_IDLE without a frame to send ends in low-power idle where the port may enter it (R350). -/
theorem exec_lpiEntry_up (hlive : Live s)
    (hup : s.dev.timeUp ((s.dev.portOf p.val).idleAt + 1250 * (s.dev.portOf p.val).lpiIdle) = some e) :
    exec (.lpiEntry p) s =
      .next (withDev s (if e.mayIdle p.val then e.modPort p.val (fun x => { x with lpiTx := true }) else s.dev)) := by
  rw [exec_lpiEntry, execLpiEntry, onMain_of_live hlive]
  simp only [hup]

/-- Settles O39: the record by the write bit (log entry 12), the link by the part, the mode and the test, and low-power idle by its
time and what the port has to send. -/
theorem portRecordAndLinks : Obligations.PortRecordAndLinks := by
  refine ⟨?read, ?write, ?up, ?notUp, ?down, ?idles, ?early, ?stays⟩
  case read =>
    intro s r f hserved hread hform
    rw [exec_port]
    exact onMain_iapin_served hserved (readsRec_of_read hread) (bodyPort_read hform hread)
  case write =>
    intro s r f hserved hwrite hform hword0
    rw [exec_port]
    exact onMain_iapin_served hserved (readsRec_of_write hwrite) (bodyPort_write hform hwrite hword0)
  case up =>
    intro s p hlive hpart hmode htest
    rw [exec_ethLinkUp, execEthLinkUp, onMain_of_live hlive, if_pos ⟨hpart, hmode, by simp [htest]⟩]
  case notUp =>
    intro s p hlive hstays
    have hdown : ¬ (p.val < s.dev.portCount ∧ (s.dev.portOf p.val).mode ≠ 0 ∧ !s.dev.underTest 2 p.val) := by
      rintro ⟨hpart, hmode, htest⟩
      rcases hstays with h | h | h
      · omega
      · exact hmode h
      · simp [h] at htest
    rw [exec_ethLinkUp, execEthLinkUp, onMain_of_live hlive, if_neg hdown]
  case down =>
    intro s p hlive
    rw [exec_ethLinkDown, onMain_of_live hlive]
  case idles =>
    intro s p e hlive hup heee hlink hsecond hqueue hsoon
    have hmay : e.mayIdle p.val = true := by simpa [Dev.mayIdle, heee, hlink, hsecond, hsoon] using hqueue
    rw [exec_lpiEntry_up hlive hup, if_pos hmay]
  case early =>
    intro s p hlive hearly
    rw [exec_lpiEntry, execLpiEntry, onMain_of_live hlive]
    simp only [hearly]
  case stays =>
    intro s p e hlive hup hbusy
    have hmay : ¬ e.mayIdle p.val = true := by rcases hbusy with h | h | h | h <;> simp [Dev.mayIdle, h]
    rw [exec_lpiEntry_up hlive hup, if_neg hmay]

/-! ### The head of a launch queue -/

variable {x : LaunchFrame} {rest : List LaunchFrame}

/-- A head with a launch time is dropped where it is lost, and waits where its time is not reached in this tick; else it is sent, or
dropped on a port without a link (R352, R357; log entries 102 and 181). -/
theorem exec_launch_timed (hlive : Live s) (hqueue : ((s.dev.atWake p.val).portOf p.val).queue = x :: rest) (hbase : x.base ≠ 0) :
    exec (.launch p) s = .next (withDev s ((if (s.dev.atWake p.val).launchLost x then (s.dev.atWake p.val).missHead p.val
      else (((s.dev.atWake p.val).atLaunch x).map (fun e => if (e.portOf p.val).linkUp then
        (e.modPort p.val (fun y => { y with queue := y.queue.drop 1 })).sendOwn p.val x
        else e.missHead p.val)).getD (s.dev.atWake p.val)).settlePort p.val)) := by
  rw [exec_launch, execLaunch, onMain_of_live hlive]
  simp only [hqueue, if_neg hbase]
  cases (s.dev.atWake p.val).atLaunch x with
  | none => rfl
  | some e => cases hlink : (e.portOf p.val).linkUp <;> simp [hlink]

/-- Settles O40: the head by its time base, its time and the port's link, after which the port looks at its queues. -/
theorem launchSendsOrMisses : Obligations.LaunchSendsOrMisses := by
  refine ⟨?sent, ?lost, ?noLink, ?waits, ?empty⟩
  case sent =>
    intro s p d e f rest hlive hd hqueue hbase hlost hat hlink
    subst hd
    rw [exec_launch_timed hlive hqueue hbase, hlost, hat]
    simp [hlink]
  case lost =>
    intro s p d f rest hlive hd hqueue hbase hlost
    subst hd
    rw [exec_launch_timed hlive hqueue hbase, if_pos hlost, Dev.missHead]
  case noLink =>
    intro s p d e f rest hlive hd hqueue hbase hlost hat hlink
    subst hd
    rw [exec_launch_timed hlive hqueue hbase, hlost, hat]
    simp [hlink]
  case waits =>
    intro s p d f rest hlive hd hqueue hbase hlost hat
    subst hd
    rw [exec_launch_timed hlive hqueue hbase, hlost, hat]
    simp
  case empty =>
    intro s p d hlive hd hqueue
    subst hd
    rw [exec_launch, execLaunch, onMain_of_live hlive]
    simp only [hqueue]

end Sys2Proof.Proofs
end

section
/-!
PROOFS. FRAME_SEND, received and coordination frames, reports, PTP and the timestamp entries (R349, R354 to R358, R362 to R364, R366,
R429, R463).
-/

namespace Sys2Proof.Proofs

open Sys2Proof.Machine Sys2Proof.Safety

theorem exec_frameSend (r : Req) (s : State) : exec (.frameSend r) s = onMain (iapin 0x0713 writes bodyFrameSend r) s := rfl

theorem exec_ptp (r : Req) (s : State) : exec (.ptp r) s = onMain (iapin 0x0712 writes bodyPtp r) s := rfl

theorem exec_frameReceive (p : Fin 2) (f : EthFrame) (s : State) :
    exec (.frameReceive p f) s = onMain (fun d => d.rxPort p.val (.inl f)) s := rfl

theorem exec_coordinationFrame (p : Fin 2) (f : CoordFrame) (s : State) :
    exec (.coordinationFrame p f) s = onMain (fun d => d.rxPort p.val (.inr f)) s := rfl

theorem exec_epochReport (cause : ReportCause) (s : State) : exec (.epochReport cause) s = execEpochReport cause s := rfl

theorem exec_ptpServoHoldover (n : Fin 2) (s : State) : exec (.ptpServoHoldover n) s = execPtpServoHoldover n s := rfl

theorem exec_entry0Read (m : WordRead) (p : Fin 2) (s : State) :
    exec (.entry0Read m p) s = onMain (fun d => d.served m.master (Dev.readEntry0 m p.val)) s := rfl

theorem exec_entry3Read (m : WordRead) (p : Fin 2) (s : State) :
    exec (.entry3Read m p) s = onMain (fun d => d.served m.master (Dev.readEntry3 m p.val)) s := rfl

variable {r : Req} {d e : Dev} {s : State} {p : Nat}

/-! ### Frames of the host -/

/-- The bytes that a FRAME_SEND queues: an own request with a launch time carries that time in a chain (R357, R360). -/
def framedBytes (d : Dev) (r : Req) : List Byte :=
  match ptpOf (memBytes d.bar2 (arg r 6).toNat (arg r 7).toNat) with
  | some m =>
    if d.chained && (m.typ == 1 || m.typ == 2) && decide (bits (arg r 2) 2 1 ≠ 0) then
      setOrigin (memBytes d.bar2 (arg r 6).toNat (arg r 7).toNat) m (join48 (arg r 3) (arg r 4)) (arg r 5).toNat
    else memBytes d.bar2 (arg r 6).toNat (arg r 7).toNat
  | none => memBytes d.bar2 (arg r 6).toNat (arg r 7).toNat

/-- A frame with its words in range is queued where the queue has room, with its launch time in PTP units (R357, R429). -/
theorem bodyFrameSend_queued (hport : bits (arg r 2) 0 0 < d.portCount) (hbase : bits (arg r 2) 2 1 ≠ 3)
    (htime : bits (arg r 2) 2 1 ≠ 0 →
      (arg r 5).toNat < 1000000000 ∧ (d.baseOf (bits (arg r 2) 2 1 - 1)).valid = true)
    (hlo : areaLo ≤ (arg r 6).toNat) (hhi : (arg r 6).toNat + (arg r 7).toNat ≤ areaEnd) (hsome : 1 ≤ (arg r 7).toNat)
    (hshort : (arg r 7).toNat ≤ 1518) (hroom : (d.portOf (bits (arg r 2) 0 0)).queue.length < 32) :
    bodyFrameSend r d = (d.enqueue (bits (arg r 2) 0 0) { base := bits (arg r 2) 2 1
                                                          time := (join48 (arg r 3) (arg r 4) * 1000000000 +
                                                            (arg r 5).toNat) * 2 ^ 16
                                                          bytes := framedBytes d r }).doneNow := by
  have hword2 : ¬ (d.portCount ≤ bits (arg r 2) 0 0 ∨ bits (arg r 2) 2 1 = 3) := by omega
  have hword5 : ¬ (1000000000 ≤ (arg r 5).toNat ∧ bits (arg r 2) 2 1 ≠ 0) := by
    rintro ⟨hbig, htimed⟩
    have hsmall := (htime htimed).1
    omega
  have hword6 : ¬ ((arg r 6).toNat < areaLo ∨ areaEnd < (arg r 6).toNat + (arg r 7).toNat) := by omega
  have hword7 : ¬ ((arg r 7).toNat = 0 ∨ 1518 < (arg r 7).toNat) := by omega
  have hvalid : ¬ (decide (bits (arg r 2) 2 1 ≠ 0) && !(d.baseOf (bits (arg r 2) 2 1 - 1)).valid) = true := by
    rw [Bool.and_eq_true, decide_eq_true_eq]
    rintro ⟨htimed, hinvalid⟩
    simp [(htime htimed).2] at hinvalid
  have hfree : ¬ 32 ≤ (d.portOf (bits (arg r 2) 0 0)).queue.length := by omega
  simp only [bodyFrameSend, if_neg hword2, if_neg hword5, if_neg hword6, if_neg hword7, if_neg hvalid, if_neg hfree]
  rfl

/-! ### Received frames -/

/-- A frame on which an injection of the port acts is held, spoilt or lost (R463, R465; log entries 201 and 202). -/
theorem rxPort_struck {f : EthFrame ⊕ CoordFrame} {i : Injection} (hpart : p < d.portCount) (hlink : (d.portOf p).linkUp = true)
    (hunit : d.injectUnit (injKey 2 p 1) = (some i, e)) : d.rxPort p f = e.rxStruck p f i := by
  have hup : ¬ (d.portCount ≤ p ∨ !(d.portOf p).linkUp) := by simp [hlink, hpart]
  simp only [Dev.rxPort, if_neg hup, hunit]

/-- A frame on which no injection acts is received (R349, R463). -/
theorem rxPort_passed {f : EthFrame ⊕ CoordFrame} (hpart : p < d.portCount) (hlink : (d.portOf p).linkUp = true)
    (hunit : d.injectUnit (injKey 2 p 1) = (none, e)) (hheld : (e.portOf p).heldRx = none) :
    d.rxPort p f = (e.modPort p (fun x => { x with heldRx := none })).rxAny p f := by
  have hup : ¬ (d.portCount ≤ p ∨ !(d.portOf p).linkUp) := by simp [hlink, hpart]
  simp only [Dev.rxPort, if_neg hup, hunit, hheld]

/-- A frame that was held is received after it (R463). -/
theorem rxPort_passed_held {f g : EthFrame ⊕ CoordFrame} (hpart : p < d.portCount) (hlink : (d.portOf p).linkUp = true)
    (hunit : d.injectUnit (injKey 2 p 1) = (none, e)) (hheld : (e.portOf p).heldRx = some g) :
    d.rxPort p f = ((e.modPort p (fun x => { x with heldRx := none })).rxAny p f).rxAny p g := by
  have hup : ¬ (d.portCount ≤ p ∨ !(d.portOf p).linkUp) := by simp [hlink, hpart]
  simp only [Dev.rxPort, if_neg hup, hunit, hheld]

/-- A coordination frame that its checks reject is counted only (R363). -/
theorem takeCoord_bad {f : CoordFrame} (hbad : d.coordBad f.words = true) :
    d.takeCoord p f = { d with eth := { d.eth with coordDrop := d.eth.coordDrop + 1 } } := by
  rw [Dev.takeCoord, if_pos hbad]

/-- A coordination frame that its checks pass is noted with its sender, and a single device or an active acts on it (R363). -/
theorem takeCoord_good {f : CoordFrame} (hgood : d.coordBad f.words = false)
    (hacts : d.ply.role = .single ∨ d.isMember = true ∧ d.ply.pstate = .active) :
    d.takeCoord p f = ({ d with eth := { d.eth with
        lastSeqOf := tblSet none d.eth.lastSeqOf (bits (wat f.words 2) 31 16) (some (wat f.words 3).toNat)
        lastMac := some f.srcMac, lastPort := p, lastSrc := bits (wat f.words 2) 31 16 } }).coordAct p f.words f.srcMac := by
  have hrole : (d.ply.role == .single || (d.isMember && d.ply.pstate == .active)) = true := by
    rcases hacts with h | ⟨hmember, hactive⟩
    · simp [h]
    · simp [hmember, hactive]
  rw [Dev.takeCoord, if_neg (by simp [hgood])]
  exact if_pos hrole

/-! ### Reports -/

/-- An APPLY or DISCARD report leaves where one is owed and its time has come (R366). -/
theorem exec_epochReport_owed {cause : ReportCause} (hlive : Live s) (hcause : cause = .apply ∨ cause = .discard) :
    exec (.epochReport cause) s = .next (withDev s (((s.dev.owedNow cause).map (fun q =>
      ({ s.dev with eth := { s.dev.eth with owed := s.dev.eth.owed.erase q } } : Dev).sendReport (reportCode cause))).getD
        s.dev)) := by
  rw [exec_epochReport, execEpochReport, onMain_of_live hlive]
  rcases hcause with rfl | rfl
  · cases s.dev.owedNow .apply <;> rfl
  · cases s.dev.owedNow .discard <;> rfl

/-! ### Timestamp entries -/

/-- Two changes of a port that agree on the port as it stands make the same device. -/
theorem modPort_congr {f g : EthPort → EthPort} (hagree : f (d.portOf p) = g (d.portOf p)) : d.modPort p f = d.modPort p g := by
  have hport : f (tblGet {} d.eth.ports p) = g (tblGet {} d.eth.ports p) := hagree
  simp only [Dev.modPort, tblMod, hport]

/-- A read of ENTRY_0 locks the head of the queue (R355). -/
theorem readEntry0_head {m : Master} {b : ReadBytes} {x : TsEntry} {rest : List TsEntry} (hseen : d.tsHidden m = false)
    (hqueue : (d.portOf p).ts = x :: rest) :
    d.readEntry0 ⟨m, b⟩ p = (d.modPort p (fun y => { y with tsLock := true })).giveBytes b (d.tsWord m p 0) := by
  simp [Dev.readEntry0, hseen, hqueue]

/-- A read of ENTRY_3 drops the locked head (R355). -/
theorem readEntry3_locked {m : Master} {b : ReadBytes} (hseen : d.tsHidden m = false) (hlocked : (d.portOf p).tsLock = true) :
    d.readEntry3 ⟨m, b⟩ p =
      (d.modPort p (fun y => { y with ts := y.ts.drop 1, tsLock := false })).giveBytes b (d.tsWord m p 3) := by
  have hdrop : d.modPort p (fun y => if y.tsLock then { y with ts := y.ts.drop 1, tsLock := false } else y) =
      d.modPort p (fun y => { y with ts := y.ts.drop 1, tsLock := false }) := modPort_congr (if_pos hlocked)
  simp only [Dev.readEntry3, hseen, Bool.false_eq_true, if_false, hdrop]

/-- Settles O41: a frame of the host by its checks, a received one by what an injection strikes (log entries 201 and 202), a report by
what is owed (log entry 104), a servo by its owner, and the timestamp entries by the lock. -/
theorem framesAndPtp : Obligations.FramesAndPtp := by
  refine ⟨?send, ?struck, ?received, ?receivedHeld, ?coordination, ?dropped, ?taken, ?owed, ?periodic, ?query, ?notOwed, ?ptp,
    ?holdover, ?entry0, ?entry3⟩
  case send =>
    intro s r p b sec raw sent d hserved hp hb hport hbase htime hlo hhi hsome hshort hroom hsec hraw hsent hd
    subst hd hsent hraw hsec hp hb
    rw [exec_frameSend]
    exact onMain_iapin_served hserved rfl (bodyFrameSend_queued hport hbase htime hlo hhi hsome hshort hroom)
  case struck =>
    intro s p f e i hlive hpart hlink hunit
    rw [exec_frameReceive, onMain_of_live hlive, rxPort_struck hpart hlink hunit]
    rfl
  case received =>
    intro s p f e hlive hpart hlink hunit hheld
    rw [exec_frameReceive, onMain_of_live hlive, rxPort_passed hpart hlink hunit hheld]
    rfl
  case receivedHeld =>
    intro s p f g e hlive hpart hlink hunit hheld
    rw [exec_frameReceive, onMain_of_live hlive, rxPort_passed_held hpart hlink hunit hheld]
    rfl
  case coordination =>
    intro s p f e hlive hpart hlink hunit hheld
    rw [exec_coordinationFrame, onMain_of_live hlive, rxPort_passed hpart hlink hunit hheld]
    rfl
  case dropped =>
    intro d p f hbad
    exact takeCoord_bad hbad
  case taken =>
    intro d p src f hgood hsrc hacts
    subst hsrc
    exact takeCoord_good hgood hacts
  case owed =>
    intro s cause q d hlive hcause howed hd
    subst hd
    rw [exec_epochReport_owed hlive hcause, howed]
    rfl
  case periodic =>
    intro s d hlive hdue hd
    subst hd
    rw [exec_epochReport, execEpochReport, onMain_of_live hlive]
    simp only [hdue, if_true]
  case query =>
    intro s hlive
    rw [exec_epochReport, execEpochReport, onMain_of_live hlive]
  case notOwed =>
    intro s cause hlive hcause hnone
    rw [exec_epochReport_owed hlive hcause, hnone]
    rfl
  case ptp =>
    intro s r hserved hdomains
    rw [exec_ptp]
    exact onMain_iapin_served hserved rfl (by simp only [bodyPtp, if_neg hdomains, Dev.doneAtTick])
  case holdover =>
    intro s n hlive hservo hstate
    rw [exec_ptpServoHoldover, execPtpServoHoldover, onMain_of_live hlive, if_neg (by simp [hservo])]
    exact congrArg (fun d => Host.Outcome.next (withDev s d)) (if_pos hstate)
  case entry0 =>
    intro s m p b x rest hread hseen hqueue
    rw [exec_entry0Read, onMain_served hread, readEntry0_head hseen hqueue]
  case entry3 =>
    intro s m p b hread hseen hlocked
    rw [exec_entry3Read, onMain_served hread, readEntry3_locked hseen hlocked]

end Sys2Proof.Proofs
end

section
/-!
PROOFS. What the bus does to a CAN controller (R369, R370, R376, R378, R380, R383, R384, R386, R387, R463).
-/

namespace Sys2Proof.Proofs

open Sys2Proof.Machine Sys2Proof.Safety

theorem exec_attemptEnd (c : Fin 4) (a : Attempt) (s : State) : exec (.attemptEnd c a) s = execAttemptEnd c a s := rfl

theorem exec_busOffRecovery (c : Fin 4) (s : State) : exec (.busOffRecovery c) s = execBusOffRecovery c s := rfl

theorem exec_canFrameReceived (c : Fin 4) (f : CanFrame) (s : State) :
    exec (.canFrameReceived c f) s = execCanFrameReceived c f s := rfl

theorem exec_canReceiveError (c : Fin 4) (e : CanRxErr) (dataPhase : Bool) (s : State) :
    exec (.canReceiveError c e dataPhase) s = execCanReceiveError c e dataPhase s := rfl

theorem exec_busIntegration (c : Fin 4) (s : State) : exec (.busIntegration c) s = execBusIntegration c s := rfl

variable {s : State} {c : Fin 4} {f : CanFrame}

/-- Two changes of a CAN controller that agree on the controller as it stands make the same device. -/
theorem modCan_congr {d : Dev} {n : Nat} {g h : Can → Can} (hagree : g (d.canOf n) = h (d.canOf n)) :
    d.modCan n g = d.modCan n h := by
  have hcan : g (tblGet {} d.cans n) = h (tblGet {} d.cans n) := hagree
  simp only [Dev.modCan, tblMod, hcan]

/-! ### The end of an attempt -/

section
variable (hlive : Live s) (hbus : (s.dev.canOf c.val).onBus = true)
include hlive hbus

/-- A frame that no injection corrupts is sent (R382, R383). -/
theorem exec_attemptEnd_sent (age : Nat) (hclean : (s.dev.canOf c.val).corrupt = false) :
    exec (.attemptEnd c (.success age)) s = .next (withDev s (s.dev.sentHead c.val age)) := by
  rw [exec_attemptEnd, execAttemptEnd, onMain_of_live hlive]
  simp [hbus, hclean]

/-- A corrupted frame fails as a bit error (R463). -/
theorem exec_attemptEnd_corrupt (age : Nat) (hcorrupt : (s.dev.canOf c.val).corrupt = true) :
    exec (.attemptEnd c (.success age)) s = .next (withDev s
      (s.dev.useFresh.failedHead c.val (4 + Config.freeNat s.dev.fresh % 2) false (.flagged 0))) := by
  rw [exec_attemptEnd, execAttemptEnd, onMain_of_live hlive]
  simp [hbus, hcorrupt]

/-- A lost arbitration fails the attempt and leaves the controller receiving (R377, R383). -/
theorem exec_attemptEnd_lostArb : exec (.attemptEnd c .lostArb) s =
    .next (withDev s ((s.dev.attemptFailed c.val).modCan c.val (fun x => { x with act := 2 }))) := by
  rw [exec_attemptEnd, execAttemptEnd, onMain_of_live hlive]
  simp [hbus]

/-- An error fails the attempt with its code (R383, R387). -/
theorem exec_attemptEnd_error (e : CanErr) (dataPhase : Bool) (w : TecCase) : exec (.attemptEnd c (.error e dataPhase w)) s =
    .next (withDev s (s.dev.failedHead c.val (canErrCode e) dataPhase w)) := by
  rw [exec_attemptEnd, execAttemptEnd, onMain_of_live hlive]
  simp [hbus]

end

/-! ### Receiving -/

section
variable (hlive : Live s) (hjoined : (s.dev.canOf c.val).joined s.dev.now f.age = true)
include hlive hjoined

/-- A frame that is no protocol exception and on which no injection acts is judged and stored (R376). -/
theorem exec_canFrameReceived_good {e : Dev} (hplain : (s.dev.canOf c.val).exception f = false)
    (hinject : s.dev.injectUnit (injKey 3 c.val 1) = (none, e)) :
    exec (.canFrameReceived c f) s = .next (withDev s (e.takeFrame c.val f)) := by
  rw [exec_canFrameReceived, execCanFrameReceived, onMain_of_live hlive]
  simp [hjoined, hplain, hinject]

/-- A frame that an injection corrupts ends in a CRC error (R463). -/
theorem exec_canFrameReceived_struck {e : Dev} {i : Injection} (hplain : (s.dev.canOf c.val).exception f = false)
    (hinject : s.dev.injectUnit (injKey 3 c.val 1) = (some i, e)) :
    exec (.canFrameReceived c f) s = .next (withDev s (e.receiveError c.val 6 f.fast 1)) := by
  rw [exec_canFrameReceived, execCanFrameReceived, onMain_of_live hlive]
  simp [hjoined, hplain, hinject]

/-- A protocol exception stores nothing; a receiver goes back to integration (R370). -/
theorem exec_canFrameReceived_exception (hexception : (s.dev.canOf c.val).exception f = true) :
    exec (.canFrameReceived c f) s = .next (withDev s (s.dev.modCan c.val (fun x =>
      { x with act := if (s.dev.canOf c.val).onBus then x.act else 0, stopAt := none }))) := by
  rw [exec_canFrameReceived, execCanFrameReceived, onMain_of_live hlive]
  simp only [hjoined, hexception, Bool.not_true, Bool.false_eq_true, if_false, if_true]
  exact congrArg (fun d => Host.Outcome.next (withDev s d)) (modCan_congr rfl)

end

/-- An FD frame is a protocol exception where its res bit is recessive or FD_EN is clear (R370). -/
theorem exception_of_fd {x : Can} (hfd : f.fd = true) (hwhy : f.res = true ∨ x.fdEn = false) : x.exception f = true := by
  rcases hwhy with hres | hen
  · simp [Can.exception, hfd, hres]
  · simp [Can.exception, hfd, hen]

/-- An error of reception counts at a controller that is joined (R384). -/
theorem exec_canReceiveError_joined {e : CanRxErr} (dataPhase : Bool) (hlive : Live s)
    (hjoined : (s.dev.canOf c.val).joined s.dev.now e.age = true) : exec (.canReceiveError c e dataPhase) s =
      .next (withDev s (s.dev.receiveError c.val (canErrCode e.kind) dataPhase (recUp e))) := by
  rw [exec_canReceiveError, execCanReceiveError, onMain_of_live hlive, if_pos hjoined]

/-! ### Bus-off and integration -/

/-- The recovery after 128 recessive sequences clears the counters and joins the idle bus (R384). -/
theorem exec_busOffRecovery_counted (hlive : Live s) (hoff : (s.dev.canOf c.val).boff = true)
    (hcount : 128 ≤ (s.dev.canOf c.val).recov) : exec (.busOffRecovery c) s =
      .next (withDev s (((s.dev.modCan c.val (fun x => { x with
        boff := false, tec := 0, rec_ := 0, recov := 0 })).errorLevels c.val).busIdle c.val)) := by
  rw [exec_busOffRecovery, execBusOffRecovery, onMain_of_live hlive, if_pos (by simp [hoff, hcount])]

/-- Integration makes a controller outside CONFIG active on an idle bus (R377). -/
theorem exec_busIntegration_joins (hlive : Live s) (hrun : (s.dev.canOf c.val).config = false)
    (hon : (s.dev.canOf c.val).boff = false) (hact : (s.dev.canOf c.val).act = 0) :
    exec (.busIntegration c) s = .next (withDev s (s.dev.busIdle c.val)) := by
  rw [exec_busIntegration, execBusIntegration, onMain_of_live hlive]
  simp [hrun, hon, hact]

/-- Integration ends the waiting of a controller in CONFIG (R377). -/
theorem exec_busIntegration_config (hlive : Live s) (hon : (s.dev.canOf c.val).boff = false)
    (hconfig : (s.dev.canOf c.val).config = true) : exec (.busIntegration c) s =
      .next (withDev s (s.dev.modCan c.val (fun x => { x with stopAt := none }))) := by
  rw [exec_busIntegration, execBusIntegration, onMain_of_live hlive]
  simp [hon, hconfig]

/-- 11 recessive bits count in RECOV during bus-off (R384). -/
theorem exec_busIntegration_counts (hlive : Live s) (hoff : (s.dev.canOf c.val).boff = true) : exec (.busIntegration c) s =
    .next (withDev s (s.dev.modCan c.val (fun x => { x with recov := min 128 (x.recov + 1) }))) := by
  rw [exec_busIntegration, execBusIntegration, onMain_of_live hlive]
  simp [hoff]

/-- Settles O43: an attempt by how it ends (log entries 107 and 182), a frame by whether it is an exception or struck, an
integration by bus-off and CONFIG. -/
theorem canBusEvents : Obligations.CanBusEvents := by
  refine ⟨?sent, ?corrupt, ?lostArb, ?error, ?recovery, ?received, ?exception, ?struck, ?receiveError, ?joins, ?config, ?counts⟩
  case sent => exact fun s c age hlive hbus hclean => exec_attemptEnd_sent hlive hbus age hclean
  case corrupt => exact fun s c age hlive hbus hcorrupt => exec_attemptEnd_corrupt hlive hbus age hcorrupt
  case lostArb => exact fun s c hlive hbus => exec_attemptEnd_lostArb hlive hbus
  case error => exact fun s c e dataPhase w hlive hbus => exec_attemptEnd_error hlive hbus e dataPhase w
  case recovery => exact fun s c hlive hoff hcount => exec_busOffRecovery_counted hlive hoff hcount
  case received => exact fun s c f e hlive hjoined hplain hinject => exec_canFrameReceived_good hlive hjoined hplain hinject
  case exception =>
    exact fun s c f hlive hjoined hfd hwhy => exec_canFrameReceived_exception hlive hjoined (exception_of_fd hfd hwhy)
  case struck => exact fun s c f e i hlive hjoined hplain hinject => exec_canFrameReceived_struck hlive hjoined hplain hinject
  case receiveError => exact fun s c e dataPhase hlive hjoined => exec_canReceiveError_joined dataPhase hlive hjoined
  case joins => exact fun s c hlive hrun hon hact => exec_busIntegration_joins hlive hrun hon hact
  case config => exact fun s c hlive hon hconfig => exec_busIntegration_config hlive hon hconfig
  case counts => exact fun s c hlive hoff => exec_busIntegration_counts hlive hoff

end Sys2Proof.Proofs
end

section
/-!
PROOFS. What a REGISTER_WRITE comes to, by the port that makes it (R390, R391, R392, R393, R394).
-/

namespace Sys2Proof.Proofs

open Sys2Proof.Machine Sys2Proof.Safety

theorem exec_registerWrite (m : Master) (space : Space) (off : BitVec 28) (b : Byte) (l : List Byte) (s : State) :
    exec (.registerWrite m space off b l) s = execRegisterWrite m space off b l s := rfl

variable {s : State} {m : Master} {space : Space} {off : BitVec 28} {b : Byte} {l : List Byte}

/-! ### The identities -/

/-- The QSPI port is the one master with its identity (R396). -/
theorem eq_qspi_of_masterId (hid : masterId m = 0x10) : m = .qspi := by
  cases m with
  | qspi => rfl
  | pcie0 | pcie1 | mgmt | island | partner | referee => cases hid

/-- A PCIe function is no QSPI port (R396). -/
theorem masterId_ne_qspi_of_fn (hfn : (fnOfId (masterId m)).isSome = true) : masterId m ≠ 0x10 := by
  intro hid
  rw [hid] at hfn
  exact absurd hfn (by decide)

/-- A PCIe function is a host identity of the access table (R396, R397). -/
theorem hostIndex_isSome_of_fn (hfn : (fnOfId (masterId m)).isSome = true) : (hostIndex (masterId m)).isSome = true := by
  cases m with
  | pcie0 | pcie1 | qspi => rfl
  | mgmt | island | partner | referee => cases hfn

/-- Only a PCIe function's write can be larger than its largest payload (R390). -/
theorem tooLarge_eq_false {n : Nat} (hsmall : (fnOfId (masterId m)).isSome = true → n ≤ 256) : tooLarge m n = false := by
  cases hfn : (fnOfId (masterId m)).isSome with
  | false => simp [tooLarge, hfn]
  | true => simp [tooLarge, hfn, hsmall hfn]

/-- A write that is too large is no QSPI write (R390). -/
theorem tooLarge_qspi (n : Nat) : tooLarge .qspi n = false := rfl

/-! ### The write by its port -/

/-- A write of a sleeping function is only an unsupported request (R392). -/
theorem exec_registerWrite_asleep (hlive : Live s) (hasleep : s.dev.asleep m = true) :
    exec (.registerWrite m space off b l) s = .next (withDev s (s.dev.unsupported m)) := by
  rw [exec_registerWrite, execRegisterWrite, onMain_of_live hlive, hasleep]
  rfl

section
variable (hlive : Live s) (hawake : s.dev.asleep m = false)
include hlive hawake

/-- A write of more than the largest payload is malformed (R390). -/
theorem exec_registerWrite_tooLarge (hlarge : tooLarge m (b :: l).length = true) :
    exec (.registerWrite m space off b l) s = .next (withDev s (s.dev.malformed m)) := by
  rw [exec_registerWrite, execRegisterWrite, onMain_of_live hlive]
  simp only [hawake, hlarge, Bool.false_eq_true, if_false, if_true]

/-- A write of the QSPI port is a transaction of its own (R393, R394). -/
theorem exec_registerWrite_qspi (hid : masterId m = 0x10) :
    exec (.registerWrite m space off b l) s = .next (withDev s (s.dev.qspiWrite space off.toNat (b :: l))) := by
  obtain rfl := eq_qspi_of_masterId hid
  rw [exec_registerWrite, execRegisterWrite, onMain_of_live hlive]
  simp only [hawake, tooLarge_qspi, hid, Bool.false_eq_true, if_false, if_true]

/-- A BAR0 request of a PCIe function beyond 64 aligned bytes is unsupported (R391). -/
theorem exec_registerWrite_unserved (hfn : (fnOfId (masterId m)).isSome = true) (hsmall : (b :: l).length ≤ 256)
    (hserved : bar0Served off.toNat (b :: l).length = false) :
    exec (.registerWrite m .bar0 off b l) s = .next (withDev s (s.dev.unsupported m)) := by
  rw [exec_registerWrite, execRegisterWrite, onMain_of_live hlive]
  simp only [hawake, tooLarge_eq_false fun _ => hsmall, masterId_ne_qspi_of_fn hfn, hfn, hserved, Bool.false_eq_true, if_false,
    beq_self_eq_true, Bool.not_false, Bool.and_self, if_true]

/-- Any other BAR0 request writes its words (R391). -/
theorem exec_registerWrite_bar0 (hid : masterId m ≠ 0x10)
    (hserved : (fnOfId (masterId m)).isSome = true → bar0Served off.toNat (b :: l).length = true) :
    exec (.registerWrite m .bar0 off b l) s = .next (withDev s (s.dev.writeRun m off.toNat (b :: l))) := by
  have hsmall : tooLarge m (b :: l).length = false := by
    refine tooLarge_eq_false fun hfn => ?_
    have hline : off.toNat % 64 + (b :: l).length ≤ 64 := of_decide_eq_true (hserved hfn)
    omega
  have hallowed : ((fnOfId (masterId m)).isSome && Space.bar0 == .bar0 && !bar0Served off.toNat (b :: l).length) = false := by
    cases hfn : (fnOfId (masterId m)).isSome with
    | false => rfl
    | true => rw [hserved hfn]; rfl
  rw [exec_registerWrite, execRegisterWrite, onMain_of_live hlive]
  simp only [hawake, hsmall, hid, hallowed, Bool.false_eq_true, if_false, Dev.writeSpace]

/-- Any other BAR2 request writes its bytes (R391). -/
theorem exec_registerWrite_bar2 (hid : masterId m ≠ 0x10) (hsmall : tooLarge m (b :: l).length = false) :
    exec (.registerWrite m .bar2 off b l) s = .next (withDev s (s.dev.writeBar2 m off.toNat (b :: l))) := by
  have hallowed : ((fnOfId (masterId m)).isSome && Space.bar2 == .bar0 && !bar0Served off.toNat (b :: l).length) = false := by
    rw [show (Space.bar2 == .bar0) = false from rfl, Bool.and_false, Bool.false_and]
  rw [exec_registerWrite, execRegisterWrite, onMain_of_live hlive]
  simp only [hawake, hsmall, hid, hallowed, Bool.false_eq_true, if_false, Dev.writeSpace]

end

end Sys2Proof.Proofs
end

section
/-!
PROOFS. FW_STAGE, FW_ACTIVATE, the firmware's start and the writes of the register spaces (R390 to R393, R411, R416, R418,
R429, R441, R442).
-/

namespace Sys2Proof.Proofs

open Sys2Proof.Machine Sys2Proof.Safety

theorem exec_fwStage (r : Req) (s : State) : exec (.fwStage r) s =
    onMain (iapin 0x0F01 writes (imgStart 0x0F01 none (· == 0) (fun _ _ => false)) r) s := rfl

theorem exec_fwActivate (r : Req) (s : State) : exec (.fwActivate r) s = onMain (iapin 0x0F02 writes bodyFwActivate r) s := rfl

theorem exec_firmwareStart (s : State) : exec .firmwareStart s = execFirmwareStart s := rfl

variable {s : State} {d : Dev} {r : Req}

/-- A stage of the one target with its words in range begins (R418). -/
theorem imgStart_fwStage (htarget : arg r 2 = 0) (hargs : imgArgs r none = none) (hlong : LongFree 0x0F01 r d) :
    imgStart 0x0F01 none (· == 0) (fun _ _ => false) r d = (.accepted r, begun 0x0F01 r d) :=
  (imgStart_free (target := (· == 0)) (beq_iff_eq.mpr htarget) hargs rfl).trans (beginLong_free hlong)

/-- The end of a stage whose image's length is not the one that the header states (R418). -/
theorem finishFwStage_bad_length (hlen : Config.firmwareLength (wordsBytes (d.image r)) ≠ (arg r 4).toNat) :
    finishFwStage r d = (.badArg 4, d) :=
  imgFinish_bad_length rfl hlen.symm

/-- The end of a stage whose length and CRC hold judges the signature and stages the image (R418, R442). -/
theorem finishFwStage_checked (hlen : Config.firmwareLength (wordsBytes (d.image r)) = (arg r 4).toNat)
    (hcrc : crc32 (wordsBytes (d.image r)) = arg r 5) : finishFwStage r d =
      if Config.signatureOk (wordsBytes (d.image r)) = false then (.badImage (Config.firmwareBadField (wordsBytes (d.image r))), d)
      else (.ok [d.nowTick],
        if checkOnly r then d else { d with flash := d.flash.stage (Config.firmwareVersion (wordsBytes (d.image r))) }) := by
  rw [finishFwStage, imgFinish_good (congrArg some hlen) hcrc]
  cases hsigned : Config.signatureOk (wordsBytes (d.image r)) with
  | false => simp [hsigned, Dev.say]
  | true => cases hcheck : checkOnly r <;> simp [hsigned, Dev.doneNow, Dev.nowTick]

/-- An activation of a staged image takes the other slot (R442). -/
theorem bodyFwActivate_staged (hstaged : d.flash.staged = true) : bodyFwActivate r d = (.ok [d.nowTick],
    { d with flash := { d.flash with activeSlot := 1 - d.flash.activeSlot, staged := false } }) := by
  simp [bodyFwActivate, hstaged, Dev.doneNow, Dev.nowTick]

section
variable (hlive : Live s) (hstage : s.dev.host.bootStage = 1)
include hlive hstage

/-- A start without an authentic slot goes to recovery (R441, R442). -/
theorem exec_firmwareStart_recovery (hslot : s.dev.flash.bootSlot = none) :
    exec .firmwareStart s = .next (withDev s (s.dev.setStage 0xF)) := by
  rw [exec_firmwareStart, execFirmwareStart, onMain_of_live hlive]
  simp [hstage, hslot]

/-- A start of an authentic slot goes to stage 2 with its version and its tables (R442, R443). -/
theorem exec_firmwareStart_slot {n : Nat} (hslot : s.dev.flash.bootSlot = some n) :
    exec .firmwareStart s = .next (withDev s ((({ s.dev with
      host := { s.dev.host with authOk := true, fwVersion := (s.dev.flash.slot n).version }
      pwr := { s.dev.pwr with fwSlot := n, slotFallback := decide (n ≠ s.dev.flash.activeSlot) } } : Dev).setStage
        2).writeTables.meterRestore)) := by
  rw [exec_firmwareStart, execFirmwareStart, onMain_of_live hlive]
  simp [hstage, hslot]

end

/-- Settles O45: the stage by its length and its signature (log entry 26), the start by its slot, a register write by its port and
its size (log entries 160 and 183). -/
theorem firmwareImagesAndStart : Obligations.FirmwareImagesAndStart := by
  refine ⟨?stage, ?finish, ?activate, ?recovery, ?start, ?asleep, ?qspi, ?bar0, ?unserved, ?tooLarge, ?bar2⟩
  case stage =>
    intro s r hserved htarget hargs hlong
    rw [exec_fwStage]
    exact onMain_iapin_served hserved rfl (imgStart_fwStage htarget hargs hlong)
  case finish =>
    intro d r img himg hcrc
    subst himg
    by_cases hlen : Config.firmwareLength (wordsBytes (d.image r)) = (arg r 4).toNat
    · rw [if_neg (not_not_intro hlen)]
      exact finishFwStage_checked hlen hcrc
    · rw [if_pos hlen]
      exact finishFwStage_bad_length hlen
  case activate =>
    intro s r hserved hstaged
    rw [exec_fwActivate]
    exact onMain_iapin_served hserved rfl (bodyFwActivate_staged hstaged)
  case recovery => exact fun s hlive hstage hslot => exec_firmwareStart_recovery hlive hstage hslot
  case start =>
    intro s n h p hlive hstage hslot hh hp
    subst hh hp
    exact exec_firmwareStart_slot hlive hstage hslot
  case asleep => exact fun s m space off data b l _ hlive hasleep => exec_registerWrite_asleep hlive hasleep
  case qspi =>
    intro s m space off data b l hdata hlive hawake hid
    subst hdata
    exact exec_registerWrite_qspi hlive hawake hid
  case bar0 =>
    intro s m off data b l hdata hlive hawake hid hserved
    subst hdata
    exact exec_registerWrite_bar0 hlive hawake hid hserved
  case unserved =>
    intro s m off data b l hdata hlive hawake _ hfn hserved hsmall
    subst hdata
    exact exec_registerWrite_unserved hlive hawake hfn hsmall hserved
  case tooLarge =>
    intro s m space off data b l hdata hlive hawake hfn hlarge
    subst hdata
    exact exec_registerWrite_tooLarge hlive hawake (by simp [tooLarge, hfn] at hlarge ⊢; omega)
  case bar2 =>
    intro s m off data b l hdata hlive hawake hid hsmall
    subst hdata
    exact exec_registerWrite_bar2 hlive hawake hid (tooLarge_eq_false hsmall)

end Sys2Proof.Proofs
end

section
/-!
PROOFS. A write that the access table does not permit only counts (R391, R392, R393, R397).
-/

namespace Sys2Proof.Proofs

open Sys2Proof.Machine Sys2Proof.Safety

variable {s : State} {c : Instr} {m : Master} {blk : Nat} {d : Dev} {off : Nat} {data : List Byte}

/-! ### The listed writes -/

/-- A listed write is a guarded write of its block (R397). -/
theorem exec_of_writeOf (hwrite : writeOf c = some (m, blk)) : ∃ f : Dev → Dev,
    exec c s = .next (withDev s (if s.dev.pwr.held then s.dev else s.dev.guarded m blk f)) := by
  cases c with
  | cutFire | statusClear | hankAck | feValidClear | snapReq | tbSnapReq | lockedForceRelease | rxqRelease | txPush | txFlush
  | configSet | configClear | intCauseClear =>
    cases hwrite
    exact ⟨_, rfl⟩
  | _ => cases hwrite

/-- A guarded write of a sleeping function is only an unsupported request (R392). -/
theorem guarded_asleep {f : Dev → Dev} (hasleep : d.asleep m = true) : d.guarded m blk f = d.unsupported m := if_pos hasleep

/-- A guarded write that the access table does not permit is only counted (R397). -/
theorem guarded_unpermitted {f : Dev → Dev} (hawake : d.asleep m = false) (hperm : d.mayWrite m blk = false) :
    d.guarded m blk f = d.violation m := by
  simp [Dev.guarded, hawake, hperm]

/-- What a listed write does while the main logic runs is what its guard leaves (R397). -/
theorem exec_of_writeOf_eq {e : Dev} (hwrite : writeOf c = some (m, blk)) (hlive : Live s)
    (hguard : ∀ f, s.dev.guarded m blk f = e) : exec c s = .next (withDev s e) := by
  obtain ⟨f, hexec⟩ := exec_of_writeOf (s := s) hwrite
  have hheld : ¬ s.dev.pwr.held = true := by simp [hlive]
  rw [hexec, if_neg hheld, hguard]

/-! ### The words of BAR0 -/

/-- A write of a word of a block that the access table does not permit is only counted (R397). -/
theorem writeBar0_unpermitted {v : Word} (hblock : guardBlock off = some blk) (hawake : d.asleep m = false)
    (hperm : d.mayWrite m blk = false) : d.writeBar0 m off v = d.violation m := by
  unfold guardBlock at hblock
  split_ifs at hblock with hstatus hfault hmeter hcan hram hclocks <;> obtain rfl := Option.some.inj hblock
  · rw [Dev.writeBar0, if_pos hstatus, guarded_unpermitted hawake hperm]
  all_goals
    have hboxes : ¬ off < 0x12000 := by omega
    have htables : ¬ off < 0x20000 := by omega
    have hqueues : ¬ off < 0x20400 := by omega
    simp only [Dev.writeBar0, *, and_self, if_true, if_false, guarded_unpermitted hawake hperm]

/-- Writes of words of blocks that the access table does not permit count one violation each (R397). -/
theorem foldl_writeBar0_unpermitted {ws : List (Nat × Word)} (hblock : ∀ p ∈ ws, guardBlock p.1 = some blk)
    (hawake : d.asleep m = false) (hperm : d.mayWrite m blk = false) :
    ws.foldl (fun d p => d.writeBar0 m p.1 p.2) d = ws.foldl (fun d _ => d.violation m) d := by
  induction ws generalizing d with
  | nil => rfl
  | cons p ws ih =>
    have hhead : d.writeBar0 m p.1 p.2 = d.violation m :=
      writeBar0_unpermitted (hblock p List.mem_cons_self) hawake hperm
    rw [List.foldl_cons, List.foldl_cons, hhead]
    exact ih (fun q hq => hblock q (List.mem_cons_of_mem _ hq)) hawake hperm

/-- The words that an aligned write covers are those of its whole words (R9). -/
theorem wordsCovered_whole (halign : off % 4 = 0) :
    wordsCovered off (data.take (data.length / 4 * 4)) = wordsCovered off data := by
  have hwhole : min (data.length / 4 * 4) data.length = data.length / 4 * 4 := by omega
  have hagain : data.length / 4 * 4 / 4 * 4 = data.length / 4 * 4 := by omega
  simp only [wordsCovered, halign, Nat.sub_zero, Nat.mod_self, List.drop_zero, List.length_take, hwhole, hagain, List.take_take,
    Nat.min_self]

/-- An aligned QSPI write within 64 aligned bytes of BAR0 breaks no rule and writes its whole words (R394). -/
theorem qspiWrite_bar0_line (halign : off % 4 = 0) (hline : off % 64 + data.length ≤ 64) :
    d.qspiWrite .bar0 off data = (wordsCovered off data).foldl (fun d p => d.writeBar0 .qspi p.1 p.2) d := by
  have haddr : qspiAddrBad .bar0 off = false := by simp [qspiAddrBad, halign]
  have hkept : qspiKept .bar0 off data.length = data.length := by
    simp only [qspiKept, haddr, Bool.false_eq_true, if_false]
    omega
  have hwhole : qspiBroken .bar0 off data.length = false := by simp [qspiBroken, haddr, hkept]
  simp only [Dev.qspiWrite, hwhole, hkept, Bool.false_eq_true, if_false]
  rw [← wordsCovered_whole halign]
  cases hbytes : data.take (data.length / 4 * 4) with
  | nil => simp [wordsCovered, bytesWords]
  | cons b l => rfl

/-! ### The bytes of BAR2 -/

/-- A write that reaches the converter buffer area and that the access table does not permit is only counted (R397). -/
theorem writeBar2_unpermitted (hlo : areaLo ≤ off) (hhi : off < areaEnd) (hbytes : data ≠ []) (hawake : d.asleep m = false)
    (hperm : d.mayWrite m 5 = false) : d.writeBar2 m off data = d.violation m := by
  have hlen := List.length_pos_iff.mpr hbytes
  have hinside : ¬ (off + data.length ≤ areaLo ∨ areaEnd ≤ off) := by omega
  rw [Dev.writeBar2, if_neg hinside, guarded_unpermitted hawake hperm]

/-- An aligned QSPI write of a word or more, and of no more than 256 bytes, breaks no rule and writes its whole words (R394). -/
theorem qspiWrite_bar2_whole (halign : off % 4 = 0) (hword : 4 ≤ data.length) (hsmall : data.length ≤ 256) :
    d.qspiWrite .bar2 off data = d.writeBar2 .qspi off (data.take (data.length / 4 * 4)) := by
  have haddr : qspiAddrBad .bar2 off = false := by simp [qspiAddrBad, halign]
  have hkept : qspiKept .bar2 off data.length = data.length := by
    simp only [qspiKept, haddr, Bool.false_eq_true, if_false]
    omega
  have hwhole : qspiBroken .bar2 off data.length = false := by simp [qspiBroken, haddr, hkept]
  have hbytes : (data.take (data.length / 4 * 4)).isEmpty = false := by
    rw [List.isEmpty_eq_false_iff, ← List.length_pos_iff, List.length_take]
    omega
  simp only [Dev.qspiWrite, hwhole, hkept, hbytes, Bool.false_eq_true, if_false, Dev.writeSpace]

/-- Settles O55: a listed write by what its guard leaves, a register write by its port and then word by word. -/
theorem unpermittedWritesOnlyCount : Obligations.UnpermittedWritesOnlyCount := by
  refine ⟨?asleep, ?unpermitted, ?bar0, ?bar2⟩
  case asleep =>
    exact fun c s m blk hwrite hlive hasleep => exec_of_writeOf_eq hwrite hlive fun _ => guarded_asleep hasleep
  case unpermitted =>
    exact fun c s m blk hwrite hlive hawake hperm => exec_of_writeOf_eq hwrite hlive fun _ => guarded_unpermitted hawake hperm
  case bar0 =>
    intro s m off data b l blk hdata hlive hawake halign hline hblock hperm
    subst hdata
    rw [← foldl_writeBar0_unpermitted hblock hawake hperm]
    by_cases hid : masterId m = 0x10
    · obtain rfl := eq_qspi_of_masterId hid
      rw [exec_registerWrite_qspi hlive hawake hid, qspiWrite_bar0_line (halign hid) (hline rfl)]
    · exact exec_registerWrite_bar0 hlive hawake hid fun hfn => decide_eq_true (hline (hostIndex_isSome_of_fn hfn))
  case bar2 =>
    intro s m off data b l hdata hlive hawake hqspi hsmall hlo hhi hperm
    subst hdata
    by_cases hid : masterId m = 0x10
    · obtain rfl := eq_qspi_of_masterId hid
      obtain ⟨halign, hword⟩ := hqspi hid
      have hbytes : (b :: l).take ((b :: l).length / 4 * 4) ≠ [] := by
        rw [← List.length_pos_iff, List.length_take]
        omega
      rw [exec_registerWrite_qspi hlive hawake hid, qspiWrite_bar2_whole halign hword hsmall,
        writeBar2_unpermitted hlo hhi hbytes hawake hperm]
    · rw [exec_registerWrite_bar2 hlive hawake hid (tooLarge_eq_false fun _ => hsmall),
        writeBar2_unpermitted hlo hhi (List.cons_ne_nil b l) hawake hperm]

end Sys2Proof.Proofs
end

section
/-!
PROOFS. A write of BAR2 stores its bytes in the converter buffer area and nowhere else (R391, R393, R394, R395, R397).
-/

namespace Sys2Proof.Proofs

open Sys2Proof.Machine Sys2Proof.Safety

variable {s : State} {m : Master} {d e : Dev} {off k : Nat} {data bytes : List Byte} {permitted : Prop}

/-! ### What a write of BAR2 keeps and stores -/

/-- `e` is `d` after a write of bytes at an offset of BAR2, as far as the weft region and the window show it: the bytes that lie in
the converter buffer area are stored where the write is permitted, and every other byte is as before. -/
structure Bar2Written (d e : Dev) (off : Nat) (data : List Byte) (permitted : Prop) : Prop where
  weft : e.weft = d.weft
  outside : ∀ a, a < off ∨ off + data.length ≤ a ∨ a < areaLo ∨ areaEnd ≤ a → memByte e.bar2 a = memByte d.bar2 a
  stored : ∀ i, i < data.length → areaLo ≤ off + i → off + i < areaEnd → permitted →
    memByte e.bar2 (off + i) = data.getD i 0

/-- Devices with one core have one weft region. -/
theorem weft_of_core (hcore : e.core = d.core) : e.weft = d.weft := congrArg Core.weft hcore

/-- Devices with one core have one BAR2 window. -/
theorem bar2_of_core (hcore : e.core = d.core) : e.bar2 = d.bar2 := congrArg Core.bar2 hcore

/-- A write that has nothing to store and leaves the core alone. -/
theorem bar2Written_of_core (hcore : e.core = d.core)
    (hnone : permitted → ∀ i, i < data.length → areaLo ≤ off + i → areaEnd ≤ off + i) :
    Bar2Written d e off data permitted where
  weft := weft_of_core hcore
  outside := fun a _ => by rw [bar2_of_core hcore]
  stored := fun i hi hlo hhi hperm => absurd (hnone hperm i hi hlo) (Nat.not_le.mpr hhi)

/-- What comes after the write and leaves the core alone changes nothing of it. -/
theorem Bar2Written.of_core {e' : Dev} (h : Bar2Written d e off data permitted) (hcore : e'.core = e.core) :
    Bar2Written d e' off data permitted where
  weft := (weft_of_core hcore).trans h.weft
  outside := by rw [bar2_of_core hcore]; exact h.outside
  stored := by rw [bar2_of_core hcore]; exact h.stored

/-! ### The bytes one by one -/

/-- One byte of a write stored at its place. -/
def putBar2 (off : Nat) (data : List Byte) (i : Nat) (d : Dev) : Dev :=
  { d with bar2 := memPut d.bar2 (off + i) (data.getD i 0) }

/-- The bytes of a write that lie in the converter buffer area. -/
def areaBytes (off n : Nat) : List Nat :=
  (List.range n).filter (fun i => decide (areaLo ≤ off + i) && decide (off + i < areaEnd))

theorem mem_areaBytes {n i : Nat} : i ∈ areaBytes off n ↔ i < n ∧ areaLo ≤ off + i ∧ off + i < areaEnd := by
  simp [areaBytes]

theorem forEach_cons (i : Nat) (l : List Nat) (f : Nat → Dev → Dev) (d : Dev) : forEach (i :: l) f d = forEach l f (f i d) := rfl

/-- Bytes stored in the window leave the weft region. -/
theorem forEach_putBar2_weft (l : List Nat) : (forEach l (putBar2 off data) d).weft = d.weft := by
  induction l generalizing d with
  | nil => rfl
  | cons i l ih => rw [forEach_cons, ih]; rfl

/-- Bytes stored in the window leave every other byte. -/
theorem forEach_putBar2_other {l : List Nat} {a : Nat} (ha : ∀ i ∈ l, a ≠ off + i) :
    memByte (forEach l (putBar2 off data) d).bar2 a = memByte d.bar2 a := by
  induction l generalizing d with
  | nil => rfl
  | cons i l ih =>
    rw [forEach_cons, ih fun j hj => ha j (List.mem_cons_of_mem _ hj)]
    exact Laws.memByte_memPut_other (ha i List.mem_cons_self) _

/-- A byte stored in a canonical window is read back. -/
theorem forEach_putBar2_same {l : List Nat} {i : Nat} (hi : i ∈ l) (hwf : Memory.wf d.bar2 = true) :
    memByte (forEach l (putBar2 off data) d).bar2 (off + i) = data.getD i 0 := by
  induction l generalizing d with
  | nil => cases hi
  | cons j l ih =>
    rw [forEach_cons]
    by_cases hrest : i ∈ l
    · exact ih hrest (Laws.wf_memPut hwf _ _)
    · obtain rfl : i = j := (List.mem_cons.mp hi).resolve_right hrest
      have hlast : ∀ j ∈ l, off + i ≠ off + j := fun j hj heq => hrest (Nat.add_left_cancel heq ▸ hj)
      rw [forEach_putBar2_other hlast]
      exact Laws.memByte_memPut_same hwf _ _

/-- A BAR2 write that reaches the area stores the bytes of the area under the guard of its block (R395, R397). -/
theorem writeBar2_eq : d.writeBar2 m off data =
    if off + data.length ≤ areaLo ∨ areaEnd ≤ off then d
    else d.guarded m 5 (fun d => forEach (areaBytes off data.length) (putBar2 off data) d) := rfl

/-- A write of BAR2 stores its bytes in the area and nowhere else (R391, R395, R397). -/
theorem bar2Written_writeBar2 (hwf : Memory.wf d.bar2 = true) (hawake : d.asleep m = false) :
    Bar2Written d (d.writeBar2 m off data) off data (d.mayWrite m 5 = true) := by
  rw [writeBar2_eq]
  split_ifs with hmiss
  · exact bar2Written_of_core rfl fun _ i hi hlo => by omega
  · cases hperm : d.mayWrite m 5 with
    | false =>
      rw [guarded_unpermitted hawake hperm]
      exact bar2Written_of_core (Dev.violation_core d m) fun h => absurd h (by decide)
    | true =>
      have hguard : ∀ f, d.guarded m 5 f = f d := fun f => by simp [Dev.guarded, hawake, hperm]
      rw [hguard]
      exact {
        weft := forEach_putBar2_weft _
        outside := fun a ha => forEach_putBar2_other fun i hi => by
          obtain ⟨hlen, hlo, hhi⟩ := mem_areaBytes.mp hi
          omega
        stored := fun i hi hlo hhi _ => forEach_putBar2_same (mem_areaBytes.mpr ⟨hi, hlo, hhi⟩) hwf }

/-- A QSPI write of BAR2 stores its whole words up to the first byte that breaks a rule (R393, R394). -/
theorem bar2Written_qspiWrite (hwf : Memory.wf d.bar2 = true) (hawake : d.asleep .qspi = false) :
    Bar2Written d (d.qspiWrite .bar2 off data) off (data.take (qspiKept .bar2 off data.length / 4 * 4))
      (d.mayWrite .qspi 5 = true) := by
  rw [Dev.qspiWrite]
  generalize data.take (qspiKept .bar2 off data.length / 4 * 4) = kept
  have hkept : Bar2Written d (if kept.isEmpty then d else d.writeSpace .qspi .bar2 off kept) off kept
      (d.mayWrite .qspi 5 = true) := by
    split_ifs with hempty
    · rw [List.isEmpty_iff.mp hempty]
      exact bar2Written_of_core rfl fun _ i hi => absurd hi (Nat.not_lt_zero i)
    · exact bar2Written_writeBar2 hwf hawake
  by_cases hbroken : qspiBroken .bar2 off data.length = true
  · rw [if_pos hbroken]
    exact hkept.of_core (Dev.qspiError_core _)
  · rw [if_neg hbroken]
    exact hkept

/-! ### The register write -/

/-- The bytes of a BAR2 write that its port lets through (R390, R393, R394). -/
def bar2Kept (m : Master) (off n : Nat) : Nat :=
  if tooLarge m n then 0 else if masterId m = 0x10 then qspiKept .bar2 off n / 4 * 4 else n

/-- No port lets more bytes of a BAR2 write through than it has. -/
theorem bar2Kept_le (n : Nat) : bar2Kept m off n ≤ n := by
  have hqspi : qspiKept .bar2 off n ≤ n := by
    simp only [qspiKept]
    split
    · exact Nat.zero_le n
    · exact Nat.min_le_left n 256
  unfold bar2Kept
  split_ifs <;> omega

/-- A register write of BAR2 writes the bytes that its port lets through (R390, R393, R394). -/
theorem exec_registerWrite_bar2Written {off : BitVec 28} {b : Byte} {l : List Byte} (hwf : Memory.wf s.dev.bar2 = true)
    (hlive : Live s) (hawake : s.dev.asleep m = false) : ∃ e, exec (.registerWrite m .bar2 off b l) s = .next (withDev s e) ∧
      Bar2Written s.dev e off.toNat ((b :: l).take (bar2Kept m off.toNat (b :: l).length)) (s.dev.mayWrite m 5 = true) := by
  cases hlarge : tooLarge m (b :: l).length with
  | true =>
    rw [bar2Kept, if_pos hlarge]
    exact ⟨_, exec_registerWrite_tooLarge hlive hawake hlarge,
      bar2Written_of_core (Dev.malformed_core _ m) fun _ i hi => absurd hi (Nat.not_lt_zero i)⟩
  | false =>
    rw [bar2Kept, if_neg (Bool.eq_false_iff.mp hlarge)]
    by_cases hid : masterId m = 0x10
    · obtain rfl := eq_qspi_of_masterId hid
      rw [if_pos hid]
      exact ⟨_, exec_registerWrite_qspi hlive hawake hid, bar2Written_qspiWrite hwf hawake⟩
    · rw [if_neg hid, List.take_length]
      exact ⟨_, exec_registerWrite_bar2 hlive hawake hid hlarge, bar2Written_writeBar2 hwf hawake⟩

/-- Settles O56: a write of BAR2 comes to what its port lets through (log entry 183), of which each byte in the area is stored. -/
theorem bar2WriteFrame : Obligations.Bar2WriteFrame := by
  intro m off data b l s k hdata hmem hlive hawake hk
  subst hdata
  have hwf : Memory.wf s.dev.bar2 = true := (Bool.and_eq_true_iff.mp hmem).2
  obtain ⟨e, hexec, hwritten⟩ := exec_registerWrite_bar2Written (off := off) (b := b) (l := l) hwf hlive hawake
  obtain ⟨hweft, houtside, hstored⟩ := hwritten
  replace hk : k = bar2Kept m off.toNat (b :: l).length := hk
  have hle : k ≤ (b :: l).length := hk ▸ bar2Kept_le _
  have hlen : ((b :: l).take k).length = k := by rw [List.length_take, Nat.min_eq_left hle]
  rw [← hk, hlen] at houtside hstored
  refine ⟨withDev s e, hexec, rfl, hweft, houtside, fun i hi hlo hhi hperm => ?_⟩
  calc memByte e.bar2 (off.toNat + i) = ((b :: l).take k).getD i 0 := hstored i hi hlo hhi hperm
    _ = (b :: l).getD i 0 := by rw [List.getD_eq_getElem?_getD, List.getElem?_take_of_lt hi, List.getD_eq_getElem?_getD]

end Sys2Proof.Proofs
end
